-- ==== Sys2Proof/Word.lean ====
section
/-! DEFINITION. The word types of the Krytlux and their plainest arithmetic: 64-bit scalar registers (R14), bytes (R4),
and sparse maps from natural numbers, the shape in which the many like parts of the device are held. -/

namespace Sys2Proof

/-- A scalar register, R14. -/
abbrev Word := BitVec 64

/-- A byte, R4. -/
abbrev Byte := BitVec 8

/-- A sparse map: keys in strictly rising order, a key that is not listed holds a default named where the map is read. -/
abbrev KMap (α : Type) := List (Nat × α)

/-- sext(v, w) of R14 for a value already of width `w`. -/
abbrev sext64 {w : Nat} (v : BitVec w) : Word := v.signExtend 64

/-- zext(v, w) of R14 for a value already of width `w`. -/
abbrev zext64 {w : Nat} (v : BitVec w) : Word := v.setWidth 64

/-- A Boolean as one bit. -/
abbrev bit (b : Bool) : BitVec 1 := BitVec.ofBool b

end Sys2Proof
end

