-- ==== Sys2Proof/Config.lean ====
section
/-! DEFINITION. What an implementation fixes and what the reference leaves free. Every constant here is opaque: nothing in
Lean can evaluate it or prove a value of it, so a statement that mentions one holds whatever it is. -/

namespace Sys2Proof.Config

/-- FREE VALUE (log 7): a 64-bit value the reference does not state, drawn afresh for each number. -/
opaque freeWord : Nat → BitVec 64

/-- FREE VALUE (log 7): a word of a snapshot whose contents the reference does not lay out, by latch, block and offset (R434). -/
opaque snapWord : Nat → Nat → Nat → BitVec 64

/-- SHA-512, which R445, R446 and R449 name as a standard and do not spell out (log 6). -/
opaque sha512 : List (BitVec 8) → BitVec 512

/-- ECDSA verification on P-521 (R445): key bytes, signed digest, signature bytes (log 6). -/
opaque ecdsaVerify : List (BitVec 8) → BitVec 512 → List (BitVec 8) → Bool

/-- SHA-512 of the firmware key, fused into the device (R445). -/
opaque fusedKeyDigest : BitVec 512

/-- The device serial number (R449). -/
opaque serial : BitVec 64

/-- The signature of a report under the device identity key, whose private part never leaves the device (R449, log 16). -/
opaque identitySign : List (BitVec 8) → List (BitVec 8)

/-- The certificate of the identity key's public part (R449). -/
opaque identityCertificate : List (BitVec 8)

/-- FREE VALUE (log 16): the bytes of an attestation report, for what it holds and its signature with the certificate: the reference gives no layout. -/
opaque reportByte : List (BitVec 8) → List (BitVec 8) → Nat → BitVec 8

/-- The fused minimum security version of a block kind (R445). -/
opaque fusedMinSvn : Nat → Nat

end Sys2Proof.Config
end

