-- ==== Sys2Proof/Syntax.lean ====
section
/-! DEFINITION. The instructions: one constructor for every row of spec/opcode_table.json. A constructor of an encoded row
carries the fields of its word; a constructor of a step without a word (an event of spec/95_what_each_step_holds.md) carries
the numbers that say which part of the device it concerns, and what the environment supplies with it. -/

namespace Sys2Proof

/-- The width code W of OP and OPW (R201): w64 is code 0. -/
inductive Width where
  | w64 | w32 | w16 | w8
  deriving DecidableEq, Repr

/-- The narrow width codes W = 1 to 3, which alone OPW and OPIW accept (R201, R205). -/
inductive NWidth where
  | w32 | w16 | w8
  deriving DecidableEq, Repr

/-- The type code t of FOP and FMA (R207). -/
inductive FTyp where
  | f32 | bf16 | f16 | f64
  deriving DecidableEq, Repr

/-- The element width code V.f3 (R180). -/
inductive VWidth where
  | w32 | w16 | w8 | w4 | w6 | w64
  deriving DecidableEq, Repr

/-- The element widths 8, 16, 32 and 64, which the integer VOP classes and the strided accesses accept (R268, R269, R276). -/
inductive VIWidth where
  | w32 | w16 | w8 | w64
  deriving DecidableEq, Repr

/-- The element widths of the bit counts (R276): all but 6. -/
inductive VCWidth where
  | w32 | w16 | w8 | w4 | w64
  deriving DecidableEq, Repr

/-- The element widths of the special functions (R275). -/
inductive VSWidth where
  | w32 | w16 | w64
  deriving DecidableEq, Repr

/-- The type of a float VOP: class 2 at widths 64, 32, 16 and class 3 (BF16) at 16 (R269). The code is class bit c then V.f3. -/
inductive VFTyp where
  | f32 | f16 | f64 | bf16
  deriving DecidableEq, Repr

/-- A format code of R149 or R153. -/
inductive Fmt where
  | f32 | bf16 | f16 | e5m2 | e4m3 | e3m2 | e2m3 | e2m1 | i8 | n8 | i4 | n4 | f64 | i16 | n16 | i32 | n32 | i64 | n64 | e8m0
  deriving DecidableEq, Repr

/-- A format code that the 4-bit fmt field of the M format names (R284, R289). -/
inductive MFmt where
  | f32 | bf16 | f16 | e5m2 | e4m3 | e3m2 | e2m3 | e2m1 | i8 | n8 | i4 | n4
  deriving DecidableEq, Repr

/-- A rounding mode (R155). -/
inductive RMode where
  | rne | rtz | rdn | rup | rna | sr
  deriving DecidableEq, Repr

/-- A scope code (R120). -/
inductive Scope where
  | slot | facet | prism | die | device | domain
  deriving DecidableEq, Repr

/-- A load code f3 (R232). -/
inductive LdTyp where
  | i8 | i16 | i32 | n64 | n8 | n16 | n32
  deriving DecidableEq, Repr

/-- A store code f3 (R233). -/
inductive StTyp where
  | n8 | n16 | n32 | n64
  deriving DecidableEq, Repr

/-- The type f3 of an atomic (R238). -/
inductive AmTyp where
  | i32 | n32 | i64 | n64 | f32 | f64 | bf16 | f16
  deriving DecidableEq, Repr

/-- The type f3 of a remote atomic (R247). -/
inductive RmTyp where
  | i32 | n32 | i64 | n64
  deriving DecidableEq, Repr

/-- The form code of an atomic (R238). -/
inductive AmForm where
  | relaxed | d | r | sc
  deriving DecidableEq, Repr

/-- The width and extension of a synchronising load (R235): .n32, .i32, .n64. -/
inductive FeTyp where
  | n32 | i32 | n64
  deriving DecidableEq, Repr

/-- What the owner of a remote address answers (R97, R228): a failing check, or data with its taint and poison. A step whose
address is on this device ignores it. -/
structure Answer where
  cause  : Option (BitVec 8)
  data   : List Byte
  taint  : Bool
  poison : Bool
  /-- The taint and poison of each 32-byte sector of the data (R83); where none is listed, those above hold for all. -/
  sectors : List (Bool × Bool) := []
  /-- The page is PRIVATE (R128). -/
  priv   : Bool := false
  deriving DecidableEq, Repr

/-- Who makes a monitor call (R448): a control core by SMC, or the host by HMCMD. -/
inductive Caller where
  | core (n : Nat) | host
  deriving DecidableEq, Repr

/-- Which dirty line a write-back concerns (R80, R457): a line of a prism's cache by address-space number and line number, or
a 512-byte line of a slice's cache by physical line number. -/
inductive WbTarget where
  | prism (p asn line : Nat) | slice (sl line : Nat)
  deriving DecidableEq, Repr

/-- Which wait has outlasted felim (R77, R245, R309): a slot's park, a request at a slice, or a refused message. -/
inductive WaitRef where
  | slot (f n : Nat) | req (id : Nat) | msg (id : Nat)
  deriving DecidableEq, Repr

/-- Where an ECC error lies (R451). -/
inductive ErrWhere where
  | hbm (pa : Nat) | sliceData (sl pa : Nat) | prismData (p asn va : Nat)
  | localStore (f word : Nat) | vreg (f bank reg lane : Nat) | scalar (f n reg : Nat) | acc (f : Nat) (q : Bool) (k : Nat)
  | sliceTables (sl : Nat) | tlb (sl asn va : Nat)
  deriving DecidableEq, Repr

/-- A partition as the monitor's configuration names it (R364, R444). -/
structure PartCfg where
  prisms  : List Nat
  slices  : List Nat
  cores   : List Nat
  ports   : BitVec 16
  hbm     : List (Nat × Nat)
  hsp     : Word
  first   : Nat
  pc      : Word
  deriving DecidableEq, Repr

/-- What the management controller finds at power-on (R444): the firmware images, what its configuration names, and which
steps of the bring-up succeed. -/
structure BootCfg where
  images      : List (Nat × List Byte)
  dev         : Nat
  regions     : List (Word × Word)
  secureCores : List Nat
  securePrisms : List Nat
  secureSlices : List Nat
  dieJoins    : Bool
  hbmUp       : Bool
  ports       : List Nat
  routes      : List (Nat × BitVec 16)
  peers       : List Nat
  parts       : List (Nat × PartCfg)
  queueParts  : List (Nat × Nat)
  deriving DecidableEq, Repr

/-- An access of the debug aperture (R405): a write or a read, and its size in bytes. -/
structure ApAccess where
  write : Bool
  size  : Nat := 8
  deriving DecidableEq, Repr

/-- One constructor for every row of spec/opcode_table.json. -/
inductive Instr where
  /-- ENTRY_ISSUE, R36. -/
  | entryIssue (c seq : Nat)
  /-- ASK_FOR_WORK, R373. -/
  | askForWork (p : Nat)
  /-- GANG_ADMISSION, R52. -/
  | gangAdmission (c seq g : Nat)
  /-- ENTRY_COMPLETE, R38. -/
  | entryComplete (c seq : Nat)
  /-- ENTRY_RETIRE, R40. -/
  | entryRetire (c : Nat)
  /-- SUPERSEDE_NOTICE, R95. -/
  | supersedeNotice (sl c : Nat) (base len : Nat) (v : Nat)
  /-- TASK_FAULT, R41. -/
  | taskFault (f n : Nat)
  /-- REPORTED_ENTRY, R42. -/
  | reportedEntry (c : Nat)
  /-- FAULT_DELIVERY, R323. -/
  | faultDelivery (c : Nat)
  /-- ACCEPTANCE, R228. -/
  | acceptance (id : Nat) (ans : Answer)
  /-- REFUSED_REQUEST_RESEND, R86. -/
  | refusedRequestResend (id : Nat)
  /-- LOAD_DATA_RETURN, R190. -/
  | loadDataReturn (id : Nat) (ans : Answer)
  /-- WRITE_BACK, R80. -/
  | writeBack (t : WbTarget)
  /-- ATOMIC_APPLY, R239. -/
  | atomicApply (id : Nat) (ans : Answer)
  /-- JOIN_DECREMENT, R304. -/
  | joinDecrement (id : Nat) (ans : Answer)
  /-- HOLDING_BUFFER_RECORD, R114. -/
  | holdingBufferRecord (id : Nat)
  /-- BATCH_CLOSE, R114. -/
  | batchClose (sl c seq : Nat)
  /-- REDUCTION_LINE_MERGE, R118. -/
  | reductionLineMerge (p asn line : Nat)
  /-- PREFETCH, R119. -/
  | prefetch (sl pa : Nat)
  /-- SEAL, R244. -/
  | seal (sl tile ver : Nat)
  /-- VERSION_ARRIVAL_NOTICE, R93. -/
  | versionArrivalNotice (id : Nat) (ans : Answer)
  /-- COPY_PIECE, R99. -/
  | copyPiece (id : Nat) (ans : Answer)
  /-- COPY_COMPLETION, R248. -/
  | copyCompletion (id : Nat)
  /-- MERGE_WINDOW_CLOSE, R105. -/
  | mergeWindowClose (sl id : Nat)
  /-- WAIT_LIMIT, R77. -/
  | waitLimit (w : WaitRef)
  /-- BUILT_IN_OPERATION, R253. -/
  | builtInOperation (f : Nat)
  /-- RSTF_RESEND, R108. -/
  | rstfResend (f n : Nat)
  /-- MESSAGE_DELIVERY, R311. -/
  | messageDelivery (id : Nat) (ans : Answer)
  /-- MESSAGE_RESEND, R309. -/
  | messageResend (id : Nat)
  /-- HANDLER_START, R314. -/
  | handlerStart (f : Nat)
  /-- SEQUENCER_START, R261. -/
  | sequencerStart (f : Nat)
  /-- SEQUENCER_RESULT, R261. -/
  | sequencerResult (f k : Nat)
  /-- STREAM_TRANSFER, R267. -/
  | streamTransfer (f k : Nat)
  /-- MERGE_COMPLETE, R279. -/
  | mergeComplete (id : Nat)
  /-- QUEUE_BINDING, R281. -/
  | queueBinding (p : Nat)
  /-- MATRIX_READS_BEGIN, R300. -/
  | matrixReadsBegin (f : Nat) (q : Bool)
  /-- MATRIX_COMPUTE_BEGIN, R300. -/
  | matrixComputeBegin (f : Nat) (q : Bool)
  /-- MATRIX_COMPLETION, R300. -/
  | matrixCompletion (f : Nat) (q : Bool)
  /-- COLLECTION_WINDOW_CLOSE, R354. -/
  | collectionWindowClose (f : Nat)
  /-- LATE_REPORT, R230. -/
  | lateReport (f n : Nat)
  /-- SC_WINDOW_CLOSE, R133. -/
  | scWindowClose (w : Nat)
  /-- END_MARKER, R133. -/
  | endMarker (sl dev w : Nat)
  /-- INTERRUPT, R349. -/
  | interrupt (k : Nat)
  /-- TIMER, R347. -/
  | timer (k : Nat)
  /-- FAULT_QUEUE_REPOST, R356. -/
  | faultQueueRepost (id : Nat)
  /-- SFRPLY_RETRY, R357. -/
  | sfrplyRetry (k tok : Nat)
  /-- SFRPLY_NOMAP, R357. -/
  | sfrplyNomap (k tok : Nat)
  /-- SFRPLY_ACCESS, R357. -/
  | sfrplyAccess (k tok : Nat)
  /-- SPRE_SAVE, R358. -/
  | spreSave (k f save : Nat)
  /-- WITHDRAWAL_ANSWER, R358. -/
  | withdrawalAnswer (id : Nat) (removed : Bool)
  /-- SAVE_DRAIN_END, R358. -/
  | saveDrainEnd (f : Nat)
  /-- SPRE_RESUME, R360. -/
  | spreResume (k f save : Nat)
  /-- CTXT_SET_V, R367. -/
  | ctxtSetV (k c : Nat) (v : Word)
  /-- CTXT_CLEAR_V, R367. -/
  | ctxtClearV (k c : Nat) (v : Word)
  /-- NOTIFY, R371. -/
  | notify (q : Nat) (v : BitVec 32)
  /-- QMAP_SET_V, R371. -/
  | qmapSetV (k q : Nat) (v : Word)
  /-- QMAP_CLEAR_V, R371. -/
  | qmapClearV (k q : Nat) (v : Word)
  /-- DRAIN, R381. -/
  | drain (p : Nat)
  /-- DRAIN_IDLE, R381. -/
  | drainIdle (p : Nat)
  /-- RETURN, R381. -/
  | prismReturn (p : Nat)
  /-- REMOVE, R381. -/
  | remove (p : Nat)
  /-- CLOCK_CHANGE, R380. -/
  | clockChange (p : Nat)
  /-- SCFG_WRITE, R378. -/
  | scfgWrite (sl : Nat) (v : Word)
  /-- INVALIDATE_PAGE, R392. -/
  | invalidatePage (k c size : Nat)
  /-- INVALIDATE_CONTEXT, R392. -/
  | invalidateContext (k c : Nat)
  /-- INVALIDATE_PARTITION, R392. -/
  | invalidatePartition (k : Nat)
  /-- INVALIDATION_DONE, R392. -/
  | invalidationDone (k : Nat)
  /-- MOVE_PAGE, R397. -/
  | movePage (sl c : Nat)
  /-- MOVE_FRAME_AREA, R399. -/
  | moveFrameArea (sl : Nat)
  /-- TRANSFER_HOME, R400. -/
  | transferHome (sl sub : Nat)
  /-- MIGRATION_COPY_DONE, R397. -/
  | migrationCopyDone (sl : Nat)
  /-- HINT, R437. -/
  | hint (k q : Nat)
  /-- REGISTER_WRITE, R363. -/
  | registerWrite (k pa : Nat) (v : Word)
  /-- HALT, R416. -/
  | halt (f n : Nat)
  /-- REL, R409. -/
  | rel (f n : Nat)
  /-- RUN, R415. -/
  | run (f n : Nat)
  /-- STEP, R419. -/
  | step (f n : Nat)
  /-- HSET, R418. -/
  | hset (c : Nat) (g : BitVec 16)
  /-- HCLR, R418. -/
  | hclr (c : Nat) (g : BitVec 16)
  /-- DETACH, R408. -/
  | detach (c : Nat)
  /-- BREAKPOINT_MATCH, R411. -/
  | breakpointMatch (f n : Nat)
  /-- WATCHPOINT_MATCH, R413. -/
  | watchpointMatch (f n j : Nat) (a : Nat)
  /-- MEMORY_PORT_READ, R424. -/
  | memoryPortRead (c : Nat)
  /-- MEMORY_PORT_WRITE, R424. -/
  | memoryPortWrite (c : Nat)
  /-- CLR, R427. -/
  | clr (f : Nat)
  /-- TSW, R432. -/
  | tsw (k : Nat)
  /-- TIME_BASE_COMPARE, R431. -/
  | timeBaseCompare (k : Nat)
  /-- TEST_PORT_TRIGGER, R431. -/
  | testPortTrigger
  /-- CHANNEL_START, R433. -/
  | channelStart (k : Nat)
  /-- CHANNEL_STOP, R433. -/
  | channelStop (k : Nat)
  /-- TEST_PORT_UPDATE, R404. -/
  | testPortUpdate (v : BitVec 112)
  /-- APERTURE_TIMEOUT, R406. -/
  | apertureTimeout
  /-- PART, R448. -/
  | part (who : Caller)
  /-- REGION, R448. -/
  | region (who : Caller)
  /-- ATTEST, R449. -/
  | attest (who : Caller)
  /-- UPDATE, R450. -/
  | update (who : Caller)
  /-- SERVICE, R448. -/
  | service (who : Caller)
  /-- LINK, R448. -/
  | link (who : Caller)
  /-- EXTEND, R446. -/
  | extend (who : Caller)
  /-- LOG, R448. -/
  | log (who : Caller)
  /-- APCFG, R448. -/
  | apcfg (who : Caller)
  /-- FUNCTION_LEVEL_RESET, R435. -/
  | functionLevelReset
  /-- POWER_ON, R444. -/
  | powerOn (cfg : BootCfg)
  /-- FLIT_RETRY, R439. -/
  | flitRetry (port : Nat)
  /-- PATH_FAILURE, R440. -/
  | pathFailure (port : Nat)
  /-- PEER_LOST, R441. -/
  | peerLost (dev : Nat)
  /-- SYN, R442. -/
  | syn (t : Nat)
  /-- TRG, R443. -/
  | trg (ch t : Nat)
  /-- UCIE_JOIN_FAILURE, R438. -/
  | ucieJoinFailure (j : Nat)
  /-- UNCORRECTABLE_ERROR, R451. -/
  | uncorrectableError (w : ErrWhere)
  /-- CORRECTABLE_ERROR, R451. -/
  | correctableError (w : ErrWhere)
  /-- THROTTLING, R453. -/
  | throttling (die temp : Nat)
  /-- SHUTDOWN, R453. -/
  | shutdown (die : Nat)
  /-- APERTURE_ACCESS, R423. -/
  | apertureAccess (acc : ApAccess) (addr : BitVec 40) (data : Word)
  /-- PORT_TRAINED, R440. -/
  | portTrained (port : Nat)
  /-- VLDL, R268. -/
  | vldl (m : Bool) (a : BitVec 5) (w : VWidth) (d : BitVec 5)
  /-- VSTL, R268. -/
  | vstl (m : Bool) (a : BitVec 5) (w : VWidth) (d : BitVec 5)
  /-- VLDLS, R268. -/
  | vldls (m : Bool) (b : BitVec 5) (a : BitVec 5) (w : VIWidth) (d : BitVec 5)
  /-- VSTLS, R268. -/
  | vstls (m : Bool) (b : BitVec 5) (a : BitVec 5) (w : VIWidth) (d : BitVec 5)
  /-- VLD, R268. -/
  | vld (m : Bool) (a : BitVec 5) (w : VWidth) (d : BitVec 5)
  /-- VST, R268. -/
  | vst (m : Bool) (a : BitVec 5) (w : VWidth) (d : BitVec 5)
  /-- VADD, R269. -/
  | vadd (u : Bool) (m : Bool) (b : BitVec 5) (a : BitVec 5) (w : VIWidth) (d : BitVec 5)
  /-- VSUB, R269. -/
  | vsub (u : Bool) (m : Bool) (b : BitVec 5) (a : BitVec 5) (w : VIWidth) (d : BitVec 5)
  /-- VMUL, R269. -/
  | vmul (u : Bool) (m : Bool) (b : BitVec 5) (a : BitVec 5) (w : VIWidth) (d : BitVec 5)
  /-- VMULH, R269. -/
  | vmulh (u : Bool) (m : Bool) (b : BitVec 5) (a : BitVec 5) (w : VIWidth) (d : BitVec 5)
  /-- VMIN, R269. -/
  | vmin (u : Bool) (m : Bool) (b : BitVec 5) (a : BitVec 5) (w : VIWidth) (d : BitVec 5)
  /-- VMAX, R269. -/
  | vmax (u : Bool) (m : Bool) (b : BitVec 5) (a : BitVec 5) (w : VIWidth) (d : BitVec 5)
  /-- VAND, R269. -/
  | vand (u : Bool) (m : Bool) (b : BitVec 5) (a : BitVec 5) (w : VIWidth) (d : BitVec 5)
  /-- VOR, R269. -/
  | vor (u : Bool) (m : Bool) (b : BitVec 5) (a : BitVec 5) (w : VIWidth) (d : BitVec 5)
  /-- VXOR, R269. -/
  | vxor (u : Bool) (m : Bool) (b : BitVec 5) (a : BitVec 5) (w : VIWidth) (d : BitVec 5)
  /-- VSHL, R269. -/
  | vshl (u : Bool) (m : Bool) (b : BitVec 5) (a : BitVec 5) (w : VIWidth) (d : BitVec 5)
  /-- VSHR, R269. -/
  | vshr (u : Bool) (m : Bool) (b : BitVec 5) (a : BitVec 5) (w : VIWidth) (d : BitVec 5)
  /-- VADDS, R269. -/
  | vadds (u : Bool) (m : Bool) (b : BitVec 5) (a : BitVec 5) (w : VIWidth) (d : BitVec 5)
  /-- VSUBS, R269. -/
  | vsubs (u : Bool) (m : Bool) (b : BitVec 5) (a : BitVec 5) (w : VIWidth) (d : BitVec 5)
  /-- VCMPEQ, R270. -/
  | vcmpeq (u : Bool) (m : Bool) (b : BitVec 5) (a : BitVec 5) (w : VIWidth) (d : BitVec 5)
  /-- VCMPLT, R270. -/
  | vcmplt (u : Bool) (m : Bool) (b : BitVec 5) (a : BitVec 5) (w : VIWidth) (d : BitVec 5)
  /-- VCMPLE, R270. -/
  | vcmple (u : Bool) (m : Bool) (b : BitVec 5) (a : BitVec 5) (w : VIWidth) (d : BitVec 5)
  /-- VFADD, R270. -/
  | vfadd (t : VFTyp) (m : Bool) (b : BitVec 5) (a : BitVec 5) (d : BitVec 5)
  /-- VFSUB, R270. -/
  | vfsub (t : VFTyp) (m : Bool) (b : BitVec 5) (a : BitVec 5) (d : BitVec 5)
  /-- VFMUL, R270. -/
  | vfmul (t : VFTyp) (m : Bool) (b : BitVec 5) (a : BitVec 5) (d : BitVec 5)
  /-- VFDIV, R270. -/
  | vfdiv (t : VFTyp) (m : Bool) (b : BitVec 5) (a : BitVec 5) (d : BitVec 5)
  /-- VFMIN, R269. -/
  | vfmin (t : VFTyp) (m : Bool) (b : BitVec 5) (a : BitVec 5) (d : BitVec 5)
  /-- VFMAX, R269. -/
  | vfmax (t : VFTyp) (m : Bool) (b : BitVec 5) (a : BitVec 5) (d : BitVec 5)
  /-- VFMA, R270. -/
  | vfma (t : VFTyp) (m : Bool) (b : BitVec 5) (a : BitVec 5) (d : BitVec 5)
  /-- VFNMA, R270. -/
  | vfnma (t : VFTyp) (m : Bool) (b : BitVec 5) (a : BitVec 5) (d : BitVec 5)
  /-- VFCMPUN, R269. -/
  | vfcmpun (t : VFTyp) (m : Bool) (b : BitVec 5) (a : BitVec 5) (d : BitVec 5)
  /-- VFSQRT, R270. -/
  | vfsqrt (t : VFTyp) (m : Bool) (a : BitVec 5) (d : BitVec 5)
  /-- VFSGNJ, R269. -/
  | vfsgnj (t : VFTyp) (m : Bool) (b : BitVec 5) (a : BitVec 5) (d : BitVec 5)
  /-- VFSGNJN, R269. -/
  | vfsgnjn (t : VFTyp) (m : Bool) (b : BitVec 5) (a : BitVec 5) (d : BitVec 5)
  /-- VFSGNJX, R269. -/
  | vfsgnjx (t : VFTyp) (m : Bool) (b : BitVec 5) (a : BitVec 5) (d : BitVec 5)
  /-- VFCMPEQ, R269. -/
  | vfcmpeq (t : VFTyp) (m : Bool) (b : BitVec 5) (a : BitVec 5) (d : BitVec 5)
  /-- VFCMPLT, R269. -/
  | vfcmplt (t : VFTyp) (m : Bool) (b : BitVec 5) (a : BitVec 5) (d : BitVec 5)
  /-- VFCMPLE, R269. -/
  | vfcmple (t : VFTyp) (m : Bool) (b : BitVec 5) (a : BitVec 5) (d : BitVec 5)
  /-- VCVT_F, R272. -/
  | vcvtF (m : Bool) (b : Fmt) (a : BitVec 5) (w : VWidth) (d : BitVec 5)
  /-- VCVT_I, R272. -/
  | vcvtI (m : Bool) (b : Fmt) (a : BitVec 5) (w : VWidth) (d : BitVec 5)
  /-- VQNT32, R273. -/
  | vqnt32 (m : Bool) (b : Fmt) (a : BitVec 5) (d : BitVec 5)
  /-- VQNT128, R273. -/
  | vqnt128 (m : Bool) (b : Fmt) (a : BitVec 5) (d : BitVec 5)
  /-- VQNT256, R273. -/
  | vqnt256 (m : Bool) (b : Fmt) (a : BitVec 5) (d : BitVec 5)
  /-- VDQNT32, R274. -/
  | vdqnt32 (m : Bool) (b : Fmt) (a : BitVec 5) (d : BitVec 5)
  /-- VDQNT128, R274. -/
  | vdqnt128 (m : Bool) (b : Fmt) (a : BitVec 5) (d : BitVec 5)
  /-- VDQNT256, R274. -/
  | vdqnt256 (m : Bool) (b : Fmt) (a : BitVec 5) (d : BitVec 5)
  /-- VEXP2, R275. -/
  | vexp2 (m : Bool) (a : BitVec 5) (w : VSWidth) (d : BitVec 5)
  /-- VLOG2, R275. -/
  | vlog2 (m : Bool) (a : BitVec 5) (w : VSWidth) (d : BitVec 5)
  /-- VRCP, R275. -/
  | vrcp (m : Bool) (a : BitVec 5) (w : VSWidth) (d : BitVec 5)
  /-- VRSQRT, R275. -/
  | vrsqrt (m : Bool) (a : BitVec 5) (w : VSWidth) (d : BitVec 5)
  /-- VCLZ, R276. -/
  | vclz (m : Bool) (a : BitVec 5) (w : VCWidth) (d : BitVec 5)
  /-- VCTZ, R276. -/
  | vctz (m : Bool) (a : BitVec 5) (w : VCWidth) (d : BitVec 5)
  /-- VFFS, R276. -/
  | vffs (m : Bool) (a : BitVec 5) (w : VCWidth) (d : BitVec 5)
  /-- VPOPC, R276. -/
  | vpopc (m : Bool) (a : BitVec 5) (w : VCWidth) (d : BitVec 5)
  /-- VBCAST, R276. -/
  | vbcast (m : Bool) (a : BitVec 5) (w : VWidth) (d : BitVec 5)
  /-- VEXT, R276. -/
  | vext (m : Bool) (b : BitVec 5) (a : BitVec 5) (w : VIWidth) (d : BitVec 5)
  /-- VINS, R276. -/
  | vins (m : Bool) (b : BitVec 5) (a : BitVec 5) (w : VIWidth) (d : BitVec 5)
  /-- VPERM, R276. -/
  | vperm (m : Bool) (b : BitVec 5) (a : BitVec 5) (w : VIWidth) (d : BitVec 5)
  /-- VSLUP, R276. -/
  | vslup (m : Bool) (b : BitVec 5) (a : BitVec 5) (w : VWidth) (d : BitVec 5)
  /-- VSLDN, R276. -/
  | vsldn (m : Bool) (b : BitVec 5) (a : BitVec 5) (w : VWidth) (d : BitVec 5)
  /-- VIOTA, R276. -/
  | viota (m : Bool) (w : VIWidth) (d : BitVec 5)
  /-- VMV, R276. -/
  | vmv (m : Bool) (a : BitVec 5) (w : VWidth) (d : BitVec 5)
  /-- VRSUM, R277. -/
  | vrsum (m : Bool) (b : Fmt) (a : BitVec 5) (w : VWidth) (d : BitVec 5)
  /-- VRMAX, R277. -/
  | vrmax (m : Bool) (b : Fmt) (a : BitVec 5) (w : VWidth) (d : BitVec 5)
  /-- VRMIN, R277. -/
  | vrmin (m : Bool) (b : Fmt) (a : BitVec 5) (w : VWidth) (d : BitVec 5)
  /-- VSCAN, R277. -/
  | vscan (m : Bool) (b : Fmt) (a : BitVec 5) (w : VWidth) (d : BitVec 5)
  /-- VPMRG, R278. -/
  | vpmrg (b : BitVec 5) (a : BitVec 5) (d : BitVec 5)
  /-- VCLAIM, R257. -/
  | vclaim (a : BitVec 5) (d : BitVec 5)
  /-- VYIELD, R264. -/
  | vyield (a : BitVec 5) (d : BitVec 5)
  /-- VLOOP, R265. -/
  | vloop (n : BitVec 4) (a : BitVec 5)
  /-- VBIND, R266. -/
  | vbind (y : Bool) (k : BitVec 2) (a : BitVec 5)
  /-- VUNBIND, R267. -/
  | vunbind (k : BitVec 2)
  /-- VSETVL, R264. -/
  | vsetvl (w : VWidth) (a : BitVec 5) (d : BitVec 5)
  /-- VSTAT, R267. -/
  | vstat (d : BitVec 5)
  /-- MXMUL, R293. -/
  | mxmul (s : Bool) (b : BitVec 5) (a : BitVec 5) (q : Bool) (c : BitVec 3) (f : MFmt)
  /-- MXMULZ, R293. -/
  | mxmulz (s : Bool) (b : BitVec 5) (a : BitVec 5) (q : Bool) (c : BitVec 3) (f : MFmt)
  /-- MXZERO, R296. -/
  | mxzero (q : Bool) (c : BitVec 3)
  /-- MXLD, R296. -/
  | mxld (a : BitVec 5) (q : Bool) (c : BitVec 3) (f : MFmt)
  /-- MXST, R296. -/
  | mxst (s : Bool) (a : BitVec 5) (q : Bool) (c : BitVec 3) (f : MFmt)
  /-- MXADD, R296. -/
  | mxadd (j : BitVec 3) (q : Bool) (c : BitVec 3)
  /-- MXTR, R296. -/
  | mxtr (j : BitVec 3) (q : Bool) (c : BitVec 3)
  /-- MXREL, R298. -/
  | mxrel (q : Bool)
  /-- MXFENCE, R299. -/
  | mxfence (m : BitVec 4)
  /-- ADD, R201. -/
  | add (u : Bool) (b : BitVec 5) (a : BitVec 5) (d : BitVec 5)
  /-- SUB, R201. -/
  | sub (u : Bool) (b : BitVec 5) (a : BitVec 5) (d : BitVec 5)
  /-- MUL, R201. -/
  | mul (u : Bool) (b : BitVec 5) (a : BitVec 5) (d : BitVec 5)
  /-- MULH, R201. -/
  | mulh (u : Bool) (b : BitVec 5) (a : BitVec 5) (d : BitVec 5)
  /-- ADDX2, R201. -/
  | addx2 (u : Bool) (b : BitVec 5) (a : BitVec 5) (d : BitVec 5)
  /-- ADDX4, R201. -/
  | addx4 (u : Bool) (b : BitVec 5) (a : BitVec 5) (d : BitVec 5)
  /-- ADDX8, R201. -/
  | addx8 (u : Bool) (b : BitVec 5) (a : BitVec 5) (d : BitVec 5)
  /-- ADDX16, R201. -/
  | addx16 (u : Bool) (b : BitVec 5) (a : BitVec 5) (d : BitVec 5)
  /-- SHL, R201. -/
  | shl (u : Bool) (b : BitVec 5) (a : BitVec 5) (d : BitVec 5)
  /-- SHR, R201. -/
  | shr (u : Bool) (b : BitVec 5) (a : BitVec 5) (d : BitVec 5)
  /-- ROL, R201. -/
  | rol (u : Bool) (b : BitVec 5) (a : BitVec 5) (d : BitVec 5)
  /-- ROR, R201. -/
  | ror (u : Bool) (b : BitVec 5) (a : BitVec 5) (d : BitVec 5)
  /-- MIN, R201. -/
  | min (u : Bool) (b : BitVec 5) (a : BitVec 5) (d : BitVec 5)
  /-- MAX, R201. -/
  | max (u : Bool) (b : BitVec 5) (a : BitVec 5) (d : BitVec 5)
  /-- DIV, R203. -/
  | div (u : Bool) (b : BitVec 5) (a : BitVec 5) (d : BitVec 5)
  /-- REM, R203. -/
  | rem (u : Bool) (b : BitVec 5) (a : BitVec 5) (d : BitVec 5)
  /-- AND, R201. -/
  | and (u : Bool) (b : BitVec 5) (a : BitVec 5) (d : BitVec 5)
  /-- OR, R201. -/
  | or (u : Bool) (b : BitVec 5) (a : BitVec 5) (d : BitVec 5)
  /-- XOR, R201. -/
  | xor (u : Bool) (b : BitVec 5) (a : BitVec 5) (d : BitVec 5)
  /-- ANDN, R201. -/
  | andn (u : Bool) (b : BitVec 5) (a : BitVec 5) (d : BitVec 5)
  /-- ORN, R201. -/
  | orn (u : Bool) (b : BitVec 5) (a : BitVec 5) (d : BitVec 5)
  /-- XNOR, R201. -/
  | xnor (u : Bool) (b : BitVec 5) (a : BitVec 5) (d : BitVec 5)
  /-- CLZ, R202. -/
  | clz (u : Bool) (a : BitVec 5) (d : BitVec 5)
  /-- CTZ, R202. -/
  | ctz (u : Bool) (a : BitVec 5) (d : BitVec 5)
  /-- FFS, R202. -/
  | ffs (u : Bool) (a : BitVec 5) (d : BitVec 5)
  /-- POPC, R202. -/
  | popc (u : Bool) (a : BitVec 5) (d : BitVec 5)
  /-- BREV, R202. -/
  | brev (u : Bool) (a : BitVec 5) (d : BitVec 5)
  /-- BSWAP, R202. -/
  | bswap (u : Bool) (a : BitVec 5) (d : BitVec 5)
  /-- ADD_W, R201. -/
  | addW (u : Bool) (w : NWidth) (b : BitVec 5) (a : BitVec 5) (d : BitVec 5)
  /-- SUB_W, R201. -/
  | subW (u : Bool) (w : NWidth) (b : BitVec 5) (a : BitVec 5) (d : BitVec 5)
  /-- MUL_W, R201. -/
  | mulW (u : Bool) (w : NWidth) (b : BitVec 5) (a : BitVec 5) (d : BitVec 5)
  /-- MULH_W, R201. -/
  | mulhW (u : Bool) (w : NWidth) (b : BitVec 5) (a : BitVec 5) (d : BitVec 5)
  /-- ADDX2_W, R201. -/
  | addx2W (u : Bool) (w : NWidth) (b : BitVec 5) (a : BitVec 5) (d : BitVec 5)
  /-- ADDX4_W, R201. -/
  | addx4W (u : Bool) (w : NWidth) (b : BitVec 5) (a : BitVec 5) (d : BitVec 5)
  /-- ADDX8_W, R201. -/
  | addx8W (u : Bool) (w : NWidth) (b : BitVec 5) (a : BitVec 5) (d : BitVec 5)
  /-- ADDX16_W, R201. -/
  | addx16W (u : Bool) (w : NWidth) (b : BitVec 5) (a : BitVec 5) (d : BitVec 5)
  /-- SHL_W, R201. -/
  | shlW (u : Bool) (w : NWidth) (b : BitVec 5) (a : BitVec 5) (d : BitVec 5)
  /-- SHR_W, R201. -/
  | shrW (u : Bool) (w : NWidth) (b : BitVec 5) (a : BitVec 5) (d : BitVec 5)
  /-- ROL_W, R201. -/
  | rolW (u : Bool) (w : NWidth) (b : BitVec 5) (a : BitVec 5) (d : BitVec 5)
  /-- ROR_W, R201. -/
  | rorW (u : Bool) (w : NWidth) (b : BitVec 5) (a : BitVec 5) (d : BitVec 5)
  /-- MIN_W, R201. -/
  | minW (u : Bool) (w : NWidth) (b : BitVec 5) (a : BitVec 5) (d : BitVec 5)
  /-- MAX_W, R201. -/
  | maxW (u : Bool) (w : NWidth) (b : BitVec 5) (a : BitVec 5) (d : BitVec 5)
  /-- DIV_W, R203. -/
  | divW (u : Bool) (w : NWidth) (b : BitVec 5) (a : BitVec 5) (d : BitVec 5)
  /-- REM_W, R203. -/
  | remW (u : Bool) (w : NWidth) (b : BitVec 5) (a : BitVec 5) (d : BitVec 5)
  /-- AND_W, R201. -/
  | andW (u : Bool) (w : NWidth) (b : BitVec 5) (a : BitVec 5) (d : BitVec 5)
  /-- OR_W, R201. -/
  | orW (u : Bool) (w : NWidth) (b : BitVec 5) (a : BitVec 5) (d : BitVec 5)
  /-- XOR_W, R201. -/
  | xorW (u : Bool) (w : NWidth) (b : BitVec 5) (a : BitVec 5) (d : BitVec 5)
  /-- ANDN_W, R201. -/
  | andnW (u : Bool) (w : NWidth) (b : BitVec 5) (a : BitVec 5) (d : BitVec 5)
  /-- ORN_W, R201. -/
  | ornW (u : Bool) (w : NWidth) (b : BitVec 5) (a : BitVec 5) (d : BitVec 5)
  /-- XNOR_W, R201. -/
  | xnorW (u : Bool) (w : NWidth) (b : BitVec 5) (a : BitVec 5) (d : BitVec 5)
  /-- CLZ_W, R202. -/
  | clzW (u : Bool) (w : NWidth) (a : BitVec 5) (d : BitVec 5)
  /-- CTZ_W, R202. -/
  | ctzW (u : Bool) (w : NWidth) (a : BitVec 5) (d : BitVec 5)
  /-- FFS_W, R202. -/
  | ffsW (u : Bool) (w : NWidth) (a : BitVec 5) (d : BitVec 5)
  /-- POPC_W, R202. -/
  | popcW (u : Bool) (w : NWidth) (a : BitVec 5) (d : BitVec 5)
  /-- BREV_W, R202. -/
  | brevW (u : Bool) (w : NWidth) (a : BitVec 5) (d : BitVec 5)
  /-- BSWAP_W, R202. -/
  | bswapW (u : Bool) (w : NWidth) (a : BitVec 5) (d : BitVec 5)
  /-- ADDI, R204. -/
  | addi (i : BitVec 12) (a : BitVec 5) (d : BitVec 5)
  /-- SHLI, R204. -/
  | shli (s : BitVec 6) (a : BitVec 5) (d : BitVec 5)
  /-- SHRI_N, R204. -/
  | shriN (s : BitVec 6) (a : BitVec 5) (d : BitVec 5)
  /-- SHRI_I, R204. -/
  | shriI (s : BitVec 6) (a : BitVec 5) (d : BitVec 5)
  /-- ROLI, R204. -/
  | roli (s : BitVec 6) (a : BitVec 5) (d : BitVec 5)
  /-- RORI, R204. -/
  | rori (s : BitVec 6) (a : BitVec 5) (d : BitVec 5)
  /-- BFX_N, R204. -/
  | bfxN (p : BitVec 6) (l : BitVec 6) (a : BitVec 5) (d : BitVec 5)
  /-- BFX_I, R204. -/
  | bfxI (p : BitVec 6) (l : BitVec 6) (a : BitVec 5) (d : BitVec 5)
  /-- XORI, R204. -/
  | xori (i : BitVec 12) (a : BitVec 5) (d : BitVec 5)
  /-- BFI, R204. -/
  | bfi (p : BitVec 6) (l : BitVec 6) (a : BitVec 5) (d : BitVec 5)
  /-- ORI, R204. -/
  | ori (i : BitVec 12) (a : BitVec 5) (d : BitVec 5)
  /-- ANDI, R204. -/
  | andi (i : BitVec 12) (a : BitVec 5) (d : BitVec 5)
  /-- ADDI_W, R205. -/
  | addiW (i : BitVec 12) (a : BitVec 5) (u : Bool) (w : NWidth) (d : BitVec 5)
  /-- LIM, R206. -/
  | lim (i : BitVec 20) (d : BitVec 5)
  /-- PCADD, R206. -/
  | pcadd (i : BitVec 20) (d : BitVec 5)
  /-- FADD, R207. -/
  | fadd (t : FTyp) (b : BitVec 5) (a : BitVec 5) (d : BitVec 5)
  /-- FSUB, R207. -/
  | fsub (t : FTyp) (b : BitVec 5) (a : BitVec 5) (d : BitVec 5)
  /-- FMUL, R207. -/
  | fmul (t : FTyp) (b : BitVec 5) (a : BitVec 5) (d : BitVec 5)
  /-- FDIV, R207. -/
  | fdiv (t : FTyp) (b : BitVec 5) (a : BitVec 5) (d : BitVec 5)
  /-- FSQRT, R207. -/
  | fsqrt (t : FTyp) (a : BitVec 5) (d : BitVec 5)
  /-- FMIN, R208. -/
  | fmin (t : FTyp) (b : BitVec 5) (a : BitVec 5) (d : BitVec 5)
  /-- FMAX, R208. -/
  | fmax (t : FTyp) (b : BitVec 5) (a : BitVec 5) (d : BitVec 5)
  /-- FSGNJ, R209. -/
  | fsgnj (t : FTyp) (b : BitVec 5) (a : BitVec 5) (d : BitVec 5)
  /-- FSGNJN, R209. -/
  | fsgnjn (t : FTyp) (b : BitVec 5) (a : BitVec 5) (d : BitVec 5)
  /-- FSGNJX, R209. -/
  | fsgnjx (t : FTyp) (b : BitVec 5) (a : BitVec 5) (d : BitVec 5)
  /-- FCVT_FLOAT_TO_FLOAT, R210. -/
  | fcvtFloatToFloat (t : FTyp) (b : Fmt) (a : BitVec 5) (d : BitVec 5)
  /-- FCVT_FLOAT_TO_INTEGER, R210. -/
  | fcvtFloatToInteger (t : FTyp) (b : Fmt) (a : BitVec 5) (d : BitVec 5)
  /-- FCVT_INTEGER_TO_FLOAT, R210. -/
  | fcvtIntegerToFloat (t : FTyp) (b : Fmt) (a : BitVec 5) (d : BitVec 5)
  /-- FCLASS, R211. -/
  | fclass (t : FTyp) (a : BitVec 5) (d : BitVec 5)
  /-- FMADD, R212. -/
  | fmadd (c : BitVec 5) (t : FTyp) (b : BitVec 5) (a : BitVec 5) (d : BitVec 5)
  /-- FMSUB, R212. -/
  | fmsub (c : BitVec 5) (t : FTyp) (b : BitVec 5) (a : BitVec 5) (d : BitVec 5)
  /-- FNMSUB, R212. -/
  | fnmsub (c : BitVec 5) (t : FTyp) (b : BitVec 5) (a : BitVec 5) (d : BitVec 5)
  /-- FNMADD, R212. -/
  | fnmadd (c : BitVec 5) (t : FTyp) (b : BitVec 5) (a : BitVec 5) (d : BitVec 5)
  /-- CMPEQ, R213. -/
  | cmpeq (u : Bool) (w : Width) (b : BitVec 5) (a : BitVec 5) (d : BitVec 3)
  /-- CMPNE, R213. -/
  | cmpne (u : Bool) (w : Width) (b : BitVec 5) (a : BitVec 5) (d : BitVec 3)
  /-- CMPLT, R213. -/
  | cmplt (u : Bool) (w : Width) (b : BitVec 5) (a : BitVec 5) (d : BitVec 3)
  /-- CMPGE, R213. -/
  | cmpge (u : Bool) (w : Width) (b : BitVec 5) (a : BitVec 5) (d : BitVec 3)
  /-- FCMPEQ, R214. -/
  | fcmpeq (t : FTyp) (b : BitVec 5) (a : BitVec 5) (d : BitVec 3)
  /-- FCMPNE, R214. -/
  | fcmpne (t : FTyp) (b : BitVec 5) (a : BitVec 5) (d : BitVec 3)
  /-- FCMPLT, R214. -/
  | fcmplt (t : FTyp) (b : BitVec 5) (a : BitVec 5) (d : BitVec 3)
  /-- FCMPLE, R214. -/
  | fcmple (t : FTyp) (b : BitVec 5) (a : BitVec 5) (d : BitVec 3)
  /-- FCMPUN, R214. -/
  | fcmpun (t : FTyp) (b : BitVec 5) (a : BitVec 5) (d : BitVec 3)
  /-- PAND, R213. -/
  | pand (b : BitVec 3) (a : BitVec 3) (d : BitVec 3)
  /-- POR, R213. -/
  | por (b : BitVec 3) (a : BitVec 3) (d : BitVec 3)
  /-- PXOR, R213. -/
  | pxor (b : BitVec 3) (a : BitVec 3) (d : BitVec 3)
  /-- PANDN, R213. -/
  | pandn (b : BitVec 3) (a : BitVec 3) (d : BitVec 3)
  /-- PNOT, R213. -/
  | pnot (a : BitVec 3) (d : BitVec 3)
  /-- PPACK, R213. -/
  | ppack (d : BitVec 5)
  /-- PUNPACK, R213. -/
  | punpack (m : BitVec 7) (a : BitVec 5)
  /-- SEL, R213. -/
  | sel (n : BitVec 3) (b : BitVec 5) (a : BitVec 5) (d : BitVec 5)
  /-- TTEST, R213. -/
  | ttest (a : BitVec 5) (d : BitVec 3)
  /-- BEQ, R215. -/
  | beq (i : BitVec 12) (b : BitVec 5) (a : BitVec 5)
  /-- BNE, R215. -/
  | bne (i : BitVec 12) (b : BitVec 5) (a : BitVec 5)
  /-- BLT, R215. -/
  | blt (i : BitVec 12) (b : BitVec 5) (a : BitVec 5)
  /-- BGE, R215. -/
  | bge (i : BitVec 12) (b : BitVec 5) (a : BitVec 5)
  /-- BLTU, R215. -/
  | bltu (i : BitVec 12) (b : BitVec 5) (a : BitVec 5)
  /-- BGEU, R215. -/
  | bgeu (i : BitVec 12) (b : BitVec 5) (a : BitVec 5)
  /-- BP, R215. -/
  | bp (i : BitVec 12) (a : BitVec 3)
  /-- BNP, R215. -/
  | bnp (i : BitVec 12) (a : BitVec 3)
  /-- JAL, R216. -/
  | jal (i : BitVec 20) (d : BitVec 5)
  /-- JALR, R216. -/
  | jalr (i : BitVec 12) (a : BitVec 5) (d : BitVec 5)
  /-- SVC, R220. -/
  | svc (i : BitVec 12)
  /-- CSRRW, R219. -/
  | csrrw (c : BitVec 12) (a : BitVec 5) (d : BitVec 5)
  /-- CSRRS, R219. -/
  | csrrs (c : BitVec 12) (a : BitVec 5) (d : BitVec 5)
  /-- CSRRC, R219. -/
  | csrrc (c : BitVec 12) (a : BitVec 5) (d : BitVec 5)
  /-- BRK, R221. -/
  | brk (i : BitVec 12)
  /-- FRAME, R222. -/
  | frame (i : BitVec 12) (d : BitVec 5)
  /-- TRET, R345. -/
  | tret
  /-- WAITI, R344. -/
  | waiti
  /-- SMC, R344. -/
  | smc
  /-- FMTP, R187. -/
  | fmtp (a : Option Fmt) (b : Option Fmt) (d : Option Fmt) (r : Option RMode) (s : Option Bool)
  /-- WAIT, R191. -/
  | wait (l : BitVec 5) (s : BitVec 5) (c : BitVec 5) (m : BitVec 5) (v : BitVec 5)
  /-- LD, R232. -/
  | ld (i : BitVec 12) (a : BitVec 5) (t : LdTyp) (d : BitVec 5)
  /-- ST, R233. -/
  | st (i : BitVec 12) (b : BitVec 5) (a : BitVec 5) (t : StTyp)
  /-- LDL, R234. -/
  | ldl (i : BitVec 12) (a : BitVec 5) (t : LdTyp) (d : BitVec 5)
  /-- STL, R234. -/
  | stl (i : BitVec 12) (b : BitVec 5) (a : BitVec 5) (t : StTyp)
  /-- LDFT_N32, R235. -/
  | ldftN32 (o : BitVec 8) (a : BitVec 5) (d : BitVec 5)
  /-- LDFT_I32, R235. -/
  | ldftI32 (o : BitVec 8) (a : BitVec 5) (d : BitVec 5)
  /-- LDFT_N64, R235. -/
  | ldftN64 (o : BitVec 8) (a : BitVec 5) (d : BitVec 5)
  /-- LDFP_N32, R235. -/
  | ldfpN32 (o : BitVec 8) (a : BitVec 5) (d : BitVec 5)
  /-- LDFP_I32, R235. -/
  | ldfpI32 (o : BitVec 8) (a : BitVec 5) (d : BitVec 5)
  /-- LDFP_N64, R235. -/
  | ldfpN64 (o : BitVec 8) (a : BitVec 5) (d : BitVec 5)
  /-- BLD_POINTER, R236. -/
  | bldPointer (g : Bool) (l : BitVec 5) (d : BitVec 5)
  /-- BLD_REGISTER, R236. -/
  | bldRegister (g : Bool) (l : BitVec 5) (a : BitVec 5) (d : BitVec 5)
  /-- STFP_N32, R235. -/
  | stfpN32 (o : BitVec 10) (b : BitVec 5) (a : BitVec 5)
  /-- STFP_N64, R235. -/
  | stfpN64 (o : BitVec 10) (b : BitVec 5) (a : BitVec 5)
  /-- STFF_N32, R235. -/
  | stffN32 (o : BitVec 10) (b : BitVec 5) (a : BitVec 5)
  /-- STFF_N64, R235. -/
  | stffN64 (o : BitVec 10) (b : BitVec 5) (a : BitVec 5)
  /-- MKE_N32, R235. -/
  | mkeN32 (o : BitVec 10) (a : BitVec 5)
  /-- MKE_N64, R235. -/
  | mkeN64 (o : BitVec 10) (a : BitVec 5)
  /-- BST_POINTER, R236. -/
  | bstPointer (b : BitVec 5) (l : BitVec 5)
  /-- BST_REGISTER, R236. -/
  | bstRegister (b : BitVec 5) (a : BitVec 5) (l : BitVec 5)
  /-- FENCE_REL, R237. -/
  | fenceRel (s : Scope)
  /-- FENCE_ACQ, R237. -/
  | fenceAcq (s : Scope)
  /-- FENCE_FULL, R237. -/
  | fenceFull (s : Scope)
  /-- AMSWAP, R238. -/
  | amswap (f : AmForm) (b : BitVec 5) (a : BitVec 5) (t : AmTyp) (d : BitVec 5)
  /-- AMCAS, R238. -/
  | amcas (f : AmForm) (b : BitVec 5) (a : BitVec 5) (t : AmTyp) (d : BitVec 5)
  /-- AMADD, R238. -/
  | amadd (f : AmForm) (b : BitVec 5) (a : BitVec 5) (t : AmTyp) (d : BitVec 5)
  /-- AMMIN, R238. -/
  | ammin (f : AmForm) (b : BitVec 5) (a : BitVec 5) (t : AmTyp) (d : BitVec 5)
  /-- AMMAX, R238. -/
  | ammax (f : AmForm) (b : BitVec 5) (a : BitVec 5) (t : AmTyp) (d : BitVec 5)
  /-- AMAND, R238. -/
  | amand (f : AmForm) (b : BitVec 5) (a : BitVec 5) (t : AmTyp) (d : BitVec 5)
  /-- AMOR, R238. -/
  | amor (f : AmForm) (b : BitVec 5) (a : BitVec 5) (t : AmTyp) (d : BitVec 5)
  /-- AMXOR, R238. -/
  | amxor (f : AmForm) (b : BitVec 5) (a : BitVec 5) (t : AmTyp) (d : BitVec 5)
  /-- LDSC, R238. -/
  | ldsc (b : BitVec 5) (a : BitVec 5) (t : AmTyp) (d : BitVec 5)
  /-- STSC, R238. -/
  | stsc (b : BitVec 5) (a : BitVec 5) (t : AmTyp) (d : BitVec 5)
  /-- VSTORE, R244. -/
  | vstore (b : BitVec 5) (a : BitVec 5) (d : BitVec 5)
  /-- VOPEN, R244. -/
  | vopen (b : BitVec 5) (a : BitVec 5)
  /-- VPUT, R244. -/
  | vput (b : BitVec 5) (a : BitVec 5) (p : BitVec 3) (d : BitVec 5)
  /-- VSEAL, R244. -/
  | vseal (b : BitVec 5) (a : BitVec 5)
  /-- VGET, R245. -/
  | vget (b : BitVec 5) (a : BitVec 5) (d : BitVec 5)
  /-- VRETAIN, R245. -/
  | vretain (b : BitVec 5) (a : BitVec 5)
  /-- VRELEASE, R245. -/
  | vrelease (b : BitVec 5) (a : BitVec 5)
  /-- VDROP, R245. -/
  | vdrop (b : BitVec 5) (a : BitVec 5)
  /-- VQUERY, R246. -/
  | vquery (b : BitVec 5) (a : BitVec 5) (d : BitVec 5)
  /-- CPG, R248. -/
  | cpg (b : BitVec 5) (a : BitVec 5) (d : BitVec 5)
  /-- CPL, R248. -/
  | cpl (b : BitVec 5) (a : BitVec 5) (d : BitVec 5)
  /-- CPM, R250. -/
  | cpm (b : BitVec 5) (a : BitVec 5) (d : BitVec 5)
  /-- RLD, R253. -/
  | rld (a : BitVec 5) (t : LdTyp) (d : BitVec 5)
  /-- RST, R253. -/
  | rst (b : BitVec 5) (a : BitVec 5) (t : StTyp)
  /-- RSTF, R253. -/
  | rstf (b : BitVec 5) (a : BitVec 5) (w : Bool)
  /-- BARM, R254. -/
  | barm (b : BitVec 5) (a : BitVec 5)
  /-- BARR, R254. -/
  | barr (b : BitVec 5) (a : BitVec 5)
  /-- BWAIT, R254. -/
  | bwait (b : BitVec 5) (a : BitVec 5)
  /-- RARR, R253. -/
  | rarr (b : BitVec 5) (a : BitVec 5)
  /-- RAMSWAP, R253. -/
  | ramswap (b : BitVec 5) (a : BitVec 5) (t : RmTyp) (d : BitVec 5)
  /-- RAMADD, R253. -/
  | ramadd (b : BitVec 5) (a : BitVec 5) (t : RmTyp) (d : BitVec 5)
  /-- RAMAND, R253. -/
  | ramand (b : BitVec 5) (a : BitVec 5) (t : RmTyp) (d : BitVec 5)
  /-- RAMOR, R253. -/
  | ramor (b : BitVec 5) (a : BitVec 5) (t : RmTyp) (d : BitVec 5)
  /-- RAMXOR, R253. -/
  | ramxor (b : BitVec 5) (a : BitVec 5) (t : RmTyp) (d : BitVec 5)
  /-- RAMMIN, R253. -/
  | rammin (b : BitVec 5) (a : BitVec 5) (t : RmTyp) (d : BitVec 5)
  /-- RAMMAX, R253. -/
  | rammax (b : BitVec 5) (a : BitVec 5) (t : RmTyp) (d : BitVec 5)
  /-- RBST, R253. -/
  | rbst (l : BitVec 5) (b : BitVec 5) (a : BitVec 5)
  /-- SPAWN, R303. -/
  | spawn (b : BitVec 5) (a : BitVec 5) (d : BitVec 5)
  /-- JOIN, R304. -/
  | join (a : BitVec 5) (d : BitVec 5)
  /-- TEND, R306. -/
  | tend
  /-- YIELD, R307. -/
  | yield
  /-- MSEND, R311. -/
  | msend (b : BitVec 5) (a : BitVec 5)
  /-- AMSG, R311. -/
  | amsg (b : BitVec 5) (a : BitVec 5) (d : BitVec 5)
  /-- MRECV, R312. -/
  | mrecv (a : BitVec 5) (d : BitVec 5)
  /-- WAITMSG, R313. -/
  | waitmsg (d : BitVec 5)
  /-- SLAUNCH, R318. -/
  | slaunch (a : BitVec 5) (d : BitVec 5)
  /-- SSYNC, R319. -/
  | ssync
  /-- SRFENCE, R319. -/
  | srfence (b : BitVec 5) (a : BitVec 5)
  /-- SBIND, R320. -/
  | sbind (b : BitVec 5) (a : BitVec 5)
  /-- SNAME, R321. -/
  | sname (a : BitVec 5) (d : BitVec 5)
  /-- SSTAT, R322. -/
  | sstat (d : BitVec 5)
  /-- SVEC, R323. -/
  | svec (b : BitVec 5) (a : BitVec 5)
  /-- SRESUME, R324. -/
  | sresume (a : BitVec 5)
  /-- SABANDON, R324. -/
  | sabandon (a : BitVec 5)
  deriving DecidableEq, Repr

end Sys2Proof
end

