-- ==== Sys2Proof/WellFormed.lean ====
section
/-! DEFINITION. Which operands an instruction accepts beyond what its fields can hold: step 7 of R182 and the ILLEGAL rules of
the instruction chapters that depend on the word alone. A word whose fields fail a check is not an instruction. -/

namespace Sys2Proof

/-- A floating code of R149: 0–7, 16 or 23. -/
def Fmt.isFloat : Fmt → Bool
  | .f32 | .bf16 | .f16 | .e5m2 | .e4m3 | .e3m2 | .e2m3 | .e2m1 | .f64 | .e8m0 => true
  | .i8 | .n8 | .i4 | .n4 | .i16 | .n16 | .i32 | .n32 | .i64 | .n64 => false

/-- The width in bits of an element of a format (R149, R153). -/
def Fmt.width : Fmt → Nat
  | .f64 | .i64 | .n64 => 64
  | .f32 | .i32 | .n32 => 32
  | .bf16 | .f16 | .i16 | .n16 => 16
  | .e5m2 | .e4m3 | .i8 | .n8 | .e8m0 => 8
  | .e3m2 | .e2m3 => 6
  | .e2m1 | .i4 | .n4 => 4

/-- The element width in bits (R180). -/
def VWidth.bits : VWidth → Nat
  | .w32 => 32 | .w16 => 16 | .w8 => 8 | .w4 => 4 | .w6 => 6 | .w64 => 64

/-- The target formats of VQNT and source formats of VDQNT (R273, R274). -/
def Fmt.quantised : Fmt → Bool
  | .e5m2 | .e4m3 | .e3m2 | .e2m3 | .e2m1 | .i8 | .n8 | .i4 | .n4 => true
  | _ => false

/-- The formats of reductions and scans at a width (R277): FP32, BF16, FP16, FP64, or an integer code of that width. -/
def Fmt.reducible (b : Fmt) (w : VWidth) : Bool :=
  b.width == w.bits && (match b with | .f32 | .bf16 | .f16 | .f64 => true | _ => !b.isFloat)

/-- An integer type of an atomic (R238). -/
def AmTyp.isInt : AmTyp → Bool
  | .i32 | .n32 | .i64 | .n64 => true
  | .f32 | .f64 | .bf16 | .f16 => false

/-- The operand classes of matrix formats (R284): W, H, E, Q6, Q4. -/
inductive MClass where
  | w | h | e | q6 | q4
  deriving DecidableEq, Repr

/-- The class of a matrix format (R284). -/
def MFmt.cls : MFmt → MClass
  | .f32 => .w
  | .bf16 | .f16 => .h
  | .e5m2 | .e4m3 | .i8 | .n8 => .e
  | .e3m2 | .e2m3 => .q6
  | .e2m1 | .i4 | .n4 => .q4

/-- The source accumulators of a chained A (R294): none where the field is not allowed for the class. -/
def MFmt.sources (f : MFmt) (a : BitVec 5) : Option (List Nat) :=
  let j := (a.extractLsb' 0 3).toNat
  let q := a.extractLsb' 3 2
  match f.cls with
  | .w => some [j]
  | .h => if q = 0 then some [j] else none
  | .e => if q = 0 ∧ j % 2 = 0 then some [j, j + 1] else none
  | .q6 | .q4 => if q = 0 ∧ (j = 0 ∨ j = 4) then some [j, j + 1, j + 2, j + 3] else none

/-- The source rule of a multiplication: a chained A names allowed accumulators, none of which is the destination (R294). -/
def chainOk (s : Bool) (a : BitVec 5) (c : BitVec 3) (f : MFmt) : Bool :=
  !s || (match f.sources a with
    | some l => !l.contains c.toNat
    | none => false)

/-- A masked instruction may not write v15 (R260). -/
def maskOk (m : Bool) (d : BitVec 5) : Bool := !(m && d == 15)

/-- A bit field [p + l, p] with l + 1 bits lies in a doubleword (R204). -/
def fieldOk (p l : BitVec 6) : Bool := p.toNat + l.toNat + 1 ≤ 64

/-- An even register number. -/
def even (r : BitVec 5) : Bool := r.extractLsb' 0 1 == 0

/-- The forms and destination an atomic accepts (R238): `all`: every form, otherwise relaxed and SC, and the deterministic form
where `det`; `.d` and `.r` need d = 0. -/
def amoOk (all det : Bool) (f : AmForm) (d : BitVec 5) : Bool :=
  match f with
  | .relaxed | .sc => true
  | .d => (all || det) && d == 0
  | .r => all && d == 0

/-- The checks of each instruction that its fields do not make by themselves. -/
def Instr.wf : Instr → Bool
  | .bfxN p l _ _ | .bfxI p l _ _ | .bfi p l _ _ => fieldOk p l
  | .fcvtFloatToFloat _ b _ _ => b.isFloat
  | .fcvtFloatToInteger _ b _ _ | .fcvtIntegerToFloat _ b _ _ => !b.isFloat
  | .frame _ d => d != 2
  | .amswap f _ _ _ d => amoOk false false f d
  | .amcas f _ _ t d => t.isInt && amoOk false false f d
  | .amadd f _ _ _ d | .ammin f _ _ _ d | .ammax f _ _ _ d => amoOk true true f d
  | .amand f _ _ t d | .amor f _ _ t d | .amxor f _ _ t d => t.isInt && amoOk false true f d
  | .ldsc b _ _ _ => b == 0
  | .stsc _ _ _ d => d == 0
  | .msend _ a | .amsg _ a _ => even a
  | .mrecv _ d => even d
  | .vldl m _ _ d | .vld m _ _ d | .vldls m _ _ _ d => maskOk m d
  | .vadd _ m _ _ _ d | .vsub _ m _ _ _ d | .vmul _ m _ _ _ d | .vmulh _ m _ _ _ d | .vmin _ m _ _ _ d
  | .vmax _ m _ _ _ d | .vand _ m _ _ _ d | .vor _ m _ _ _ d | .vxor _ m _ _ _ d | .vshl _ m _ _ _ d
  | .vshr _ m _ _ _ d | .vadds _ m _ _ _ d | .vsubs _ m _ _ _ d | .vcmpeq _ m _ _ _ d | .vcmplt _ m _ _ _ d
  | .vcmple _ m _ _ _ d => maskOk m d
  | .vfadd _ m _ _ d | .vfsub _ m _ _ d | .vfmul _ m _ _ d | .vfdiv _ m _ _ d | .vfmin _ m _ _ d | .vfmax _ m _ _ d
  | .vfma _ m _ _ d | .vfnma _ m _ _ d | .vfcmpun _ m _ _ d | .vfsqrt _ m _ d | .vfsgnj _ m _ _ d
  | .vfsgnjn _ m _ _ d | .vfsgnjx _ m _ _ d | .vfcmpeq _ m _ _ d | .vfcmplt _ m _ _ d | .vfcmple _ m _ _ d =>
    maskOk m d
  | .vcvtF m _ a _ d => maskOk m d && a != d
  | .vcvtI m _ a w d => maskOk m d && a != d && w != .w6
  | .vqnt32 m b _ d | .vqnt128 m b _ d | .vqnt256 m b _ d => maskOk m (d + 1) && even d && b.quantised
  | .vdqnt32 m b a d | .vdqnt128 m b a d | .vdqnt256 m b a d => maskOk m d && even a && b.quantised
  | .vexp2 m _ _ d | .vlog2 m _ _ d | .vrcp m _ _ d | .vrsqrt m _ _ d | .vclz m _ _ d | .vctz m _ _ d | .vffs m _ _ d
  | .vpopc m _ _ d | .vbcast m _ _ d | .vins m _ _ _ d | .viota m _ d | .vmv m _ _ d => maskOk m d
  | .vperm m _ a _ d | .vslup m _ a _ d | .vsldn m _ a _ d => maskOk m d && a != d
  | .vrsum m b _ w d | .vrmax m b _ w d | .vrmin m b _ w d | .vscan m b _ w d => maskOk m d && b.reducible w
  | .vpmrg _ a d => even a && even d && (a.extractLsb' 4 1 == d.extractLsb' 4 1)
  | .mxmul s _ a _ c f | .mxmulz s _ a _ c f => chainOk s a c f
  | .mxst s _ _ _ f => !s || (match f.cls with | .e | .q6 | .q4 => true | .w | .h => false)
  | _ => true

end Sys2Proof
end

