-- ==== Sys2Proof/Decode.lean ====
section
/-! DEFINITION. Decoding (R177 to R188) and encoding. A word is cut into the six fields of the R format (R179), which the other
formats join or divide; each major (R181) has one decoder over them. Decoding is total: a word that is not an instruction
gives none. The decoders are marked noncomputable only because the compiled form of an inductive type holds at most 244
constructors with fields, fewer than the table has rows; the kernel evaluates them. The encoder is written from the same encodings, and gives none for a step without a word. -/

namespace Sys2Proof

/-- The code of a Width in its field. -/
def Width.code : Width → Nat
  | .w64 => 0
  | .w32 => 1
  | .w16 => 2
  | .w8 => 3

/-- The Width that a code names, if any. -/
def Width.ofCode : Nat → Option Width
  | 0 => some .w64
  | 1 => some .w32
  | 2 => some .w16
  | 3 => some .w8
  | _ => none

/-- The code of a NWidth in its field. -/
def NWidth.code : NWidth → Nat
  | .w32 => 1
  | .w16 => 2
  | .w8 => 3

/-- The NWidth that a code names, if any. -/
def NWidth.ofCode : Nat → Option NWidth
  | 1 => some .w32
  | 2 => some .w16
  | 3 => some .w8
  | _ => none

/-- The code of a FTyp in its field. -/
def FTyp.code : FTyp → Nat
  | .f32 => 0
  | .bf16 => 1
  | .f16 => 2
  | .f64 => 3

/-- The FTyp that a code names, if any. -/
def FTyp.ofCode : Nat → Option FTyp
  | 0 => some .f32
  | 1 => some .bf16
  | 2 => some .f16
  | 3 => some .f64
  | _ => none

/-- The code of a VWidth in its field. -/
def VWidth.code : VWidth → Nat
  | .w32 => 0
  | .w16 => 1
  | .w8 => 2
  | .w4 => 3
  | .w6 => 4
  | .w64 => 5

/-- The VWidth that a code names, if any. -/
def VWidth.ofCode : Nat → Option VWidth
  | 0 => some .w32
  | 1 => some .w16
  | 2 => some .w8
  | 3 => some .w4
  | 4 => some .w6
  | 5 => some .w64
  | _ => none

/-- The code of a VIWidth in its field. -/
def VIWidth.code : VIWidth → Nat
  | .w32 => 0
  | .w16 => 1
  | .w8 => 2
  | .w64 => 5

/-- The VIWidth that a code names, if any. -/
def VIWidth.ofCode : Nat → Option VIWidth
  | 0 => some .w32
  | 1 => some .w16
  | 2 => some .w8
  | 5 => some .w64
  | _ => none

/-- The code of a VCWidth in its field. -/
def VCWidth.code : VCWidth → Nat
  | .w32 => 0
  | .w16 => 1
  | .w8 => 2
  | .w4 => 3
  | .w64 => 5

/-- The VCWidth that a code names, if any. -/
def VCWidth.ofCode : Nat → Option VCWidth
  | 0 => some .w32
  | 1 => some .w16
  | 2 => some .w8
  | 3 => some .w4
  | 5 => some .w64
  | _ => none

/-- The code of a VSWidth in its field. -/
def VSWidth.code : VSWidth → Nat
  | .w32 => 0
  | .w16 => 1
  | .w64 => 5

/-- The VSWidth that a code names, if any. -/
def VSWidth.ofCode : Nat → Option VSWidth
  | 0 => some .w32
  | 1 => some .w16
  | 5 => some .w64
  | _ => none

/-- The code of a VFTyp in its field. -/
def VFTyp.code : VFTyp → Nat
  | .f32 => 0
  | .f16 => 1
  | .f64 => 5
  | .bf16 => 9

/-- The VFTyp that a code names, if any. -/
def VFTyp.ofCode : Nat → Option VFTyp
  | 0 => some .f32
  | 1 => some .f16
  | 5 => some .f64
  | 9 => some .bf16
  | _ => none

/-- The code of a Fmt in its field. -/
def Fmt.code : Fmt → Nat
  | .f32 => 0
  | .bf16 => 1
  | .f16 => 2
  | .e5m2 => 3
  | .e4m3 => 4
  | .e3m2 => 5
  | .e2m3 => 6
  | .e2m1 => 7
  | .i8 => 8
  | .n8 => 9
  | .i4 => 10
  | .n4 => 11
  | .f64 => 16
  | .i16 => 17
  | .n16 => 18
  | .i32 => 19
  | .n32 => 20
  | .i64 => 21
  | .n64 => 22
  | .e8m0 => 23

/-- The Fmt that a code names, if any. -/
def Fmt.ofCode : Nat → Option Fmt
  | 0 => some .f32
  | 1 => some .bf16
  | 2 => some .f16
  | 3 => some .e5m2
  | 4 => some .e4m3
  | 5 => some .e3m2
  | 6 => some .e2m3
  | 7 => some .e2m1
  | 8 => some .i8
  | 9 => some .n8
  | 10 => some .i4
  | 11 => some .n4
  | 16 => some .f64
  | 17 => some .i16
  | 18 => some .n16
  | 19 => some .i32
  | 20 => some .n32
  | 21 => some .i64
  | 22 => some .n64
  | 23 => some .e8m0
  | _ => none

/-- The code of a MFmt in its field. -/
def MFmt.code : MFmt → Nat
  | .f32 => 0
  | .bf16 => 1
  | .f16 => 2
  | .e5m2 => 3
  | .e4m3 => 4
  | .e3m2 => 5
  | .e2m3 => 6
  | .e2m1 => 7
  | .i8 => 8
  | .n8 => 9
  | .i4 => 10
  | .n4 => 11

/-- The MFmt that a code names, if any. -/
def MFmt.ofCode : Nat → Option MFmt
  | 0 => some .f32
  | 1 => some .bf16
  | 2 => some .f16
  | 3 => some .e5m2
  | 4 => some .e4m3
  | 5 => some .e3m2
  | 6 => some .e2m3
  | 7 => some .e2m1
  | 8 => some .i8
  | 9 => some .n8
  | 10 => some .i4
  | 11 => some .n4
  | _ => none

/-- The code of a RMode in its field. -/
def RMode.code : RMode → Nat
  | .rne => 0
  | .rtz => 1
  | .rdn => 2
  | .rup => 3
  | .rna => 4
  | .sr => 5

/-- The RMode that a code names, if any. -/
def RMode.ofCode : Nat → Option RMode
  | 0 => some .rne
  | 1 => some .rtz
  | 2 => some .rdn
  | 3 => some .rup
  | 4 => some .rna
  | 5 => some .sr
  | _ => none

/-- The code of a Scope in its field. -/
def Scope.code : Scope → Nat
  | .slot => 0
  | .facet => 1
  | .prism => 2
  | .die => 3
  | .device => 4
  | .domain => 5

/-- The Scope that a code names, if any. -/
def Scope.ofCode : Nat → Option Scope
  | 0 => some .slot
  | 1 => some .facet
  | 2 => some .prism
  | 3 => some .die
  | 4 => some .device
  | 5 => some .domain
  | _ => none

/-- The code of a LdTyp in its field. -/
def LdTyp.code : LdTyp → Nat
  | .i8 => 0
  | .i16 => 1
  | .i32 => 2
  | .n64 => 3
  | .n8 => 4
  | .n16 => 5
  | .n32 => 6

/-- The LdTyp that a code names, if any. -/
def LdTyp.ofCode : Nat → Option LdTyp
  | 0 => some .i8
  | 1 => some .i16
  | 2 => some .i32
  | 3 => some .n64
  | 4 => some .n8
  | 5 => some .n16
  | 6 => some .n32
  | _ => none

/-- The code of a StTyp in its field. -/
def StTyp.code : StTyp → Nat
  | .n8 => 0
  | .n16 => 1
  | .n32 => 2
  | .n64 => 3

/-- The StTyp that a code names, if any. -/
def StTyp.ofCode : Nat → Option StTyp
  | 0 => some .n8
  | 1 => some .n16
  | 2 => some .n32
  | 3 => some .n64
  | _ => none

/-- The code of a AmTyp in its field. -/
def AmTyp.code : AmTyp → Nat
  | .i32 => 0
  | .n32 => 1
  | .i64 => 2
  | .n64 => 3
  | .f32 => 4
  | .f64 => 5
  | .bf16 => 6
  | .f16 => 7

/-- The AmTyp that a code names, if any. -/
def AmTyp.ofCode : Nat → Option AmTyp
  | 0 => some .i32
  | 1 => some .n32
  | 2 => some .i64
  | 3 => some .n64
  | 4 => some .f32
  | 5 => some .f64
  | 6 => some .bf16
  | 7 => some .f16
  | _ => none

/-- The code of a RmTyp in its field. -/
def RmTyp.code : RmTyp → Nat
  | .i32 => 0
  | .n32 => 1
  | .i64 => 2
  | .n64 => 3

/-- The RmTyp that a code names, if any. -/
def RmTyp.ofCode : Nat → Option RmTyp
  | 0 => some .i32
  | 1 => some .n32
  | 2 => some .i64
  | 3 => some .n64
  | _ => none

/-- The code of a AmForm in its field. -/
def AmForm.code : AmForm → Nat
  | .relaxed => 0
  | .d => 1
  | .r => 2
  | .sc => 3

/-- The AmForm that a code names, if any. -/
def AmForm.ofCode : Nat → Option AmForm
  | 0 => some .relaxed
  | 1 => some .d
  | 2 => some .r
  | 3 => some .sc
  | _ => none

/-- The code of a FeTyp in its field. -/
def FeTyp.code : FeTyp → Nat
  | .n32 => 0
  | .i32 => 1
  | .n64 => 2

/-- The FeTyp that a code names, if any. -/
def FeTyp.ofCode : Nat → Option FeTyp
  | 0 => some .n32
  | 1 => some .i32
  | 2 => some .n64
  | _ => none

/-- A pending format of FMTP (R187): 31 is not specified. -/
def pfmtOf (c : BitVec 5) : Option (Option Fmt) := if c = 31 then some none else (Fmt.ofCode c.toNat).map some

/-- The field of a pending format. -/
def pfmtCode : Option Fmt → BitVec 5
  | none => 31
  | some f => BitVec.ofNat 5 f.code

/-- A pending rounding mode of FMTP (R187): 7 is not specified. -/
def prmOf (c : BitVec 3) : Option (Option RMode) := if c = 7 then some none else (RMode.ofCode c.toNat).map some

/-- The field of a pending rounding mode. -/
def prmCode : Option RMode → BitVec 3
  | none => 7
  | some m => BitVec.ofNat 3 m.code

/-- A pending saturation of FMTP (R187): 0 not specified, 1 off, 2 on. -/
def psatOf (c : BitVec 2) : Option (Option Bool) :=
  if c = 0 then some none else if c = 1 then some (some false) else if c = 2 then some (some true) else none

/-- The field of a pending saturation. -/
def psatCode : Option Bool → BitVec 2
  | none => 0
  | some false => 1
  | some true => 2

/-- A predicate field holds 0 to 7 (R183). -/
def predOf (r : BitVec 5) : Option (BitVec 3) := if r.extractLsb' 3 2 = 0#2 then some (r.extractLsb' 0 3) else none

/-- A bit as a Boolean. -/
def flag (v : BitVec 1) : Bool := v == 1#1

/-- Major 0x03 (R181). -/
noncomputable def decodeLd (h7 : BitVec 7) (rb ra : BitVec 5) (f3 : BitVec 3) (rd : BitVec 5) : Option Instr :=
  (LdTyp.ofCode f3.toNat).bind fun v0 => some (.ld (h7 ++ rb) ra v0 rd)

/-- Major 0x07 (R181). -/
noncomputable def decodeLdl (h7 : BitVec 7) (rb ra : BitVec 5) (f3 : BitVec 3) (rd : BitVec 5) : Option Instr :=
  if f3 = 7#3 ∧ (h7.extractLsb' 1 6) = 24#6 ∧ ra = 0#5 then some (.bldPointer (flag (h7.extractLsb' 0 1)) rb rd) else
  if f3 = 7#3 ∧ (h7.extractLsb' 1 6) = 28#6 then some (.bldRegister (flag (h7.extractLsb' 0 1)) rb ra rd) else
  if f3 = 7#3 ∧ (h7.extractLsb' 3 4) = 0#4 then some (.ldftN32 (h7.extractLsb' 0 3 ++ rb) ra rd) else
  if f3 = 7#3 ∧ (h7.extractLsb' 3 4) = 1#4 then some (.ldftI32 (h7.extractLsb' 0 3 ++ rb) ra rd) else
  if f3 = 7#3 ∧ (h7.extractLsb' 3 4) = 2#4 then some (.ldftN64 (h7.extractLsb' 0 3 ++ rb) ra rd) else
  if f3 = 7#3 ∧ (h7.extractLsb' 3 4) = 3#4 then some (.ldfpN32 (h7.extractLsb' 0 3 ++ rb) ra rd) else
  if f3 = 7#3 ∧ (h7.extractLsb' 3 4) = 4#4 then some (.ldfpI32 (h7.extractLsb' 0 3 ++ rb) ra rd) else
  if f3 = 7#3 ∧ (h7.extractLsb' 3 4) = 5#4 then some (.ldfpN64 (h7.extractLsb' 0 3 ++ rb) ra rd) else
  (LdTyp.ofCode f3.toNat).bind fun v0 => some (.ldl (h7 ++ rb) ra v0 rd)

/-- Major 0x0B (R181). -/
noncomputable def decodeVmem (h7 : BitVec 7) (rb ra : BitVec 5) (f3 : BitVec 3) (rd : BitVec 5) : Option Instr :=
  if (h7.extractLsb' 1 6) = 0#6 ∧ rb = 0#5 then (VWidth.ofCode f3.toNat).bind fun v0 => some (.vldl (flag (h7.extractLsb' 0 1)) ra v0 rd) else
  if (h7.extractLsb' 1 6) = 1#6 ∧ rb = 0#5 then (VWidth.ofCode f3.toNat).bind fun v0 => some (.vstl (flag (h7.extractLsb' 0 1)) ra v0 rd) else
  if (h7.extractLsb' 1 6) = 2#6 then (VIWidth.ofCode f3.toNat).bind fun v0 => some (.vldls (flag (h7.extractLsb' 0 1)) rb ra v0 rd) else
  if (h7.extractLsb' 1 6) = 3#6 then (VIWidth.ofCode f3.toNat).bind fun v0 => some (.vstls (flag (h7.extractLsb' 0 1)) rb ra v0 rd) else
  if (h7.extractLsb' 1 6) = 4#6 ∧ rb = 0#5 then (VWidth.ofCode f3.toNat).bind fun v0 => some (.vld (flag (h7.extractLsb' 0 1)) ra v0 rd) else
  if (h7.extractLsb' 1 6) = 5#6 ∧ rb = 0#5 then (VWidth.ofCode f3.toNat).bind fun v0 => some (.vst (flag (h7.extractLsb' 0 1)) ra v0 rd) else
  none

/-- Major 0x0F (R181). -/
noncomputable def decodeFence (h7 : BitVec 7) (rb ra : BitVec 5) (f3 : BitVec 3) (rd : BitVec 5) : Option Instr :=
  if f3 = 0#3 ∧ h7 = 0#7 ∧ (rb.extractLsb' 3 2) = 0#2 ∧ ra = 0#5 ∧ rd = 0#5 then (Scope.ofCode (rb.extractLsb' 0 3).toNat).bind fun v0 => some (.fenceRel v0) else
  if f3 = 1#3 ∧ h7 = 0#7 ∧ (rb.extractLsb' 3 2) = 0#2 ∧ ra = 0#5 ∧ rd = 0#5 then (Scope.ofCode (rb.extractLsb' 0 3).toNat).bind fun v0 => some (.fenceAcq v0) else
  if f3 = 2#3 ∧ h7 = 0#7 ∧ (rb.extractLsb' 3 2) = 0#2 ∧ ra = 0#5 ∧ rd = 0#5 then (Scope.ofCode (rb.extractLsb' 0 3).toNat).bind fun v0 => some (.fenceFull v0) else
  none

/-- Major 0x13 (R181). -/
noncomputable def decodeOpi (h7 : BitVec 7) (rb ra : BitVec 5) (f3 : BitVec 3) (rd : BitVec 5) : Option Instr :=
  if f3 = 0#3 then some (.addi (h7 ++ rb) ra rd) else
  if f3 = 1#3 ∧ (h7.extractLsb' 1 6) = 0#6 then some (.shli (h7.extractLsb' 0 1 ++ rb) ra rd) else
  if f3 = 1#3 ∧ (h7.extractLsb' 1 6) = 1#6 then some (.shriN (h7.extractLsb' 0 1 ++ rb) ra rd) else
  if f3 = 1#3 ∧ (h7.extractLsb' 1 6) = 2#6 then some (.shriI (h7.extractLsb' 0 1 ++ rb) ra rd) else
  if f3 = 1#3 ∧ (h7.extractLsb' 1 6) = 3#6 then some (.roli (h7.extractLsb' 0 1 ++ rb) ra rd) else
  if f3 = 1#3 ∧ (h7.extractLsb' 1 6) = 4#6 then some (.rori (h7.extractLsb' 0 1 ++ rb) ra rd) else
  if f3 = 2#3 then some (.bfxN (h7.extractLsb' 1 6) (h7.extractLsb' 0 1 ++ rb) ra rd) else
  if f3 = 3#3 then some (.bfxI (h7.extractLsb' 1 6) (h7.extractLsb' 0 1 ++ rb) ra rd) else
  if f3 = 4#3 then some (.xori (h7 ++ rb) ra rd) else
  if f3 = 5#3 then some (.bfi (h7.extractLsb' 1 6) (h7.extractLsb' 0 1 ++ rb) ra rd) else
  if f3 = 6#3 then some (.ori (h7 ++ rb) ra rd) else
  if f3 = 7#3 then some (.andi (h7 ++ rb) ra rd) else
  none

/-- Major 0x17 (R181). -/
noncomputable def decodePcadd (h7 : BitVec 7) (rb ra : BitVec 5) (f3 : BitVec 3) (rd : BitVec 5) : Option Instr :=
  some (.pcadd (h7 ++ rb ++ ra ++ f3) rd)

/-- Major 0x1B (R181). -/
noncomputable def decodeOpiw (h7 : BitVec 7) (rb ra : BitVec 5) (f3 : BitVec 3) (rd : BitVec 5) : Option Instr :=
  (NWidth.ofCode (f3.extractLsb' 0 2).toNat).bind fun v0 => some (.addiW (h7 ++ rb) ra (flag (f3.extractLsb' 2 1)) v0 rd)

/-- Major 0x1F (R181). -/
noncomputable def decodeFmtp (h7 : BitVec 7) (rb ra : BitVec 5) (f3 : BitVec 3) (rd : BitVec 5) : Option Instr :=
  if rd = 0#5 then (pfmtOf (h7.extractLsb' 2 5)).bind fun v0 => (pfmtOf (h7.extractLsb' 0 2 ++ rb.extractLsb' 2 3)).bind fun v1 => (pfmtOf (rb.extractLsb' 0 2 ++ ra.extractLsb' 2 3)).bind fun v2 => (prmOf (ra.extractLsb' 0 2 ++ f3.extractLsb' 2 1)).bind fun v3 => (psatOf (f3.extractLsb' 0 2)).bind fun v4 => some (.fmtp v0 v1 v2 v3 v4) else
  none

/-- Major 0x23 (R181). -/
noncomputable def decodeSt (h7 : BitVec 7) (rb ra : BitVec 5) (f3 : BitVec 3) (rd : BitVec 5) : Option Instr :=
  if (f3.extractLsb' 2 1) = 0#1 then (StTyp.ofCode (f3.extractLsb' 0 2).toNat).bind fun v0 => some (.st (h7 ++ rd) rb ra v0) else
  none

/-- Major 0x27 (R181). -/
noncomputable def decodeStl (h7 : BitVec 7) (rb ra : BitVec 5) (f3 : BitVec 3) (rd : BitVec 5) : Option Instr :=
  if (f3.extractLsb' 2 1) = 0#1 then (StTyp.ofCode (f3.extractLsb' 0 2).toNat).bind fun v0 => some (.stl (h7 ++ rd) rb ra v0) else
  if f3 = 4#3 ∧ (h7.extractLsb' 5 2) = 0#2 then some (.stfpN32 ((h7.extractLsb' 0 5) ++ rd) rb ra) else
  if f3 = 4#3 ∧ (h7.extractLsb' 5 2) = 1#2 then some (.stfpN64 ((h7.extractLsb' 0 5) ++ rd) rb ra) else
  if f3 = 4#3 ∧ (h7.extractLsb' 5 2) = 2#2 then some (.stffN32 ((h7.extractLsb' 0 5) ++ rd) rb ra) else
  if f3 = 4#3 ∧ (h7.extractLsb' 5 2) = 3#2 then some (.stffN64 ((h7.extractLsb' 0 5) ++ rd) rb ra) else
  if f3 = 5#3 ∧ (h7.extractLsb' 5 2) = 0#2 ∧ rb = 0#5 then some (.mkeN32 ((h7.extractLsb' 0 5) ++ rd) ra) else
  if f3 = 5#3 ∧ (h7.extractLsb' 5 2) = 1#2 ∧ rb = 0#5 then some (.mkeN64 ((h7.extractLsb' 0 5) ++ rd) ra) else
  if f3 = 6#3 ∧ h7 = 0#7 ∧ ra = 0#5 then some (.bstPointer rb rd) else
  if f3 = 6#3 ∧ h7 = 64#7 then some (.bstRegister rb ra rd) else
  none

/-- Major 0x2B (R181). -/
noncomputable def decodeAmo (h7 : BitVec 7) (rb ra : BitVec 5) (f3 : BitVec 3) (rd : BitVec 5) : Option Instr :=
  if (h7.extractLsb' 2 5) = 0#5 then (AmForm.ofCode (h7.extractLsb' 0 2).toNat).bind fun v0 => (AmTyp.ofCode f3.toNat).bind fun v1 => some (.amswap v0 rb ra v1 rd) else
  if (h7.extractLsb' 2 5) = 1#5 then (AmForm.ofCode (h7.extractLsb' 0 2).toNat).bind fun v0 => (AmTyp.ofCode f3.toNat).bind fun v1 => some (.amcas v0 rb ra v1 rd) else
  if (h7.extractLsb' 2 5) = 2#5 then (AmForm.ofCode (h7.extractLsb' 0 2).toNat).bind fun v0 => (AmTyp.ofCode f3.toNat).bind fun v1 => some (.amadd v0 rb ra v1 rd) else
  if (h7.extractLsb' 2 5) = 3#5 then (AmForm.ofCode (h7.extractLsb' 0 2).toNat).bind fun v0 => (AmTyp.ofCode f3.toNat).bind fun v1 => some (.ammin v0 rb ra v1 rd) else
  if (h7.extractLsb' 2 5) = 4#5 then (AmForm.ofCode (h7.extractLsb' 0 2).toNat).bind fun v0 => (AmTyp.ofCode f3.toNat).bind fun v1 => some (.ammax v0 rb ra v1 rd) else
  if (h7.extractLsb' 2 5) = 5#5 then (AmForm.ofCode (h7.extractLsb' 0 2).toNat).bind fun v0 => (AmTyp.ofCode f3.toNat).bind fun v1 => some (.amand v0 rb ra v1 rd) else
  if (h7.extractLsb' 2 5) = 6#5 then (AmForm.ofCode (h7.extractLsb' 0 2).toNat).bind fun v0 => (AmTyp.ofCode f3.toNat).bind fun v1 => some (.amor v0 rb ra v1 rd) else
  if (h7.extractLsb' 2 5) = 7#5 then (AmForm.ofCode (h7.extractLsb' 0 2).toNat).bind fun v0 => (AmTyp.ofCode f3.toNat).bind fun v1 => some (.amxor v0 rb ra v1 rd) else
  if h7 = 35#7 then (AmTyp.ofCode f3.toNat).bind fun v0 => some (.ldsc rb ra v0 rd) else
  if h7 = 39#7 then (AmTyp.ofCode f3.toNat).bind fun v0 => some (.stsc rb ra v0 rd) else
  none

/-- Major 0x2F (R181). -/
noncomputable def decodeVer (h7 : BitVec 7) (rb ra : BitVec 5) (f3 : BitVec 3) (rd : BitVec 5) : Option Instr :=
  if f3 = 0#3 ∧ h7 = 0#7 then some (.vstore rb ra rd) else
  if f3 = 0#3 ∧ h7 = 1#7 ∧ rd = 0#5 then some (.vopen rb ra) else
  if h7 = 2#7 then some (.vput rb ra f3 rd) else
  if f3 = 0#3 ∧ h7 = 3#7 ∧ rd = 0#5 then some (.vseal rb ra) else
  if f3 = 0#3 ∧ h7 = 4#7 then some (.vget rb ra rd) else
  if f3 = 0#3 ∧ h7 = 5#7 ∧ rd = 0#5 then some (.vretain rb ra) else
  if f3 = 0#3 ∧ h7 = 6#7 ∧ rd = 0#5 then some (.vrelease rb ra) else
  if f3 = 0#3 ∧ h7 = 7#7 ∧ rd = 0#5 then some (.vdrop rb ra) else
  if f3 = 0#3 ∧ h7 = 8#7 then some (.vquery rb ra rd) else
  none

/-- Major 0x33 (R181). -/
noncomputable def decodeOp (h7 : BitVec 7) (rb ra : BitVec 5) (f3 : BitVec 3) (rd : BitVec 5) : Option Instr :=
  if f3 = 0#3 ∧ (h7.extractLsb' 0 2) = 0#2 ∧ (h7.extractLsb' 3 4) = 0#4 then some (.add (flag (h7.extractLsb' 2 1)) rb ra rd) else
  if f3 = 0#3 ∧ (h7.extractLsb' 0 2) = 0#2 ∧ (h7.extractLsb' 3 4) = 1#4 then some (.sub (flag (h7.extractLsb' 2 1)) rb ra rd) else
  if f3 = 0#3 ∧ (h7.extractLsb' 0 2) = 0#2 ∧ (h7.extractLsb' 3 4) = 2#4 then some (.mul (flag (h7.extractLsb' 2 1)) rb ra rd) else
  if f3 = 0#3 ∧ (h7.extractLsb' 0 2) = 0#2 ∧ (h7.extractLsb' 3 4) = 3#4 then some (.mulh (flag (h7.extractLsb' 2 1)) rb ra rd) else
  if f3 = 0#3 ∧ (h7.extractLsb' 0 2) = 0#2 ∧ (h7.extractLsb' 3 4) = 4#4 then some (.addx2 (flag (h7.extractLsb' 2 1)) rb ra rd) else
  if f3 = 0#3 ∧ (h7.extractLsb' 0 2) = 0#2 ∧ (h7.extractLsb' 3 4) = 5#4 then some (.addx4 (flag (h7.extractLsb' 2 1)) rb ra rd) else
  if f3 = 0#3 ∧ (h7.extractLsb' 0 2) = 0#2 ∧ (h7.extractLsb' 3 4) = 6#4 then some (.addx8 (flag (h7.extractLsb' 2 1)) rb ra rd) else
  if f3 = 0#3 ∧ (h7.extractLsb' 0 2) = 0#2 ∧ (h7.extractLsb' 3 4) = 7#4 then some (.addx16 (flag (h7.extractLsb' 2 1)) rb ra rd) else
  if f3 = 1#3 ∧ (h7.extractLsb' 0 2) = 0#2 ∧ (h7.extractLsb' 3 4) = 0#4 then some (.shl (flag (h7.extractLsb' 2 1)) rb ra rd) else
  if f3 = 1#3 ∧ (h7.extractLsb' 0 2) = 0#2 ∧ (h7.extractLsb' 3 4) = 1#4 then some (.shr (flag (h7.extractLsb' 2 1)) rb ra rd) else
  if f3 = 1#3 ∧ (h7.extractLsb' 0 2) = 0#2 ∧ (h7.extractLsb' 3 4) = 2#4 then some (.rol (flag (h7.extractLsb' 2 1)) rb ra rd) else
  if f3 = 1#3 ∧ (h7.extractLsb' 0 2) = 0#2 ∧ (h7.extractLsb' 3 4) = 3#4 then some (.ror (flag (h7.extractLsb' 2 1)) rb ra rd) else
  if f3 = 2#3 ∧ (h7.extractLsb' 0 2) = 0#2 ∧ (h7.extractLsb' 3 4) = 0#4 then some (.min (flag (h7.extractLsb' 2 1)) rb ra rd) else
  if f3 = 2#3 ∧ (h7.extractLsb' 0 2) = 0#2 ∧ (h7.extractLsb' 3 4) = 1#4 then some (.max (flag (h7.extractLsb' 2 1)) rb ra rd) else
  if f3 = 3#3 ∧ (h7.extractLsb' 0 2) = 0#2 ∧ (h7.extractLsb' 3 4) = 0#4 then some (.div (flag (h7.extractLsb' 2 1)) rb ra rd) else
  if f3 = 3#3 ∧ (h7.extractLsb' 0 2) = 0#2 ∧ (h7.extractLsb' 3 4) = 1#4 then some (.rem (flag (h7.extractLsb' 2 1)) rb ra rd) else
  if f3 = 4#3 ∧ (h7.extractLsb' 0 2) = 0#2 ∧ (h7.extractLsb' 3 4) = 0#4 then some (.and (flag (h7.extractLsb' 2 1)) rb ra rd) else
  if f3 = 4#3 ∧ (h7.extractLsb' 0 2) = 0#2 ∧ (h7.extractLsb' 3 4) = 1#4 then some (.or (flag (h7.extractLsb' 2 1)) rb ra rd) else
  if f3 = 4#3 ∧ (h7.extractLsb' 0 2) = 0#2 ∧ (h7.extractLsb' 3 4) = 2#4 then some (.xor (flag (h7.extractLsb' 2 1)) rb ra rd) else
  if f3 = 4#3 ∧ (h7.extractLsb' 0 2) = 0#2 ∧ (h7.extractLsb' 3 4) = 3#4 then some (.andn (flag (h7.extractLsb' 2 1)) rb ra rd) else
  if f3 = 4#3 ∧ (h7.extractLsb' 0 2) = 0#2 ∧ (h7.extractLsb' 3 4) = 4#4 then some (.orn (flag (h7.extractLsb' 2 1)) rb ra rd) else
  if f3 = 4#3 ∧ (h7.extractLsb' 0 2) = 0#2 ∧ (h7.extractLsb' 3 4) = 5#4 then some (.xnor (flag (h7.extractLsb' 2 1)) rb ra rd) else
  if f3 = 5#3 ∧ (h7.extractLsb' 0 2) = 0#2 ∧ (h7.extractLsb' 3 4) = 0#4 ∧ rb = 0#5 then some (.clz (flag (h7.extractLsb' 2 1)) ra rd) else
  if f3 = 5#3 ∧ (h7.extractLsb' 0 2) = 0#2 ∧ (h7.extractLsb' 3 4) = 0#4 ∧ rb = 1#5 then some (.ctz (flag (h7.extractLsb' 2 1)) ra rd) else
  if f3 = 5#3 ∧ (h7.extractLsb' 0 2) = 0#2 ∧ (h7.extractLsb' 3 4) = 0#4 ∧ rb = 2#5 then some (.ffs (flag (h7.extractLsb' 2 1)) ra rd) else
  if f3 = 5#3 ∧ (h7.extractLsb' 0 2) = 0#2 ∧ (h7.extractLsb' 3 4) = 0#4 ∧ rb = 3#5 then some (.popc (flag (h7.extractLsb' 2 1)) ra rd) else
  if f3 = 5#3 ∧ (h7.extractLsb' 0 2) = 0#2 ∧ (h7.extractLsb' 3 4) = 0#4 ∧ rb = 4#5 then some (.brev (flag (h7.extractLsb' 2 1)) ra rd) else
  if f3 = 5#3 ∧ (h7.extractLsb' 0 2) = 0#2 ∧ (h7.extractLsb' 3 4) = 0#4 ∧ rb = 5#5 then some (.bswap (flag (h7.extractLsb' 2 1)) ra rd) else
  none

/-- Major 0x37 (R181). -/
noncomputable def decodeLim (h7 : BitVec 7) (rb ra : BitVec 5) (f3 : BitVec 3) (rd : BitVec 5) : Option Instr :=
  some (.lim (h7 ++ rb ++ ra ++ f3) rd)

/-- Major 0x3B (R181). -/
noncomputable def decodeOpw (h7 : BitVec 7) (rb ra : BitVec 5) (f3 : BitVec 3) (rd : BitVec 5) : Option Instr :=
  if f3 = 0#3 ∧ (h7.extractLsb' 3 4) = 0#4 then (NWidth.ofCode (h7.extractLsb' 0 2).toNat).bind fun v0 => some (.addW (flag (h7.extractLsb' 2 1)) v0 rb ra rd) else
  if f3 = 0#3 ∧ (h7.extractLsb' 3 4) = 1#4 then (NWidth.ofCode (h7.extractLsb' 0 2).toNat).bind fun v0 => some (.subW (flag (h7.extractLsb' 2 1)) v0 rb ra rd) else
  if f3 = 0#3 ∧ (h7.extractLsb' 3 4) = 2#4 then (NWidth.ofCode (h7.extractLsb' 0 2).toNat).bind fun v0 => some (.mulW (flag (h7.extractLsb' 2 1)) v0 rb ra rd) else
  if f3 = 0#3 ∧ (h7.extractLsb' 3 4) = 3#4 then (NWidth.ofCode (h7.extractLsb' 0 2).toNat).bind fun v0 => some (.mulhW (flag (h7.extractLsb' 2 1)) v0 rb ra rd) else
  if f3 = 0#3 ∧ (h7.extractLsb' 3 4) = 4#4 then (NWidth.ofCode (h7.extractLsb' 0 2).toNat).bind fun v0 => some (.addx2W (flag (h7.extractLsb' 2 1)) v0 rb ra rd) else
  if f3 = 0#3 ∧ (h7.extractLsb' 3 4) = 5#4 then (NWidth.ofCode (h7.extractLsb' 0 2).toNat).bind fun v0 => some (.addx4W (flag (h7.extractLsb' 2 1)) v0 rb ra rd) else
  if f3 = 0#3 ∧ (h7.extractLsb' 3 4) = 6#4 then (NWidth.ofCode (h7.extractLsb' 0 2).toNat).bind fun v0 => some (.addx8W (flag (h7.extractLsb' 2 1)) v0 rb ra rd) else
  if f3 = 0#3 ∧ (h7.extractLsb' 3 4) = 7#4 then (NWidth.ofCode (h7.extractLsb' 0 2).toNat).bind fun v0 => some (.addx16W (flag (h7.extractLsb' 2 1)) v0 rb ra rd) else
  if f3 = 1#3 ∧ (h7.extractLsb' 3 4) = 0#4 then (NWidth.ofCode (h7.extractLsb' 0 2).toNat).bind fun v0 => some (.shlW (flag (h7.extractLsb' 2 1)) v0 rb ra rd) else
  if f3 = 1#3 ∧ (h7.extractLsb' 3 4) = 1#4 then (NWidth.ofCode (h7.extractLsb' 0 2).toNat).bind fun v0 => some (.shrW (flag (h7.extractLsb' 2 1)) v0 rb ra rd) else
  if f3 = 1#3 ∧ (h7.extractLsb' 3 4) = 2#4 then (NWidth.ofCode (h7.extractLsb' 0 2).toNat).bind fun v0 => some (.rolW (flag (h7.extractLsb' 2 1)) v0 rb ra rd) else
  if f3 = 1#3 ∧ (h7.extractLsb' 3 4) = 3#4 then (NWidth.ofCode (h7.extractLsb' 0 2).toNat).bind fun v0 => some (.rorW (flag (h7.extractLsb' 2 1)) v0 rb ra rd) else
  if f3 = 2#3 ∧ (h7.extractLsb' 3 4) = 0#4 then (NWidth.ofCode (h7.extractLsb' 0 2).toNat).bind fun v0 => some (.minW (flag (h7.extractLsb' 2 1)) v0 rb ra rd) else
  if f3 = 2#3 ∧ (h7.extractLsb' 3 4) = 1#4 then (NWidth.ofCode (h7.extractLsb' 0 2).toNat).bind fun v0 => some (.maxW (flag (h7.extractLsb' 2 1)) v0 rb ra rd) else
  if f3 = 3#3 ∧ (h7.extractLsb' 3 4) = 0#4 then (NWidth.ofCode (h7.extractLsb' 0 2).toNat).bind fun v0 => some (.divW (flag (h7.extractLsb' 2 1)) v0 rb ra rd) else
  if f3 = 3#3 ∧ (h7.extractLsb' 3 4) = 1#4 then (NWidth.ofCode (h7.extractLsb' 0 2).toNat).bind fun v0 => some (.remW (flag (h7.extractLsb' 2 1)) v0 rb ra rd) else
  if f3 = 4#3 ∧ (h7.extractLsb' 3 4) = 0#4 then (NWidth.ofCode (h7.extractLsb' 0 2).toNat).bind fun v0 => some (.andW (flag (h7.extractLsb' 2 1)) v0 rb ra rd) else
  if f3 = 4#3 ∧ (h7.extractLsb' 3 4) = 1#4 then (NWidth.ofCode (h7.extractLsb' 0 2).toNat).bind fun v0 => some (.orW (flag (h7.extractLsb' 2 1)) v0 rb ra rd) else
  if f3 = 4#3 ∧ (h7.extractLsb' 3 4) = 2#4 then (NWidth.ofCode (h7.extractLsb' 0 2).toNat).bind fun v0 => some (.xorW (flag (h7.extractLsb' 2 1)) v0 rb ra rd) else
  if f3 = 4#3 ∧ (h7.extractLsb' 3 4) = 3#4 then (NWidth.ofCode (h7.extractLsb' 0 2).toNat).bind fun v0 => some (.andnW (flag (h7.extractLsb' 2 1)) v0 rb ra rd) else
  if f3 = 4#3 ∧ (h7.extractLsb' 3 4) = 4#4 then (NWidth.ofCode (h7.extractLsb' 0 2).toNat).bind fun v0 => some (.ornW (flag (h7.extractLsb' 2 1)) v0 rb ra rd) else
  if f3 = 4#3 ∧ (h7.extractLsb' 3 4) = 5#4 then (NWidth.ofCode (h7.extractLsb' 0 2).toNat).bind fun v0 => some (.xnorW (flag (h7.extractLsb' 2 1)) v0 rb ra rd) else
  if f3 = 5#3 ∧ (h7.extractLsb' 3 4) = 0#4 ∧ rb = 0#5 then (NWidth.ofCode (h7.extractLsb' 0 2).toNat).bind fun v0 => some (.clzW (flag (h7.extractLsb' 2 1)) v0 ra rd) else
  if f3 = 5#3 ∧ (h7.extractLsb' 3 4) = 0#4 ∧ rb = 1#5 then (NWidth.ofCode (h7.extractLsb' 0 2).toNat).bind fun v0 => some (.ctzW (flag (h7.extractLsb' 2 1)) v0 ra rd) else
  if f3 = 5#3 ∧ (h7.extractLsb' 3 4) = 0#4 ∧ rb = 2#5 then (NWidth.ofCode (h7.extractLsb' 0 2).toNat).bind fun v0 => some (.ffsW (flag (h7.extractLsb' 2 1)) v0 ra rd) else
  if f3 = 5#3 ∧ (h7.extractLsb' 3 4) = 0#4 ∧ rb = 3#5 then (NWidth.ofCode (h7.extractLsb' 0 2).toNat).bind fun v0 => some (.popcW (flag (h7.extractLsb' 2 1)) v0 ra rd) else
  if f3 = 5#3 ∧ (h7.extractLsb' 3 4) = 0#4 ∧ rb = 4#5 then (NWidth.ofCode (h7.extractLsb' 0 2).toNat).bind fun v0 => some (.brevW (flag (h7.extractLsb' 2 1)) v0 ra rd) else
  if f3 = 5#3 ∧ (h7.extractLsb' 3 4) = 0#4 ∧ rb = 5#5 then (NWidth.ofCode (h7.extractLsb' 0 2).toNat).bind fun v0 => some (.bswapW (flag (h7.extractLsb' 2 1)) v0 ra rd) else
  none

/-- Major 0x3F (R181). -/
noncomputable def decodeXfer (h7 : BitVec 7) (rb ra : BitVec 5) (f3 : BitVec 3) (rd : BitVec 5) : Option Instr :=
  if f3 = 0#3 ∧ h7 = 0#7 then some (.cpg rb ra rd) else
  if f3 = 0#3 ∧ h7 = 1#7 then some (.cpl rb ra rd) else
  if f3 = 0#3 ∧ h7 = 2#7 then some (.cpm rb ra rd) else
  if h7 = 3#7 ∧ rb = 0#5 then (LdTyp.ofCode f3.toNat).bind fun v0 => some (.rld ra v0 rd) else
  if h7 = 4#7 ∧ rd = 0#5 then (StTyp.ofCode f3.toNat).bind fun v0 => some (.rst rb ra v0) else
  if (f3.extractLsb' 1 2) = 1#2 ∧ h7 = 5#7 ∧ rd = 0#5 then some (.rstf rb ra (flag (f3.extractLsb' 0 1))) else
  if f3 = 0#3 ∧ h7 = 6#7 ∧ rd = 0#5 then some (.barm rb ra) else
  if f3 = 0#3 ∧ h7 = 7#7 ∧ rd = 0#5 then some (.barr rb ra) else
  if f3 = 0#3 ∧ h7 = 8#7 ∧ rd = 0#5 then some (.bwait rb ra) else
  if f3 = 0#3 ∧ h7 = 9#7 ∧ rd = 0#5 then some (.rarr rb ra) else
  if (f3.extractLsb' 2 1) = 0#1 ∧ h7 = 16#7 then (RmTyp.ofCode (f3.extractLsb' 0 2).toNat).bind fun v0 => some (.ramswap rb ra v0 rd) else
  if (f3.extractLsb' 2 1) = 0#1 ∧ h7 = 17#7 then (RmTyp.ofCode (f3.extractLsb' 0 2).toNat).bind fun v0 => some (.ramadd rb ra v0 rd) else
  if (f3.extractLsb' 2 1) = 0#1 ∧ h7 = 18#7 then (RmTyp.ofCode (f3.extractLsb' 0 2).toNat).bind fun v0 => some (.ramand rb ra v0 rd) else
  if (f3.extractLsb' 2 1) = 0#1 ∧ h7 = 19#7 then (RmTyp.ofCode (f3.extractLsb' 0 2).toNat).bind fun v0 => some (.ramor rb ra v0 rd) else
  if (f3.extractLsb' 2 1) = 0#1 ∧ h7 = 20#7 then (RmTyp.ofCode (f3.extractLsb' 0 2).toNat).bind fun v0 => some (.ramxor rb ra v0 rd) else
  if (f3.extractLsb' 2 1) = 0#1 ∧ h7 = 21#7 then (RmTyp.ofCode (f3.extractLsb' 0 2).toNat).bind fun v0 => some (.rammin rb ra v0 rd) else
  if (f3.extractLsb' 2 1) = 0#1 ∧ h7 = 22#7 then (RmTyp.ofCode (f3.extractLsb' 0 2).toNat).bind fun v0 => some (.rammax rb ra v0 rd) else
  if f3 = 0#3 ∧ (h7.extractLsb' 5 2) = 1#2 ∧ rd = 0#5 then some (.rbst (h7.extractLsb' 0 5) rb ra) else
  none

/-- Major 0x43 (R181). -/
noncomputable def decodeFma (h7 : BitVec 7) (rb ra : BitVec 5) (f3 : BitVec 3) (rd : BitVec 5) : Option Instr :=
  if f3 = 0#3 then (FTyp.ofCode (h7.extractLsb' 0 2).toNat).bind fun v0 => some (.fmadd (h7.extractLsb' 2 5) v0 rb ra rd) else
  if f3 = 1#3 then (FTyp.ofCode (h7.extractLsb' 0 2).toNat).bind fun v0 => some (.fmsub (h7.extractLsb' 2 5) v0 rb ra rd) else
  if f3 = 2#3 then (FTyp.ofCode (h7.extractLsb' 0 2).toNat).bind fun v0 => some (.fnmsub (h7.extractLsb' 2 5) v0 rb ra rd) else
  if f3 = 3#3 then (FTyp.ofCode (h7.extractLsb' 0 2).toNat).bind fun v0 => some (.fnmadd (h7.extractLsb' 2 5) v0 rb ra rd) else
  none

/-- Major 0x47 (R181). -/
noncomputable def decodeFop (h7 : BitVec 7) (rb ra : BitVec 5) (f3 : BitVec 3) (rd : BitVec 5) : Option Instr :=
  if f3 = 0#3 ∧ (h7.extractLsb' 2 5) = 0#5 then (FTyp.ofCode (h7.extractLsb' 0 2).toNat).bind fun v0 => some (.fadd v0 rb ra rd) else
  if f3 = 0#3 ∧ (h7.extractLsb' 2 5) = 1#5 then (FTyp.ofCode (h7.extractLsb' 0 2).toNat).bind fun v0 => some (.fsub v0 rb ra rd) else
  if f3 = 0#3 ∧ (h7.extractLsb' 2 5) = 2#5 then (FTyp.ofCode (h7.extractLsb' 0 2).toNat).bind fun v0 => some (.fmul v0 rb ra rd) else
  if f3 = 0#3 ∧ (h7.extractLsb' 2 5) = 3#5 then (FTyp.ofCode (h7.extractLsb' 0 2).toNat).bind fun v0 => some (.fdiv v0 rb ra rd) else
  if f3 = 0#3 ∧ (h7.extractLsb' 2 5) = 4#5 ∧ rb = 0#5 then (FTyp.ofCode (h7.extractLsb' 0 2).toNat).bind fun v0 => some (.fsqrt v0 ra rd) else
  if f3 = 0#3 ∧ (h7.extractLsb' 2 5) = 5#5 then (FTyp.ofCode (h7.extractLsb' 0 2).toNat).bind fun v0 => some (.fmin v0 rb ra rd) else
  if f3 = 0#3 ∧ (h7.extractLsb' 2 5) = 6#5 then (FTyp.ofCode (h7.extractLsb' 0 2).toNat).bind fun v0 => some (.fmax v0 rb ra rd) else
  if f3 = 0#3 ∧ (h7.extractLsb' 2 5) = 7#5 then (FTyp.ofCode (h7.extractLsb' 0 2).toNat).bind fun v0 => some (.fsgnj v0 rb ra rd) else
  if f3 = 1#3 ∧ (h7.extractLsb' 2 5) = 7#5 then (FTyp.ofCode (h7.extractLsb' 0 2).toNat).bind fun v0 => some (.fsgnjn v0 rb ra rd) else
  if f3 = 2#3 ∧ (h7.extractLsb' 2 5) = 7#5 then (FTyp.ofCode (h7.extractLsb' 0 2).toNat).bind fun v0 => some (.fsgnjx v0 rb ra rd) else
  if f3 = 0#3 ∧ (h7.extractLsb' 2 5) = 8#5 then (FTyp.ofCode (h7.extractLsb' 0 2).toNat).bind fun v0 => (Fmt.ofCode rb.toNat).bind fun v1 => some (.fcvtFloatToFloat v0 v1 ra rd) else
  if f3 = 0#3 ∧ (h7.extractLsb' 2 5) = 9#5 then (FTyp.ofCode (h7.extractLsb' 0 2).toNat).bind fun v0 => (Fmt.ofCode rb.toNat).bind fun v1 => some (.fcvtFloatToInteger v0 v1 ra rd) else
  if f3 = 0#3 ∧ (h7.extractLsb' 2 5) = 10#5 then (FTyp.ofCode (h7.extractLsb' 0 2).toNat).bind fun v0 => (Fmt.ofCode rb.toNat).bind fun v1 => some (.fcvtIntegerToFloat v0 v1 ra rd) else
  if f3 = 0#3 ∧ (h7.extractLsb' 2 5) = 11#5 ∧ rb = 0#5 then (FTyp.ofCode (h7.extractLsb' 0 2).toNat).bind fun v0 => some (.fclass v0 ra rd) else
  none

/-- Major 0x4B (R181). -/
noncomputable def decodePred (h7 : BitVec 7) (rb ra : BitVec 5) (f3 : BitVec 3) (rd : BitVec 5) : Option Instr :=
  if f3 = 0#3 ∧ (h7.extractLsb' 3 4) = 0#4 then (Width.ofCode (h7.extractLsb' 0 2).toNat).bind fun v0 => (predOf rd).bind fun v1 => some (.cmpeq (flag (h7.extractLsb' 2 1)) v0 rb ra v1) else
  if f3 = 0#3 ∧ (h7.extractLsb' 3 4) = 1#4 then (Width.ofCode (h7.extractLsb' 0 2).toNat).bind fun v0 => (predOf rd).bind fun v1 => some (.cmpne (flag (h7.extractLsb' 2 1)) v0 rb ra v1) else
  if f3 = 0#3 ∧ (h7.extractLsb' 3 4) = 2#4 then (Width.ofCode (h7.extractLsb' 0 2).toNat).bind fun v0 => (predOf rd).bind fun v1 => some (.cmplt (flag (h7.extractLsb' 2 1)) v0 rb ra v1) else
  if f3 = 0#3 ∧ (h7.extractLsb' 3 4) = 3#4 then (Width.ofCode (h7.extractLsb' 0 2).toNat).bind fun v0 => (predOf rd).bind fun v1 => some (.cmpge (flag (h7.extractLsb' 2 1)) v0 rb ra v1) else
  if f3 = 2#3 ∧ (h7.extractLsb' 2 5) = 0#5 then (FTyp.ofCode (h7.extractLsb' 0 2).toNat).bind fun v0 => (predOf rd).bind fun v1 => some (.fcmpeq v0 rb ra v1) else
  if f3 = 2#3 ∧ (h7.extractLsb' 2 5) = 1#5 then (FTyp.ofCode (h7.extractLsb' 0 2).toNat).bind fun v0 => (predOf rd).bind fun v1 => some (.fcmpne v0 rb ra v1) else
  if f3 = 2#3 ∧ (h7.extractLsb' 2 5) = 2#5 then (FTyp.ofCode (h7.extractLsb' 0 2).toNat).bind fun v0 => (predOf rd).bind fun v1 => some (.fcmplt v0 rb ra v1) else
  if f3 = 2#3 ∧ (h7.extractLsb' 2 5) = 3#5 then (FTyp.ofCode (h7.extractLsb' 0 2).toNat).bind fun v0 => (predOf rd).bind fun v1 => some (.fcmple v0 rb ra v1) else
  if f3 = 2#3 ∧ (h7.extractLsb' 2 5) = 4#5 then (FTyp.ofCode (h7.extractLsb' 0 2).toNat).bind fun v0 => (predOf rd).bind fun v1 => some (.fcmpun v0 rb ra v1) else
  if f3 = 3#3 ∧ h7 = 0#7 then (predOf rb).bind fun v0 => (predOf ra).bind fun v1 => (predOf rd).bind fun v2 => some (.pand v0 v1 v2) else
  if f3 = 3#3 ∧ h7 = 1#7 then (predOf rb).bind fun v0 => (predOf ra).bind fun v1 => (predOf rd).bind fun v2 => some (.por v0 v1 v2) else
  if f3 = 3#3 ∧ h7 = 2#7 then (predOf rb).bind fun v0 => (predOf ra).bind fun v1 => (predOf rd).bind fun v2 => some (.pxor v0 v1 v2) else
  if f3 = 3#3 ∧ h7 = 3#7 then (predOf rb).bind fun v0 => (predOf ra).bind fun v1 => (predOf rd).bind fun v2 => some (.pandn v0 v1 v2) else
  if f3 = 3#3 ∧ h7 = 4#7 ∧ rb = 0#5 then (predOf ra).bind fun v0 => (predOf rd).bind fun v1 => some (.pnot v0 v1) else
  if f3 = 4#3 ∧ h7 = 0#7 ∧ rb = 0#5 ∧ ra = 0#5 then some (.ppack rd) else
  if f3 = 5#3 ∧ rb = 0#5 ∧ rd = 0#5 then some (.punpack h7 ra) else
  if f3 = 6#3 ∧ (h7.extractLsb' 3 4) = 0#4 then some (.sel (h7.extractLsb' 0 3) rb ra rd) else
  if f3 = 7#3 ∧ h7 = 0#7 ∧ rb = 0#5 then (predOf rd).bind fun v0 => some (.ttest ra v0) else
  none

/-- Major 0x4F (R181). -/
noncomputable def decodeMsg (h7 : BitVec 7) (rb ra : BitVec 5) (f3 : BitVec 3) (rd : BitVec 5) : Option Instr :=
  if f3 = 0#3 ∧ h7 = 0#7 ∧ rd = 0#5 then some (.msend rb ra) else
  if f3 = 0#3 ∧ h7 = 1#7 then some (.amsg rb ra rd) else
  if f3 = 0#3 ∧ h7 = 2#7 ∧ rb = 0#5 then some (.mrecv ra rd) else
  if f3 = 0#3 ∧ h7 = 3#7 ∧ rb = 0#5 ∧ ra = 0#5 then some (.waitmsg rd) else
  none

/-- Major 0x53 (R181). -/
noncomputable def decodeVop (h7 : BitVec 7) (rb ra : BitVec 5) (f3 : BitVec 3) (rd : BitVec 5) : Option Instr :=
  if (h7.extractLsb' 1 4) = 0#4 ∧ (h7.extractLsb' 6 1) = 0#1 then (VIWidth.ofCode f3.toNat).bind fun v0 => some (.vadd (flag (h7.extractLsb' 5 1)) (flag (h7.extractLsb' 0 1)) rb ra v0 rd) else
  if (h7.extractLsb' 1 4) = 1#4 ∧ (h7.extractLsb' 6 1) = 0#1 then (VIWidth.ofCode f3.toNat).bind fun v0 => some (.vsub (flag (h7.extractLsb' 5 1)) (flag (h7.extractLsb' 0 1)) rb ra v0 rd) else
  if (h7.extractLsb' 1 4) = 2#4 ∧ (h7.extractLsb' 6 1) = 0#1 then (VIWidth.ofCode f3.toNat).bind fun v0 => some (.vmul (flag (h7.extractLsb' 5 1)) (flag (h7.extractLsb' 0 1)) rb ra v0 rd) else
  if (h7.extractLsb' 1 4) = 3#4 ∧ (h7.extractLsb' 6 1) = 0#1 then (VIWidth.ofCode f3.toNat).bind fun v0 => some (.vmulh (flag (h7.extractLsb' 5 1)) (flag (h7.extractLsb' 0 1)) rb ra v0 rd) else
  if (h7.extractLsb' 1 4) = 4#4 ∧ (h7.extractLsb' 6 1) = 0#1 then (VIWidth.ofCode f3.toNat).bind fun v0 => some (.vmin (flag (h7.extractLsb' 5 1)) (flag (h7.extractLsb' 0 1)) rb ra v0 rd) else
  if (h7.extractLsb' 1 4) = 5#4 ∧ (h7.extractLsb' 6 1) = 0#1 then (VIWidth.ofCode f3.toNat).bind fun v0 => some (.vmax (flag (h7.extractLsb' 5 1)) (flag (h7.extractLsb' 0 1)) rb ra v0 rd) else
  if (h7.extractLsb' 1 4) = 6#4 ∧ (h7.extractLsb' 6 1) = 0#1 then (VIWidth.ofCode f3.toNat).bind fun v0 => some (.vand (flag (h7.extractLsb' 5 1)) (flag (h7.extractLsb' 0 1)) rb ra v0 rd) else
  if (h7.extractLsb' 1 4) = 7#4 ∧ (h7.extractLsb' 6 1) = 0#1 then (VIWidth.ofCode f3.toNat).bind fun v0 => some (.vor (flag (h7.extractLsb' 5 1)) (flag (h7.extractLsb' 0 1)) rb ra v0 rd) else
  if (h7.extractLsb' 1 4) = 8#4 ∧ (h7.extractLsb' 6 1) = 0#1 then (VIWidth.ofCode f3.toNat).bind fun v0 => some (.vxor (flag (h7.extractLsb' 5 1)) (flag (h7.extractLsb' 0 1)) rb ra v0 rd) else
  if (h7.extractLsb' 1 4) = 9#4 ∧ (h7.extractLsb' 6 1) = 0#1 then (VIWidth.ofCode f3.toNat).bind fun v0 => some (.vshl (flag (h7.extractLsb' 5 1)) (flag (h7.extractLsb' 0 1)) rb ra v0 rd) else
  if (h7.extractLsb' 1 4) = 10#4 ∧ (h7.extractLsb' 6 1) = 0#1 then (VIWidth.ofCode f3.toNat).bind fun v0 => some (.vshr (flag (h7.extractLsb' 5 1)) (flag (h7.extractLsb' 0 1)) rb ra v0 rd) else
  if (h7.extractLsb' 1 4) = 11#4 ∧ (h7.extractLsb' 6 1) = 0#1 then (VIWidth.ofCode f3.toNat).bind fun v0 => some (.vadds (flag (h7.extractLsb' 5 1)) (flag (h7.extractLsb' 0 1)) rb ra v0 rd) else
  if (h7.extractLsb' 1 4) = 12#4 ∧ (h7.extractLsb' 6 1) = 0#1 then (VIWidth.ofCode f3.toNat).bind fun v0 => some (.vsubs (flag (h7.extractLsb' 5 1)) (flag (h7.extractLsb' 0 1)) rb ra v0 rd) else
  if (h7.extractLsb' 1 4) = 13#4 ∧ (h7.extractLsb' 6 1) = 0#1 then (VIWidth.ofCode f3.toNat).bind fun v0 => some (.vcmpeq (flag (h7.extractLsb' 5 1)) (flag (h7.extractLsb' 0 1)) rb ra v0 rd) else
  if (h7.extractLsb' 1 4) = 14#4 ∧ (h7.extractLsb' 6 1) = 0#1 then (VIWidth.ofCode f3.toNat).bind fun v0 => some (.vcmplt (flag (h7.extractLsb' 5 1)) (flag (h7.extractLsb' 0 1)) rb ra v0 rd) else
  if (h7.extractLsb' 1 4) = 15#4 ∧ (h7.extractLsb' 6 1) = 0#1 then (VIWidth.ofCode f3.toNat).bind fun v0 => some (.vcmple (flag (h7.extractLsb' 5 1)) (flag (h7.extractLsb' 0 1)) rb ra v0 rd) else
  if (h7.extractLsb' 1 4) = 0#4 ∧ (h7.extractLsb' 6 1) = 1#1 then (VFTyp.ofCode ((h7.extractLsb' 5 1) ++ f3).toNat).bind fun v0 => some (.vfadd v0 (flag (h7.extractLsb' 0 1)) rb ra rd) else
  if (h7.extractLsb' 1 4) = 1#4 ∧ (h7.extractLsb' 6 1) = 1#1 then (VFTyp.ofCode ((h7.extractLsb' 5 1) ++ f3).toNat).bind fun v0 => some (.vfsub v0 (flag (h7.extractLsb' 0 1)) rb ra rd) else
  if (h7.extractLsb' 1 4) = 2#4 ∧ (h7.extractLsb' 6 1) = 1#1 then (VFTyp.ofCode ((h7.extractLsb' 5 1) ++ f3).toNat).bind fun v0 => some (.vfmul v0 (flag (h7.extractLsb' 0 1)) rb ra rd) else
  if (h7.extractLsb' 1 4) = 3#4 ∧ (h7.extractLsb' 6 1) = 1#1 then (VFTyp.ofCode ((h7.extractLsb' 5 1) ++ f3).toNat).bind fun v0 => some (.vfdiv v0 (flag (h7.extractLsb' 0 1)) rb ra rd) else
  if (h7.extractLsb' 1 4) = 4#4 ∧ (h7.extractLsb' 6 1) = 1#1 then (VFTyp.ofCode ((h7.extractLsb' 5 1) ++ f3).toNat).bind fun v0 => some (.vfmin v0 (flag (h7.extractLsb' 0 1)) rb ra rd) else
  if (h7.extractLsb' 1 4) = 5#4 ∧ (h7.extractLsb' 6 1) = 1#1 then (VFTyp.ofCode ((h7.extractLsb' 5 1) ++ f3).toNat).bind fun v0 => some (.vfmax v0 (flag (h7.extractLsb' 0 1)) rb ra rd) else
  if (h7.extractLsb' 1 4) = 6#4 ∧ (h7.extractLsb' 6 1) = 1#1 then (VFTyp.ofCode ((h7.extractLsb' 5 1) ++ f3).toNat).bind fun v0 => some (.vfma v0 (flag (h7.extractLsb' 0 1)) rb ra rd) else
  if (h7.extractLsb' 1 4) = 7#4 ∧ (h7.extractLsb' 6 1) = 1#1 then (VFTyp.ofCode ((h7.extractLsb' 5 1) ++ f3).toNat).bind fun v0 => some (.vfnma v0 (flag (h7.extractLsb' 0 1)) rb ra rd) else
  if (h7.extractLsb' 1 4) = 8#4 ∧ (h7.extractLsb' 6 1) = 1#1 then (VFTyp.ofCode ((h7.extractLsb' 5 1) ++ f3).toNat).bind fun v0 => some (.vfcmpun v0 (flag (h7.extractLsb' 0 1)) rb ra rd) else
  if (h7.extractLsb' 1 4) = 9#4 ∧ (h7.extractLsb' 6 1) = 1#1 ∧ rb = 0#5 then (VFTyp.ofCode ((h7.extractLsb' 5 1) ++ f3).toNat).bind fun v0 => some (.vfsqrt v0 (flag (h7.extractLsb' 0 1)) ra rd) else
  if (h7.extractLsb' 1 4) = 10#4 ∧ (h7.extractLsb' 6 1) = 1#1 then (VFTyp.ofCode ((h7.extractLsb' 5 1) ++ f3).toNat).bind fun v0 => some (.vfsgnj v0 (flag (h7.extractLsb' 0 1)) rb ra rd) else
  if (h7.extractLsb' 1 4) = 11#4 ∧ (h7.extractLsb' 6 1) = 1#1 then (VFTyp.ofCode ((h7.extractLsb' 5 1) ++ f3).toNat).bind fun v0 => some (.vfsgnjn v0 (flag (h7.extractLsb' 0 1)) rb ra rd) else
  if (h7.extractLsb' 1 4) = 12#4 ∧ (h7.extractLsb' 6 1) = 1#1 then (VFTyp.ofCode ((h7.extractLsb' 5 1) ++ f3).toNat).bind fun v0 => some (.vfsgnjx v0 (flag (h7.extractLsb' 0 1)) rb ra rd) else
  if (h7.extractLsb' 1 4) = 13#4 ∧ (h7.extractLsb' 6 1) = 1#1 then (VFTyp.ofCode ((h7.extractLsb' 5 1) ++ f3).toNat).bind fun v0 => some (.vfcmpeq v0 (flag (h7.extractLsb' 0 1)) rb ra rd) else
  if (h7.extractLsb' 1 4) = 14#4 ∧ (h7.extractLsb' 6 1) = 1#1 then (VFTyp.ofCode ((h7.extractLsb' 5 1) ++ f3).toNat).bind fun v0 => some (.vfcmplt v0 (flag (h7.extractLsb' 0 1)) rb ra rd) else
  if (h7.extractLsb' 1 4) = 15#4 ∧ (h7.extractLsb' 6 1) = 1#1 then (VFTyp.ofCode ((h7.extractLsb' 5 1) ++ f3).toNat).bind fun v0 => some (.vfcmple v0 (flag (h7.extractLsb' 0 1)) rb ra rd) else
  none

/-- Major 0x57 (R181). -/
noncomputable def decodeVfx (h7 : BitVec 7) (rb ra : BitVec 5) (f3 : BitVec 3) (rd : BitVec 5) : Option Instr :=
  if (h7.extractLsb' 1 6) = 0#6 then (Fmt.ofCode rb.toNat).bind fun v0 => (VWidth.ofCode f3.toNat).bind fun v1 => some (.vcvtF (flag (h7.extractLsb' 0 1)) v0 ra v1 rd) else
  if (h7.extractLsb' 1 6) = 1#6 then (Fmt.ofCode rb.toNat).bind fun v0 => (VWidth.ofCode f3.toNat).bind fun v1 => some (.vcvtI (flag (h7.extractLsb' 0 1)) v0 ra v1 rd) else
  if f3 = 0#3 ∧ (h7.extractLsb' 1 6) = 2#6 then (Fmt.ofCode rb.toNat).bind fun v0 => some (.vqnt32 (flag (h7.extractLsb' 0 1)) v0 ra rd) else
  if f3 = 0#3 ∧ (h7.extractLsb' 1 6) = 3#6 then (Fmt.ofCode rb.toNat).bind fun v0 => some (.vqnt128 (flag (h7.extractLsb' 0 1)) v0 ra rd) else
  if f3 = 0#3 ∧ (h7.extractLsb' 1 6) = 4#6 then (Fmt.ofCode rb.toNat).bind fun v0 => some (.vqnt256 (flag (h7.extractLsb' 0 1)) v0 ra rd) else
  if f3 = 0#3 ∧ (h7.extractLsb' 1 6) = 5#6 then (Fmt.ofCode rb.toNat).bind fun v0 => some (.vdqnt32 (flag (h7.extractLsb' 0 1)) v0 ra rd) else
  if f3 = 0#3 ∧ (h7.extractLsb' 1 6) = 6#6 then (Fmt.ofCode rb.toNat).bind fun v0 => some (.vdqnt128 (flag (h7.extractLsb' 0 1)) v0 ra rd) else
  if f3 = 0#3 ∧ (h7.extractLsb' 1 6) = 7#6 then (Fmt.ofCode rb.toNat).bind fun v0 => some (.vdqnt256 (flag (h7.extractLsb' 0 1)) v0 ra rd) else
  if (h7.extractLsb' 1 6) = 8#6 ∧ rb = 0#5 then (VSWidth.ofCode f3.toNat).bind fun v0 => some (.vexp2 (flag (h7.extractLsb' 0 1)) ra v0 rd) else
  if (h7.extractLsb' 1 6) = 9#6 ∧ rb = 0#5 then (VSWidth.ofCode f3.toNat).bind fun v0 => some (.vlog2 (flag (h7.extractLsb' 0 1)) ra v0 rd) else
  if (h7.extractLsb' 1 6) = 10#6 ∧ rb = 0#5 then (VSWidth.ofCode f3.toNat).bind fun v0 => some (.vrcp (flag (h7.extractLsb' 0 1)) ra v0 rd) else
  if (h7.extractLsb' 1 6) = 11#6 ∧ rb = 0#5 then (VSWidth.ofCode f3.toNat).bind fun v0 => some (.vrsqrt (flag (h7.extractLsb' 0 1)) ra v0 rd) else
  if (h7.extractLsb' 1 6) = 12#6 ∧ rb = 0#5 then (VCWidth.ofCode f3.toNat).bind fun v0 => some (.vclz (flag (h7.extractLsb' 0 1)) ra v0 rd) else
  if (h7.extractLsb' 1 6) = 13#6 ∧ rb = 0#5 then (VCWidth.ofCode f3.toNat).bind fun v0 => some (.vctz (flag (h7.extractLsb' 0 1)) ra v0 rd) else
  if (h7.extractLsb' 1 6) = 14#6 ∧ rb = 0#5 then (VCWidth.ofCode f3.toNat).bind fun v0 => some (.vffs (flag (h7.extractLsb' 0 1)) ra v0 rd) else
  if (h7.extractLsb' 1 6) = 15#6 ∧ rb = 0#5 then (VCWidth.ofCode f3.toNat).bind fun v0 => some (.vpopc (flag (h7.extractLsb' 0 1)) ra v0 rd) else
  if (h7.extractLsb' 1 6) = 16#6 ∧ rb = 0#5 then (VWidth.ofCode f3.toNat).bind fun v0 => some (.vbcast (flag (h7.extractLsb' 0 1)) ra v0 rd) else
  if (h7.extractLsb' 1 6) = 17#6 then (VIWidth.ofCode f3.toNat).bind fun v0 => some (.vext (flag (h7.extractLsb' 0 1)) rb ra v0 rd) else
  if (h7.extractLsb' 1 6) = 18#6 then (VIWidth.ofCode f3.toNat).bind fun v0 => some (.vins (flag (h7.extractLsb' 0 1)) rb ra v0 rd) else
  if (h7.extractLsb' 1 6) = 19#6 then (VIWidth.ofCode f3.toNat).bind fun v0 => some (.vperm (flag (h7.extractLsb' 0 1)) rb ra v0 rd) else
  if (h7.extractLsb' 1 6) = 20#6 then (VWidth.ofCode f3.toNat).bind fun v0 => some (.vslup (flag (h7.extractLsb' 0 1)) rb ra v0 rd) else
  if (h7.extractLsb' 1 6) = 21#6 then (VWidth.ofCode f3.toNat).bind fun v0 => some (.vsldn (flag (h7.extractLsb' 0 1)) rb ra v0 rd) else
  if (h7.extractLsb' 1 6) = 22#6 ∧ rb = 0#5 ∧ ra = 0#5 then (VIWidth.ofCode f3.toNat).bind fun v0 => some (.viota (flag (h7.extractLsb' 0 1)) v0 rd) else
  if (h7.extractLsb' 1 6) = 23#6 ∧ rb = 0#5 then (VWidth.ofCode f3.toNat).bind fun v0 => some (.vmv (flag (h7.extractLsb' 0 1)) ra v0 rd) else
  if (h7.extractLsb' 1 6) = 24#6 then (Fmt.ofCode rb.toNat).bind fun v0 => (VWidth.ofCode f3.toNat).bind fun v1 => some (.vrsum (flag (h7.extractLsb' 0 1)) v0 ra v1 rd) else
  if (h7.extractLsb' 1 6) = 25#6 then (Fmt.ofCode rb.toNat).bind fun v0 => (VWidth.ofCode f3.toNat).bind fun v1 => some (.vrmax (flag (h7.extractLsb' 0 1)) v0 ra v1 rd) else
  if (h7.extractLsb' 1 6) = 26#6 then (Fmt.ofCode rb.toNat).bind fun v0 => (VWidth.ofCode f3.toNat).bind fun v1 => some (.vrmin (flag (h7.extractLsb' 0 1)) v0 ra v1 rd) else
  if (h7.extractLsb' 1 6) = 27#6 then (Fmt.ofCode rb.toNat).bind fun v0 => (VWidth.ofCode f3.toNat).bind fun v1 => some (.vscan (flag (h7.extractLsb' 0 1)) v0 ra v1 rd) else
  if f3 = 0#3 ∧ h7 = 56#7 then some (.vpmrg rb ra rd) else
  none

/-- Major 0x5B (R181). -/
noncomputable def decodeVctl (h7 : BitVec 7) (rb ra : BitVec 5) (f3 : BitVec 3) (rd : BitVec 5) : Option Instr :=
  if f3 = 0#3 ∧ h7 = 0#7 ∧ rb = 0#5 then some (.vclaim ra rd) else
  if f3 = 1#3 ∧ h7 = 0#7 ∧ rb = 0#5 then some (.vyield ra rd) else
  if f3 = 2#3 ∧ h7 = 0#7 ∧ (rb.extractLsb' 4 1) = 0#1 ∧ rd = 0#5 then some (.vloop (rb.extractLsb' 0 4) ra) else
  if f3 = 3#3 ∧ h7 = 0#7 ∧ (rb.extractLsb' 3 2) = 0#2 ∧ rd = 0#5 then some (.vbind (flag (rb.extractLsb' 2 1)) (rb.extractLsb' 0 2) ra) else
  if f3 = 4#3 ∧ h7 = 0#7 ∧ (rb.extractLsb' 2 3) = 0#3 ∧ ra = 0#5 ∧ rd = 0#5 then some (.vunbind (rb.extractLsb' 0 2)) else
  if f3 = 5#3 ∧ h7 = 0#7 ∧ (rb.extractLsb' 3 2) = 0#2 then (VWidth.ofCode (rb.extractLsb' 0 3).toNat).bind fun v0 => some (.vsetvl v0 ra rd) else
  if f3 = 6#3 ∧ h7 = 0#7 ∧ rb = 0#5 ∧ ra = 0#5 then some (.vstat rd) else
  none

/-- Major 0x5F (R181). -/
noncomputable def decodeMx (h7 : BitVec 7) (rb ra : BitVec 5) (f3 : BitVec 3) (rd : BitVec 5) : Option Instr :=
  if (h7.extractLsb' 1 6) = 0#6 then (MFmt.ofCode (rd.extractLsb' 0 4).toNat).bind fun v0 => some (.mxmul (flag (h7.extractLsb' 0 1)) rb ra (flag (f3.extractLsb' 2 1)) (f3.extractLsb' 0 2 ++ rd.extractLsb' 4 1) v0) else
  if (h7.extractLsb' 1 6) = 1#6 then (MFmt.ofCode (rd.extractLsb' 0 4).toNat).bind fun v0 => some (.mxmulz (flag (h7.extractLsb' 0 1)) rb ra (flag (f3.extractLsb' 2 1)) (f3.extractLsb' 0 2 ++ rd.extractLsb' 4 1) v0) else
  if h7 = 4#7 ∧ rb = 0#5 ∧ ra = 0#5 ∧ (rd.extractLsb' 0 4) = 0#4 then some (.mxzero (flag (f3.extractLsb' 2 1)) (f3.extractLsb' 0 2 ++ rd.extractLsb' 4 1)) else
  if h7 = 6#7 ∧ rb = 0#5 then (MFmt.ofCode (rd.extractLsb' 0 4).toNat).bind fun v0 => some (.mxld ra (flag (f3.extractLsb' 2 1)) (f3.extractLsb' 0 2 ++ rd.extractLsb' 4 1) v0) else
  if (h7.extractLsb' 1 6) = 4#6 ∧ rb = 0#5 then (MFmt.ofCode (rd.extractLsb' 0 4).toNat).bind fun v0 => some (.mxst (flag (h7.extractLsb' 0 1)) ra (flag (f3.extractLsb' 2 1)) (f3.extractLsb' 0 2 ++ rd.extractLsb' 4 1) v0) else
  if h7 = 10#7 ∧ rb = 0#5 ∧ (ra.extractLsb' 3 2) = 0#2 ∧ (rd.extractLsb' 0 4) = 0#4 then some (.mxadd (ra.extractLsb' 0 3) (flag (f3.extractLsb' 2 1)) (f3.extractLsb' 0 2 ++ rd.extractLsb' 4 1)) else
  if h7 = 12#7 ∧ rb = 0#5 ∧ (ra.extractLsb' 3 2) = 0#2 ∧ (rd.extractLsb' 0 4) = 0#4 then some (.mxtr (ra.extractLsb' 0 3) (flag (f3.extractLsb' 2 1)) (f3.extractLsb' 0 2 ++ rd.extractLsb' 4 1)) else
  if (f3.extractLsb' 0 2) = 0#2 ∧ h7 = 14#7 ∧ rb = 0#5 ∧ ra = 0#5 ∧ rd = 0#5 then some (.mxrel (flag (f3.extractLsb' 2 1))) else
  if f3 = 0#3 ∧ h7 = 16#7 ∧ rb = 0#5 ∧ (ra.extractLsb' 4 1) = 0#1 ∧ rd = 0#5 then some (.mxfence (ra.extractLsb' 0 4)) else
  none

/-- Major 0x63 (R181). -/
noncomputable def decodeBr (h7 : BitVec 7) (rb ra : BitVec 5) (f3 : BitVec 3) (rd : BitVec 5) : Option Instr :=
  if f3 = 0#3 then some (.beq (h7 ++ rd) rb ra) else
  if f3 = 1#3 then some (.bne (h7 ++ rd) rb ra) else
  if f3 = 2#3 then some (.blt (h7 ++ rd) rb ra) else
  if f3 = 3#3 then some (.bge (h7 ++ rd) rb ra) else
  if f3 = 4#3 then some (.bltu (h7 ++ rd) rb ra) else
  if f3 = 5#3 then some (.bgeu (h7 ++ rd) rb ra) else
  if f3 = 6#3 ∧ rb = 0#5 then (predOf ra).bind fun v0 => some (.bp (h7 ++ rd) v0) else
  if f3 = 7#3 ∧ rb = 0#5 then (predOf ra).bind fun v0 => some (.bnp (h7 ++ rd) v0) else
  none

/-- Major 0x67 (R181). -/
noncomputable def decodeJalr (h7 : BitVec 7) (rb ra : BitVec 5) (f3 : BitVec 3) (rd : BitVec 5) : Option Instr :=
  if f3 = 0#3 then some (.jalr (h7 ++ rb) ra rd) else
  none

/-- Major 0x6B (R181). -/
noncomputable def decodeTask (h7 : BitVec 7) (rb ra : BitVec 5) (f3 : BitVec 3) (rd : BitVec 5) : Option Instr :=
  if f3 = 0#3 ∧ h7 = 0#7 then some (.spawn rb ra rd) else
  if f3 = 0#3 ∧ h7 = 1#7 ∧ rb = 0#5 then some (.join ra rd) else
  if f3 = 0#3 ∧ h7 = 2#7 ∧ rb = 0#5 ∧ ra = 0#5 ∧ rd = 0#5 then some (.tend) else
  if f3 = 0#3 ∧ h7 = 3#7 ∧ rb = 0#5 ∧ ra = 0#5 ∧ rd = 0#5 then some (.yield) else
  none

/-- Major 0x6F (R181). -/
noncomputable def decodeJal (h7 : BitVec 7) (rb ra : BitVec 5) (f3 : BitVec 3) (rd : BitVec 5) : Option Instr :=
  some (.jal (h7 ++ rb ++ ra ++ f3) rd)

/-- Major 0x73 (R181). -/
noncomputable def decodeSys (h7 : BitVec 7) (rb ra : BitVec 5) (f3 : BitVec 3) (rd : BitVec 5) : Option Instr :=
  if f3 = 0#3 ∧ ra = 0#5 ∧ rd = 0#5 then some (.svc (h7 ++ rb)) else
  if f3 = 1#3 then some (.csrrw (h7 ++ rb) ra rd) else
  if f3 = 2#3 then some (.csrrs (h7 ++ rb) ra rd) else
  if f3 = 3#3 then some (.csrrc (h7 ++ rb) ra rd) else
  if f3 = 4#3 ∧ ra = 0#5 ∧ rd = 0#5 then some (.brk (h7 ++ rb)) else
  if f3 = 5#3 ∧ ra = 0#5 then some (.frame (h7 ++ rb) rd) else
  if f3 = 6#3 ∧ h7 = 0#7 ∧ rb = 0#5 ∧ ra = 0#5 ∧ rd = 0#5 then some (.tret) else
  if f3 = 6#3 ∧ h7 = 0#7 ∧ rb = 1#5 ∧ ra = 0#5 ∧ rd = 0#5 then some (.waiti) else
  if f3 = 6#3 ∧ h7 = 0#7 ∧ rb = 2#5 ∧ ra = 0#5 ∧ rd = 0#5 then some (.smc) else
  none

/-- Major 0x77 (R181). -/
noncomputable def decodeStrm (h7 : BitVec 7) (rb ra : BitVec 5) (f3 : BitVec 3) (rd : BitVec 5) : Option Instr :=
  if f3 = 0#3 ∧ h7 = 0#7 ∧ rb = 0#5 then some (.slaunch ra rd) else
  if f3 = 0#3 ∧ h7 = 1#7 ∧ rb = 0#5 ∧ ra = 0#5 ∧ rd = 0#5 then some (.ssync) else
  if f3 = 0#3 ∧ h7 = 2#7 ∧ rd = 0#5 then some (.srfence rb ra) else
  if f3 = 0#3 ∧ h7 = 3#7 ∧ rd = 0#5 then some (.sbind rb ra) else
  if f3 = 0#3 ∧ h7 = 4#7 ∧ rb = 0#5 then some (.sname ra rd) else
  if f3 = 0#3 ∧ h7 = 5#7 ∧ rb = 0#5 ∧ ra = 0#5 then some (.sstat rd) else
  if f3 = 0#3 ∧ h7 = 6#7 ∧ rd = 0#5 then some (.svec rb ra) else
  if f3 = 0#3 ∧ h7 = 7#7 ∧ rb = 0#5 ∧ rd = 0#5 then some (.sresume ra) else
  if f3 = 0#3 ∧ h7 = 8#7 ∧ rb = 0#5 ∧ rd = 0#5 then some (.sabandon ra) else
  none

/-- Major 0x7B (R181). -/
noncomputable def decodeWait (h7 : BitVec 7) (rb ra : BitVec 5) (f3 : BitVec 3) (rd : BitVec 5) : Option Instr :=
  some (.wait (h7.extractLsb' 2 5) (h7.extractLsb' 0 2 ++ rb.extractLsb' 2 3) (rb.extractLsb' 0 2 ++ ra.extractLsb' 2 3) (ra.extractLsb' 0 2 ++ f3) rd)

/-- The fields of a word to its instruction, by the major (R181). A major that is not listed is not an instruction. -/
noncomputable def decodeFields (h7 : BitVec 7) (rb ra : BitVec 5) (f3 : BitVec 3) (rd : BitVec 5) (op : BitVec 7) : Option Instr :=
  match op.toNat with
  | 0x03 => decodeLd h7 rb ra f3 rd
  | 0x07 => decodeLdl h7 rb ra f3 rd
  | 0x0B => decodeVmem h7 rb ra f3 rd
  | 0x0F => decodeFence h7 rb ra f3 rd
  | 0x13 => decodeOpi h7 rb ra f3 rd
  | 0x17 => decodePcadd h7 rb ra f3 rd
  | 0x1B => decodeOpiw h7 rb ra f3 rd
  | 0x1F => decodeFmtp h7 rb ra f3 rd
  | 0x23 => decodeSt h7 rb ra f3 rd
  | 0x27 => decodeStl h7 rb ra f3 rd
  | 0x2B => decodeAmo h7 rb ra f3 rd
  | 0x2F => decodeVer h7 rb ra f3 rd
  | 0x33 => decodeOp h7 rb ra f3 rd
  | 0x37 => decodeLim h7 rb ra f3 rd
  | 0x3B => decodeOpw h7 rb ra f3 rd
  | 0x3F => decodeXfer h7 rb ra f3 rd
  | 0x43 => decodeFma h7 rb ra f3 rd
  | 0x47 => decodeFop h7 rb ra f3 rd
  | 0x4B => decodePred h7 rb ra f3 rd
  | 0x4F => decodeMsg h7 rb ra f3 rd
  | 0x53 => decodeVop h7 rb ra f3 rd
  | 0x57 => decodeVfx h7 rb ra f3 rd
  | 0x5B => decodeVctl h7 rb ra f3 rd
  | 0x5F => decodeMx h7 rb ra f3 rd
  | 0x63 => decodeBr h7 rb ra f3 rd
  | 0x67 => decodeJalr h7 rb ra f3 rd
  | 0x6B => decodeTask h7 rb ra f3 rd
  | 0x6F => decodeJal h7 rb ra f3 rd
  | 0x73 => decodeSys h7 rb ra f3 rd
  | 0x77 => decodeStrm h7 rb ra f3 rd
  | 0x7B => decodeWait h7 rb ra f3 rd
  | _ => none

/-- The instruction of a word (R182, steps 2, 3, 6 and 7): none where the word is not an instruction. -/
noncomputable def decodeWord (w : BitVec 32) : Option Instr :=
  (decodeFields (w.extractLsb' 25 7) (w.extractLsb' 20 5) (w.extractLsb' 15 5) (w.extractLsb' 12 3) (w.extractLsb' 7 5)
    (w.extractLsb' 0 7)).bind fun i => if i.wf then some i else none

/-- A 32-bit little-endian word of four bytes (R4, R177). -/
def wordOfBytes (b0 b1 b2 b3 : Byte) : BitVec 32 := b3 ++ b2 ++ b1 ++ b0

/-- Decoding of the bytes that stand at an address: one word, and the bytes that follow it. -/
noncomputable def decodeBytes : List Byte → Option (Instr × List Byte)
  | b0 :: b1 :: b2 :: b3 :: rest => (decodeWord (wordOfBytes b0 b1 b2 b3)).map fun i => (i, rest)
  | _ => none

/-- The instruction whose bits are w, numbered as the opcode table numbers them: bit 0 is the least significant bit of the one
word an instruction has. -/
noncomputable def decodeTableWord (nbits w : Nat) : Option Instr :=
  if nbits = 0 then none
  else (decodeBytes ((List.range 4).map fun k => BitVec.ofNat 8 (w / 2 ^ (8 * k)))).map Prod.fst

/-- The six fields of a word put together (R179). -/
def pack (h7 : BitVec 7) (rb ra : BitVec 5) (f3 : BitVec 3) (rd : BitVec 5) (op : BitVec 7) : BitVec 32 :=
  h7 ++ rb ++ ra ++ f3 ++ rd ++ op

/-- The word of an instruction: none for a step without a word. -/
def encode : Instr → Option (BitVec 32)
  | .entryIssue _ _ => none
  | .askForWork _ => none
  | .gangAdmission _ _ _ => none
  | .entryComplete _ _ => none
  | .entryRetire _ => none
  | .supersedeNotice _ _ _ _ _ => none
  | .taskFault _ _ => none
  | .reportedEntry _ => none
  | .faultDelivery _ => none
  | .acceptance _ _ => none
  | .refusedRequestResend _ => none
  | .loadDataReturn _ _ => none
  | .writeBack _ => none
  | .atomicApply _ _ => none
  | .joinDecrement _ _ => none
  | .holdingBufferRecord _ => none
  | .batchClose _ _ _ => none
  | .reductionLineMerge _ _ _ => none
  | .prefetch _ _ => none
  | .seal _ _ _ => none
  | .versionArrivalNotice _ _ => none
  | .copyPiece _ _ => none
  | .copyCompletion _ => none
  | .mergeWindowClose _ _ => none
  | .waitLimit _ => none
  | .builtInOperation _ => none
  | .rstfResend _ _ => none
  | .messageDelivery _ _ => none
  | .messageResend _ => none
  | .handlerStart _ => none
  | .sequencerStart _ => none
  | .sequencerResult _ _ => none
  | .streamTransfer _ _ => none
  | .mergeComplete _ => none
  | .queueBinding _ => none
  | .matrixReadsBegin _ _ => none
  | .matrixComputeBegin _ _ => none
  | .matrixCompletion _ _ => none
  | .collectionWindowClose _ => none
  | .lateReport _ _ => none
  | .scWindowClose _ => none
  | .endMarker _ _ _ => none
  | .interrupt _ => none
  | .timer _ => none
  | .faultQueueRepost _ => none
  | .sfrplyRetry _ _ => none
  | .sfrplyNomap _ _ => none
  | .sfrplyAccess _ _ => none
  | .spreSave _ _ _ => none
  | .withdrawalAnswer _ _ => none
  | .saveDrainEnd _ => none
  | .spreResume _ _ _ => none
  | .ctxtSetV _ _ _ => none
  | .ctxtClearV _ _ _ => none
  | .notify _ _ => none
  | .qmapSetV _ _ _ => none
  | .qmapClearV _ _ _ => none
  | .drain _ => none
  | .drainIdle _ => none
  | .prismReturn _ => none
  | .remove _ => none
  | .clockChange _ => none
  | .scfgWrite _ _ => none
  | .invalidatePage _ _ _ => none
  | .invalidateContext _ _ => none
  | .invalidatePartition _ => none
  | .invalidationDone _ => none
  | .movePage _ _ => none
  | .moveFrameArea _ => none
  | .transferHome _ _ => none
  | .migrationCopyDone _ => none
  | .hint _ _ => none
  | .registerWrite _ _ _ => none
  | .halt _ _ => none
  | .rel _ _ => none
  | .run _ _ => none
  | .step _ _ => none
  | .hset _ _ => none
  | .hclr _ _ => none
  | .detach _ => none
  | .breakpointMatch _ _ => none
  | .watchpointMatch _ _ _ _ => none
  | .memoryPortRead _ => none
  | .memoryPortWrite _ => none
  | .clr _ => none
  | .tsw _ => none
  | .timeBaseCompare _ => none
  | .testPortTrigger => none
  | .channelStart _ => none
  | .channelStop _ => none
  | .testPortUpdate _ => none
  | .apertureTimeout => none
  | .part _ => none
  | .region _ => none
  | .attest _ => none
  | .update _ => none
  | .service _ => none
  | .link _ => none
  | .extend _ => none
  | .log _ => none
  | .apcfg _ => none
  | .functionLevelReset => none
  | .powerOn _ => none
  | .flitRetry _ => none
  | .pathFailure _ => none
  | .peerLost _ => none
  | .syn _ => none
  | .trg _ _ => none
  | .ucieJoinFailure _ => none
  | .uncorrectableError _ => none
  | .correctableError _ => none
  | .throttling _ _ => none
  | .shutdown _ => none
  | .apertureAccess _ _ _ => none
  | .portTrained _ => none
  | .vldl m a w d => some (pack (0#6 ++ bit m) 0#5 a (BitVec.ofNat 3 w.code) d 11#7)
  | .vstl m a w d => some (pack (1#6 ++ bit m) 0#5 a (BitVec.ofNat 3 w.code) d 11#7)
  | .vldls m b a w d => some (pack (2#6 ++ bit m) b a (BitVec.ofNat 3 w.code) d 11#7)
  | .vstls m b a w d => some (pack (3#6 ++ bit m) b a (BitVec.ofNat 3 w.code) d 11#7)
  | .vld m a w d => some (pack (4#6 ++ bit m) 0#5 a (BitVec.ofNat 3 w.code) d 11#7)
  | .vst m a w d => some (pack (5#6 ++ bit m) 0#5 a (BitVec.ofNat 3 w.code) d 11#7)
  | .vadd u m b a w d => some (pack (0#1 ++ bit u ++ 0#4 ++ bit m) b a (BitVec.ofNat 3 w.code) d 83#7)
  | .vsub u m b a w d => some (pack (0#1 ++ bit u ++ 1#4 ++ bit m) b a (BitVec.ofNat 3 w.code) d 83#7)
  | .vmul u m b a w d => some (pack (0#1 ++ bit u ++ 2#4 ++ bit m) b a (BitVec.ofNat 3 w.code) d 83#7)
  | .vmulh u m b a w d => some (pack (0#1 ++ bit u ++ 3#4 ++ bit m) b a (BitVec.ofNat 3 w.code) d 83#7)
  | .vmin u m b a w d => some (pack (0#1 ++ bit u ++ 4#4 ++ bit m) b a (BitVec.ofNat 3 w.code) d 83#7)
  | .vmax u m b a w d => some (pack (0#1 ++ bit u ++ 5#4 ++ bit m) b a (BitVec.ofNat 3 w.code) d 83#7)
  | .vand u m b a w d => some (pack (0#1 ++ bit u ++ 6#4 ++ bit m) b a (BitVec.ofNat 3 w.code) d 83#7)
  | .vor u m b a w d => some (pack (0#1 ++ bit u ++ 7#4 ++ bit m) b a (BitVec.ofNat 3 w.code) d 83#7)
  | .vxor u m b a w d => some (pack (0#1 ++ bit u ++ 8#4 ++ bit m) b a (BitVec.ofNat 3 w.code) d 83#7)
  | .vshl u m b a w d => some (pack (0#1 ++ bit u ++ 9#4 ++ bit m) b a (BitVec.ofNat 3 w.code) d 83#7)
  | .vshr u m b a w d => some (pack (0#1 ++ bit u ++ 10#4 ++ bit m) b a (BitVec.ofNat 3 w.code) d 83#7)
  | .vadds u m b a w d => some (pack (0#1 ++ bit u ++ 11#4 ++ bit m) b a (BitVec.ofNat 3 w.code) d 83#7)
  | .vsubs u m b a w d => some (pack (0#1 ++ bit u ++ 12#4 ++ bit m) b a (BitVec.ofNat 3 w.code) d 83#7)
  | .vcmpeq u m b a w d => some (pack (0#1 ++ bit u ++ 13#4 ++ bit m) b a (BitVec.ofNat 3 w.code) d 83#7)
  | .vcmplt u m b a w d => some (pack (0#1 ++ bit u ++ 14#4 ++ bit m) b a (BitVec.ofNat 3 w.code) d 83#7)
  | .vcmple u m b a w d => some (pack (0#1 ++ bit u ++ 15#4 ++ bit m) b a (BitVec.ofNat 3 w.code) d 83#7)
  | .vfadd t m b a d => some (pack (1#1 ++ (BitVec.ofNat 4 t.code).extractLsb' 3 1 ++ 0#4 ++ bit m) b a ((BitVec.ofNat 4 t.code).extractLsb' 0 3) d 83#7)
  | .vfsub t m b a d => some (pack (1#1 ++ (BitVec.ofNat 4 t.code).extractLsb' 3 1 ++ 1#4 ++ bit m) b a ((BitVec.ofNat 4 t.code).extractLsb' 0 3) d 83#7)
  | .vfmul t m b a d => some (pack (1#1 ++ (BitVec.ofNat 4 t.code).extractLsb' 3 1 ++ 2#4 ++ bit m) b a ((BitVec.ofNat 4 t.code).extractLsb' 0 3) d 83#7)
  | .vfdiv t m b a d => some (pack (1#1 ++ (BitVec.ofNat 4 t.code).extractLsb' 3 1 ++ 3#4 ++ bit m) b a ((BitVec.ofNat 4 t.code).extractLsb' 0 3) d 83#7)
  | .vfmin t m b a d => some (pack (1#1 ++ (BitVec.ofNat 4 t.code).extractLsb' 3 1 ++ 4#4 ++ bit m) b a ((BitVec.ofNat 4 t.code).extractLsb' 0 3) d 83#7)
  | .vfmax t m b a d => some (pack (1#1 ++ (BitVec.ofNat 4 t.code).extractLsb' 3 1 ++ 5#4 ++ bit m) b a ((BitVec.ofNat 4 t.code).extractLsb' 0 3) d 83#7)
  | .vfma t m b a d => some (pack (1#1 ++ (BitVec.ofNat 4 t.code).extractLsb' 3 1 ++ 6#4 ++ bit m) b a ((BitVec.ofNat 4 t.code).extractLsb' 0 3) d 83#7)
  | .vfnma t m b a d => some (pack (1#1 ++ (BitVec.ofNat 4 t.code).extractLsb' 3 1 ++ 7#4 ++ bit m) b a ((BitVec.ofNat 4 t.code).extractLsb' 0 3) d 83#7)
  | .vfcmpun t m b a d => some (pack (1#1 ++ (BitVec.ofNat 4 t.code).extractLsb' 3 1 ++ 8#4 ++ bit m) b a ((BitVec.ofNat 4 t.code).extractLsb' 0 3) d 83#7)
  | .vfsqrt t m a d => some (pack (1#1 ++ (BitVec.ofNat 4 t.code).extractLsb' 3 1 ++ 9#4 ++ bit m) 0#5 a ((BitVec.ofNat 4 t.code).extractLsb' 0 3) d 83#7)
  | .vfsgnj t m b a d => some (pack (1#1 ++ (BitVec.ofNat 4 t.code).extractLsb' 3 1 ++ 10#4 ++ bit m) b a ((BitVec.ofNat 4 t.code).extractLsb' 0 3) d 83#7)
  | .vfsgnjn t m b a d => some (pack (1#1 ++ (BitVec.ofNat 4 t.code).extractLsb' 3 1 ++ 11#4 ++ bit m) b a ((BitVec.ofNat 4 t.code).extractLsb' 0 3) d 83#7)
  | .vfsgnjx t m b a d => some (pack (1#1 ++ (BitVec.ofNat 4 t.code).extractLsb' 3 1 ++ 12#4 ++ bit m) b a ((BitVec.ofNat 4 t.code).extractLsb' 0 3) d 83#7)
  | .vfcmpeq t m b a d => some (pack (1#1 ++ (BitVec.ofNat 4 t.code).extractLsb' 3 1 ++ 13#4 ++ bit m) b a ((BitVec.ofNat 4 t.code).extractLsb' 0 3) d 83#7)
  | .vfcmplt t m b a d => some (pack (1#1 ++ (BitVec.ofNat 4 t.code).extractLsb' 3 1 ++ 14#4 ++ bit m) b a ((BitVec.ofNat 4 t.code).extractLsb' 0 3) d 83#7)
  | .vfcmple t m b a d => some (pack (1#1 ++ (BitVec.ofNat 4 t.code).extractLsb' 3 1 ++ 15#4 ++ bit m) b a ((BitVec.ofNat 4 t.code).extractLsb' 0 3) d 83#7)
  | .vcvtF m b a w d => some (pack (0#6 ++ bit m) (BitVec.ofNat 5 b.code) a (BitVec.ofNat 3 w.code) d 87#7)
  | .vcvtI m b a w d => some (pack (1#6 ++ bit m) (BitVec.ofNat 5 b.code) a (BitVec.ofNat 3 w.code) d 87#7)
  | .vqnt32 m b a d => some (pack (2#6 ++ bit m) (BitVec.ofNat 5 b.code) a 0#3 d 87#7)
  | .vqnt128 m b a d => some (pack (3#6 ++ bit m) (BitVec.ofNat 5 b.code) a 0#3 d 87#7)
  | .vqnt256 m b a d => some (pack (4#6 ++ bit m) (BitVec.ofNat 5 b.code) a 0#3 d 87#7)
  | .vdqnt32 m b a d => some (pack (5#6 ++ bit m) (BitVec.ofNat 5 b.code) a 0#3 d 87#7)
  | .vdqnt128 m b a d => some (pack (6#6 ++ bit m) (BitVec.ofNat 5 b.code) a 0#3 d 87#7)
  | .vdqnt256 m b a d => some (pack (7#6 ++ bit m) (BitVec.ofNat 5 b.code) a 0#3 d 87#7)
  | .vexp2 m a w d => some (pack (8#6 ++ bit m) 0#5 a (BitVec.ofNat 3 w.code) d 87#7)
  | .vlog2 m a w d => some (pack (9#6 ++ bit m) 0#5 a (BitVec.ofNat 3 w.code) d 87#7)
  | .vrcp m a w d => some (pack (10#6 ++ bit m) 0#5 a (BitVec.ofNat 3 w.code) d 87#7)
  | .vrsqrt m a w d => some (pack (11#6 ++ bit m) 0#5 a (BitVec.ofNat 3 w.code) d 87#7)
  | .vclz m a w d => some (pack (12#6 ++ bit m) 0#5 a (BitVec.ofNat 3 w.code) d 87#7)
  | .vctz m a w d => some (pack (13#6 ++ bit m) 0#5 a (BitVec.ofNat 3 w.code) d 87#7)
  | .vffs m a w d => some (pack (14#6 ++ bit m) 0#5 a (BitVec.ofNat 3 w.code) d 87#7)
  | .vpopc m a w d => some (pack (15#6 ++ bit m) 0#5 a (BitVec.ofNat 3 w.code) d 87#7)
  | .vbcast m a w d => some (pack (16#6 ++ bit m) 0#5 a (BitVec.ofNat 3 w.code) d 87#7)
  | .vext m b a w d => some (pack (17#6 ++ bit m) b a (BitVec.ofNat 3 w.code) d 87#7)
  | .vins m b a w d => some (pack (18#6 ++ bit m) b a (BitVec.ofNat 3 w.code) d 87#7)
  | .vperm m b a w d => some (pack (19#6 ++ bit m) b a (BitVec.ofNat 3 w.code) d 87#7)
  | .vslup m b a w d => some (pack (20#6 ++ bit m) b a (BitVec.ofNat 3 w.code) d 87#7)
  | .vsldn m b a w d => some (pack (21#6 ++ bit m) b a (BitVec.ofNat 3 w.code) d 87#7)
  | .viota m w d => some (pack (22#6 ++ bit m) 0#5 0#5 (BitVec.ofNat 3 w.code) d 87#7)
  | .vmv m a w d => some (pack (23#6 ++ bit m) 0#5 a (BitVec.ofNat 3 w.code) d 87#7)
  | .vrsum m b a w d => some (pack (24#6 ++ bit m) (BitVec.ofNat 5 b.code) a (BitVec.ofNat 3 w.code) d 87#7)
  | .vrmax m b a w d => some (pack (25#6 ++ bit m) (BitVec.ofNat 5 b.code) a (BitVec.ofNat 3 w.code) d 87#7)
  | .vrmin m b a w d => some (pack (26#6 ++ bit m) (BitVec.ofNat 5 b.code) a (BitVec.ofNat 3 w.code) d 87#7)
  | .vscan m b a w d => some (pack (27#6 ++ bit m) (BitVec.ofNat 5 b.code) a (BitVec.ofNat 3 w.code) d 87#7)
  | .vpmrg b a d => some (pack 56#7 b a 0#3 d 87#7)
  | .vclaim a d => some (pack 0#7 0#5 a 0#3 d 91#7)
  | .vyield a d => some (pack 0#7 0#5 a 1#3 d 91#7)
  | .vloop n a => some (pack 0#7 (0#1 ++ n) a 2#3 0#5 91#7)
  | .vbind y k a => some (pack 0#7 (0#2 ++ bit y ++ k) a 3#3 0#5 91#7)
  | .vunbind k => some (pack 0#7 (0#3 ++ k) 0#5 4#3 0#5 91#7)
  | .vsetvl w a d => some (pack 0#7 (0#2 ++ BitVec.ofNat 3 w.code) a 5#3 d 91#7)
  | .vstat d => some (pack 0#7 0#5 0#5 6#3 d 91#7)
  | .mxmul s b a q c f => some (pack (0#6 ++ bit s) b a (bit q ++ c.extractLsb' 1 2) (c.extractLsb' 0 1 ++ BitVec.ofNat 4 f.code) 95#7)
  | .mxmulz s b a q c f => some (pack (1#6 ++ bit s) b a (bit q ++ c.extractLsb' 1 2) (c.extractLsb' 0 1 ++ BitVec.ofNat 4 f.code) 95#7)
  | .mxzero q c => some (pack 4#7 0#5 0#5 (bit q ++ c.extractLsb' 1 2) (c.extractLsb' 0 1 ++ 0#4) 95#7)
  | .mxld a q c f => some (pack 6#7 0#5 a (bit q ++ c.extractLsb' 1 2) (c.extractLsb' 0 1 ++ BitVec.ofNat 4 f.code) 95#7)
  | .mxst s a q c f => some (pack (4#6 ++ bit s) 0#5 a (bit q ++ c.extractLsb' 1 2) (c.extractLsb' 0 1 ++ BitVec.ofNat 4 f.code) 95#7)
  | .mxadd j q c => some (pack 10#7 0#5 (0#2 ++ j) (bit q ++ c.extractLsb' 1 2) (c.extractLsb' 0 1 ++ 0#4) 95#7)
  | .mxtr j q c => some (pack 12#7 0#5 (0#2 ++ j) (bit q ++ c.extractLsb' 1 2) (c.extractLsb' 0 1 ++ 0#4) 95#7)
  | .mxrel q => some (pack 14#7 0#5 0#5 (bit q ++ 0#2) 0#5 95#7)
  | .mxfence m => some (pack 16#7 0#5 (0#1 ++ m) 0#3 0#5 95#7)
  | .add u b a d => some (pack (0#4 ++ bit u ++ 0#2) b a 0#3 d 51#7)
  | .sub u b a d => some (pack (1#4 ++ bit u ++ 0#2) b a 0#3 d 51#7)
  | .mul u b a d => some (pack (2#4 ++ bit u ++ 0#2) b a 0#3 d 51#7)
  | .mulh u b a d => some (pack (3#4 ++ bit u ++ 0#2) b a 0#3 d 51#7)
  | .addx2 u b a d => some (pack (4#4 ++ bit u ++ 0#2) b a 0#3 d 51#7)
  | .addx4 u b a d => some (pack (5#4 ++ bit u ++ 0#2) b a 0#3 d 51#7)
  | .addx8 u b a d => some (pack (6#4 ++ bit u ++ 0#2) b a 0#3 d 51#7)
  | .addx16 u b a d => some (pack (7#4 ++ bit u ++ 0#2) b a 0#3 d 51#7)
  | .shl u b a d => some (pack (0#4 ++ bit u ++ 0#2) b a 1#3 d 51#7)
  | .shr u b a d => some (pack (1#4 ++ bit u ++ 0#2) b a 1#3 d 51#7)
  | .rol u b a d => some (pack (2#4 ++ bit u ++ 0#2) b a 1#3 d 51#7)
  | .ror u b a d => some (pack (3#4 ++ bit u ++ 0#2) b a 1#3 d 51#7)
  | .min u b a d => some (pack (0#4 ++ bit u ++ 0#2) b a 2#3 d 51#7)
  | .max u b a d => some (pack (1#4 ++ bit u ++ 0#2) b a 2#3 d 51#7)
  | .div u b a d => some (pack (0#4 ++ bit u ++ 0#2) b a 3#3 d 51#7)
  | .rem u b a d => some (pack (1#4 ++ bit u ++ 0#2) b a 3#3 d 51#7)
  | .and u b a d => some (pack (0#4 ++ bit u ++ 0#2) b a 4#3 d 51#7)
  | .or u b a d => some (pack (1#4 ++ bit u ++ 0#2) b a 4#3 d 51#7)
  | .xor u b a d => some (pack (2#4 ++ bit u ++ 0#2) b a 4#3 d 51#7)
  | .andn u b a d => some (pack (3#4 ++ bit u ++ 0#2) b a 4#3 d 51#7)
  | .orn u b a d => some (pack (4#4 ++ bit u ++ 0#2) b a 4#3 d 51#7)
  | .xnor u b a d => some (pack (5#4 ++ bit u ++ 0#2) b a 4#3 d 51#7)
  | .clz u a d => some (pack (0#4 ++ bit u ++ 0#2) 0#5 a 5#3 d 51#7)
  | .ctz u a d => some (pack (0#4 ++ bit u ++ 0#2) 1#5 a 5#3 d 51#7)
  | .ffs u a d => some (pack (0#4 ++ bit u ++ 0#2) 2#5 a 5#3 d 51#7)
  | .popc u a d => some (pack (0#4 ++ bit u ++ 0#2) 3#5 a 5#3 d 51#7)
  | .brev u a d => some (pack (0#4 ++ bit u ++ 0#2) 4#5 a 5#3 d 51#7)
  | .bswap u a d => some (pack (0#4 ++ bit u ++ 0#2) 5#5 a 5#3 d 51#7)
  | .addW u w b a d => some (pack (0#4 ++ bit u ++ BitVec.ofNat 2 w.code) b a 0#3 d 59#7)
  | .subW u w b a d => some (pack (1#4 ++ bit u ++ BitVec.ofNat 2 w.code) b a 0#3 d 59#7)
  | .mulW u w b a d => some (pack (2#4 ++ bit u ++ BitVec.ofNat 2 w.code) b a 0#3 d 59#7)
  | .mulhW u w b a d => some (pack (3#4 ++ bit u ++ BitVec.ofNat 2 w.code) b a 0#3 d 59#7)
  | .addx2W u w b a d => some (pack (4#4 ++ bit u ++ BitVec.ofNat 2 w.code) b a 0#3 d 59#7)
  | .addx4W u w b a d => some (pack (5#4 ++ bit u ++ BitVec.ofNat 2 w.code) b a 0#3 d 59#7)
  | .addx8W u w b a d => some (pack (6#4 ++ bit u ++ BitVec.ofNat 2 w.code) b a 0#3 d 59#7)
  | .addx16W u w b a d => some (pack (7#4 ++ bit u ++ BitVec.ofNat 2 w.code) b a 0#3 d 59#7)
  | .shlW u w b a d => some (pack (0#4 ++ bit u ++ BitVec.ofNat 2 w.code) b a 1#3 d 59#7)
  | .shrW u w b a d => some (pack (1#4 ++ bit u ++ BitVec.ofNat 2 w.code) b a 1#3 d 59#7)
  | .rolW u w b a d => some (pack (2#4 ++ bit u ++ BitVec.ofNat 2 w.code) b a 1#3 d 59#7)
  | .rorW u w b a d => some (pack (3#4 ++ bit u ++ BitVec.ofNat 2 w.code) b a 1#3 d 59#7)
  | .minW u w b a d => some (pack (0#4 ++ bit u ++ BitVec.ofNat 2 w.code) b a 2#3 d 59#7)
  | .maxW u w b a d => some (pack (1#4 ++ bit u ++ BitVec.ofNat 2 w.code) b a 2#3 d 59#7)
  | .divW u w b a d => some (pack (0#4 ++ bit u ++ BitVec.ofNat 2 w.code) b a 3#3 d 59#7)
  | .remW u w b a d => some (pack (1#4 ++ bit u ++ BitVec.ofNat 2 w.code) b a 3#3 d 59#7)
  | .andW u w b a d => some (pack (0#4 ++ bit u ++ BitVec.ofNat 2 w.code) b a 4#3 d 59#7)
  | .orW u w b a d => some (pack (1#4 ++ bit u ++ BitVec.ofNat 2 w.code) b a 4#3 d 59#7)
  | .xorW u w b a d => some (pack (2#4 ++ bit u ++ BitVec.ofNat 2 w.code) b a 4#3 d 59#7)
  | .andnW u w b a d => some (pack (3#4 ++ bit u ++ BitVec.ofNat 2 w.code) b a 4#3 d 59#7)
  | .ornW u w b a d => some (pack (4#4 ++ bit u ++ BitVec.ofNat 2 w.code) b a 4#3 d 59#7)
  | .xnorW u w b a d => some (pack (5#4 ++ bit u ++ BitVec.ofNat 2 w.code) b a 4#3 d 59#7)
  | .clzW u w a d => some (pack (0#4 ++ bit u ++ BitVec.ofNat 2 w.code) 0#5 a 5#3 d 59#7)
  | .ctzW u w a d => some (pack (0#4 ++ bit u ++ BitVec.ofNat 2 w.code) 1#5 a 5#3 d 59#7)
  | .ffsW u w a d => some (pack (0#4 ++ bit u ++ BitVec.ofNat 2 w.code) 2#5 a 5#3 d 59#7)
  | .popcW u w a d => some (pack (0#4 ++ bit u ++ BitVec.ofNat 2 w.code) 3#5 a 5#3 d 59#7)
  | .brevW u w a d => some (pack (0#4 ++ bit u ++ BitVec.ofNat 2 w.code) 4#5 a 5#3 d 59#7)
  | .bswapW u w a d => some (pack (0#4 ++ bit u ++ BitVec.ofNat 2 w.code) 5#5 a 5#3 d 59#7)
  | .addi i a d => some (pack (i.extractLsb' 5 7) (i.extractLsb' 0 5) a 0#3 d 19#7)
  | .shli s a d => some (pack (0#6 ++ s.extractLsb' 5 1) (s.extractLsb' 0 5) a 1#3 d 19#7)
  | .shriN s a d => some (pack (1#6 ++ s.extractLsb' 5 1) (s.extractLsb' 0 5) a 1#3 d 19#7)
  | .shriI s a d => some (pack (2#6 ++ s.extractLsb' 5 1) (s.extractLsb' 0 5) a 1#3 d 19#7)
  | .roli s a d => some (pack (3#6 ++ s.extractLsb' 5 1) (s.extractLsb' 0 5) a 1#3 d 19#7)
  | .rori s a d => some (pack (4#6 ++ s.extractLsb' 5 1) (s.extractLsb' 0 5) a 1#3 d 19#7)
  | .bfxN p l a d => some (pack (p ++ l.extractLsb' 5 1) (l.extractLsb' 0 5) a 2#3 d 19#7)
  | .bfxI p l a d => some (pack (p ++ l.extractLsb' 5 1) (l.extractLsb' 0 5) a 3#3 d 19#7)
  | .xori i a d => some (pack (i.extractLsb' 5 7) (i.extractLsb' 0 5) a 4#3 d 19#7)
  | .bfi p l a d => some (pack (p ++ l.extractLsb' 5 1) (l.extractLsb' 0 5) a 5#3 d 19#7)
  | .ori i a d => some (pack (i.extractLsb' 5 7) (i.extractLsb' 0 5) a 6#3 d 19#7)
  | .andi i a d => some (pack (i.extractLsb' 5 7) (i.extractLsb' 0 5) a 7#3 d 19#7)
  | .addiW i a u w d => some (pack (i.extractLsb' 5 7) (i.extractLsb' 0 5) a (bit u ++ BitVec.ofNat 2 w.code) d 27#7)
  | .lim i d => some (pack (i.extractLsb' 13 7) (i.extractLsb' 8 5) (i.extractLsb' 3 5) (i.extractLsb' 0 3) d 55#7)
  | .pcadd i d => some (pack (i.extractLsb' 13 7) (i.extractLsb' 8 5) (i.extractLsb' 3 5) (i.extractLsb' 0 3) d 23#7)
  | .fadd t b a d => some (pack (0#5 ++ BitVec.ofNat 2 t.code) b a 0#3 d 71#7)
  | .fsub t b a d => some (pack (1#5 ++ BitVec.ofNat 2 t.code) b a 0#3 d 71#7)
  | .fmul t b a d => some (pack (2#5 ++ BitVec.ofNat 2 t.code) b a 0#3 d 71#7)
  | .fdiv t b a d => some (pack (3#5 ++ BitVec.ofNat 2 t.code) b a 0#3 d 71#7)
  | .fsqrt t a d => some (pack (4#5 ++ BitVec.ofNat 2 t.code) 0#5 a 0#3 d 71#7)
  | .fmin t b a d => some (pack (5#5 ++ BitVec.ofNat 2 t.code) b a 0#3 d 71#7)
  | .fmax t b a d => some (pack (6#5 ++ BitVec.ofNat 2 t.code) b a 0#3 d 71#7)
  | .fsgnj t b a d => some (pack (7#5 ++ BitVec.ofNat 2 t.code) b a 0#3 d 71#7)
  | .fsgnjn t b a d => some (pack (7#5 ++ BitVec.ofNat 2 t.code) b a 1#3 d 71#7)
  | .fsgnjx t b a d => some (pack (7#5 ++ BitVec.ofNat 2 t.code) b a 2#3 d 71#7)
  | .fcvtFloatToFloat t b a d => some (pack (8#5 ++ BitVec.ofNat 2 t.code) (BitVec.ofNat 5 b.code) a 0#3 d 71#7)
  | .fcvtFloatToInteger t b a d => some (pack (9#5 ++ BitVec.ofNat 2 t.code) (BitVec.ofNat 5 b.code) a 0#3 d 71#7)
  | .fcvtIntegerToFloat t b a d => some (pack (10#5 ++ BitVec.ofNat 2 t.code) (BitVec.ofNat 5 b.code) a 0#3 d 71#7)
  | .fclass t a d => some (pack (11#5 ++ BitVec.ofNat 2 t.code) 0#5 a 0#3 d 71#7)
  | .fmadd c t b a d => some (pack (c ++ BitVec.ofNat 2 t.code) b a 0#3 d 67#7)
  | .fmsub c t b a d => some (pack (c ++ BitVec.ofNat 2 t.code) b a 1#3 d 67#7)
  | .fnmsub c t b a d => some (pack (c ++ BitVec.ofNat 2 t.code) b a 2#3 d 67#7)
  | .fnmadd c t b a d => some (pack (c ++ BitVec.ofNat 2 t.code) b a 3#3 d 67#7)
  | .cmpeq u w b a d => some (pack (0#4 ++ bit u ++ BitVec.ofNat 2 w.code) b a 0#3 ((0#2 ++ d)) 75#7)
  | .cmpne u w b a d => some (pack (1#4 ++ bit u ++ BitVec.ofNat 2 w.code) b a 0#3 ((0#2 ++ d)) 75#7)
  | .cmplt u w b a d => some (pack (2#4 ++ bit u ++ BitVec.ofNat 2 w.code) b a 0#3 ((0#2 ++ d)) 75#7)
  | .cmpge u w b a d => some (pack (3#4 ++ bit u ++ BitVec.ofNat 2 w.code) b a 0#3 ((0#2 ++ d)) 75#7)
  | .fcmpeq t b a d => some (pack (0#5 ++ BitVec.ofNat 2 t.code) b a 2#3 ((0#2 ++ d)) 75#7)
  | .fcmpne t b a d => some (pack (1#5 ++ BitVec.ofNat 2 t.code) b a 2#3 ((0#2 ++ d)) 75#7)
  | .fcmplt t b a d => some (pack (2#5 ++ BitVec.ofNat 2 t.code) b a 2#3 ((0#2 ++ d)) 75#7)
  | .fcmple t b a d => some (pack (3#5 ++ BitVec.ofNat 2 t.code) b a 2#3 ((0#2 ++ d)) 75#7)
  | .fcmpun t b a d => some (pack (4#5 ++ BitVec.ofNat 2 t.code) b a 2#3 ((0#2 ++ d)) 75#7)
  | .pand b a d => some (pack 0#7 ((0#2 ++ b)) ((0#2 ++ a)) 3#3 ((0#2 ++ d)) 75#7)
  | .por b a d => some (pack 1#7 ((0#2 ++ b)) ((0#2 ++ a)) 3#3 ((0#2 ++ d)) 75#7)
  | .pxor b a d => some (pack 2#7 ((0#2 ++ b)) ((0#2 ++ a)) 3#3 ((0#2 ++ d)) 75#7)
  | .pandn b a d => some (pack 3#7 ((0#2 ++ b)) ((0#2 ++ a)) 3#3 ((0#2 ++ d)) 75#7)
  | .pnot a d => some (pack 4#7 0#5 ((0#2 ++ a)) 3#3 ((0#2 ++ d)) 75#7)
  | .ppack d => some (pack 0#7 0#5 0#5 4#3 d 75#7)
  | .punpack m a => some (pack m 0#5 a 5#3 0#5 75#7)
  | .sel n b a d => some (pack (0#4 ++ n) b a 6#3 d 75#7)
  | .ttest a d => some (pack 0#7 0#5 a 7#3 ((0#2 ++ d)) 75#7)
  | .beq i b a => some (pack (i.extractLsb' 5 7) b a 0#3 (i.extractLsb' 0 5) 99#7)
  | .bne i b a => some (pack (i.extractLsb' 5 7) b a 1#3 (i.extractLsb' 0 5) 99#7)
  | .blt i b a => some (pack (i.extractLsb' 5 7) b a 2#3 (i.extractLsb' 0 5) 99#7)
  | .bge i b a => some (pack (i.extractLsb' 5 7) b a 3#3 (i.extractLsb' 0 5) 99#7)
  | .bltu i b a => some (pack (i.extractLsb' 5 7) b a 4#3 (i.extractLsb' 0 5) 99#7)
  | .bgeu i b a => some (pack (i.extractLsb' 5 7) b a 5#3 (i.extractLsb' 0 5) 99#7)
  | .bp i a => some (pack (i.extractLsb' 5 7) 0#5 ((0#2 ++ a)) 6#3 (i.extractLsb' 0 5) 99#7)
  | .bnp i a => some (pack (i.extractLsb' 5 7) 0#5 ((0#2 ++ a)) 7#3 (i.extractLsb' 0 5) 99#7)
  | .jal i d => some (pack (i.extractLsb' 13 7) (i.extractLsb' 8 5) (i.extractLsb' 3 5) (i.extractLsb' 0 3) d 111#7)
  | .jalr i a d => some (pack (i.extractLsb' 5 7) (i.extractLsb' 0 5) a 0#3 d 103#7)
  | .svc i => some (pack (i.extractLsb' 5 7) (i.extractLsb' 0 5) 0#5 0#3 0#5 115#7)
  | .csrrw c a d => some (pack (c.extractLsb' 5 7) (c.extractLsb' 0 5) a 1#3 d 115#7)
  | .csrrs c a d => some (pack (c.extractLsb' 5 7) (c.extractLsb' 0 5) a 2#3 d 115#7)
  | .csrrc c a d => some (pack (c.extractLsb' 5 7) (c.extractLsb' 0 5) a 3#3 d 115#7)
  | .brk i => some (pack (i.extractLsb' 5 7) (i.extractLsb' 0 5) 0#5 4#3 0#5 115#7)
  | .frame i d => some (pack (i.extractLsb' 5 7) (i.extractLsb' 0 5) 0#5 5#3 d 115#7)
  | .tret => some (pack 0#7 0#5 0#5 6#3 0#5 115#7)
  | .waiti => some (pack 0#7 1#5 0#5 6#3 0#5 115#7)
  | .smc => some (pack 0#7 2#5 0#5 6#3 0#5 115#7)
  | .fmtp a b d r s => some (pack (pfmtCode a ++ (pfmtCode b).extractLsb' 3 2) ((pfmtCode b).extractLsb' 0 3 ++ (pfmtCode d).extractLsb' 3 2) ((pfmtCode d).extractLsb' 0 3 ++ (prmCode r).extractLsb' 1 2) ((prmCode r).extractLsb' 0 1 ++ psatCode s) 0#5 31#7)
  | .wait l s c m v => some (pack (l ++ s.extractLsb' 3 2) (s.extractLsb' 0 3 ++ c.extractLsb' 3 2) (c.extractLsb' 0 3 ++ m.extractLsb' 3 2) (m.extractLsb' 0 3) v 123#7)
  | .ld i a t d => some (pack (i.extractLsb' 5 7) (i.extractLsb' 0 5) a (BitVec.ofNat 3 t.code) d 3#7)
  | .st i b a t => some (pack (i.extractLsb' 5 7) b a (0#1 ++ BitVec.ofNat 2 t.code) (i.extractLsb' 0 5) 35#7)
  | .ldl i a t d => some (pack (i.extractLsb' 5 7) (i.extractLsb' 0 5) a (BitVec.ofNat 3 t.code) d 7#7)
  | .stl i b a t => some (pack (i.extractLsb' 5 7) b a (0#1 ++ BitVec.ofNat 2 t.code) (i.extractLsb' 0 5) 39#7)
  | .ldftN32 o a d => some (pack (0#4 ++ o.extractLsb' 5 3) (o.extractLsb' 0 5) a 7#3 d 7#7)
  | .ldftI32 o a d => some (pack (1#4 ++ o.extractLsb' 5 3) (o.extractLsb' 0 5) a 7#3 d 7#7)
  | .ldftN64 o a d => some (pack (2#4 ++ o.extractLsb' 5 3) (o.extractLsb' 0 5) a 7#3 d 7#7)
  | .ldfpN32 o a d => some (pack (3#4 ++ o.extractLsb' 5 3) (o.extractLsb' 0 5) a 7#3 d 7#7)
  | .ldfpI32 o a d => some (pack (4#4 ++ o.extractLsb' 5 3) (o.extractLsb' 0 5) a 7#3 d 7#7)
  | .ldfpN64 o a d => some (pack (5#4 ++ o.extractLsb' 5 3) (o.extractLsb' 0 5) a 7#3 d 7#7)
  | .bldPointer g l d => some (pack (24#6 ++ bit g) l 0#5 7#3 d 7#7)
  | .bldRegister g l a d => some (pack (28#6 ++ bit g) l a 7#3 d 7#7)
  | .stfpN32 o b a => some (pack (0#2 ++ o.extractLsb' 5 5) b a 4#3 (o.extractLsb' 0 5) 39#7)
  | .stfpN64 o b a => some (pack (1#2 ++ o.extractLsb' 5 5) b a 4#3 (o.extractLsb' 0 5) 39#7)
  | .stffN32 o b a => some (pack (2#2 ++ o.extractLsb' 5 5) b a 4#3 (o.extractLsb' 0 5) 39#7)
  | .stffN64 o b a => some (pack (3#2 ++ o.extractLsb' 5 5) b a 4#3 (o.extractLsb' 0 5) 39#7)
  | .mkeN32 o a => some (pack (0#2 ++ o.extractLsb' 5 5) 0#5 a 5#3 (o.extractLsb' 0 5) 39#7)
  | .mkeN64 o a => some (pack (1#2 ++ o.extractLsb' 5 5) 0#5 a 5#3 (o.extractLsb' 0 5) 39#7)
  | .bstPointer b l => some (pack 0#7 b 0#5 6#3 l 39#7)
  | .bstRegister b a l => some (pack 64#7 b a 6#3 l 39#7)
  | .fenceRel s => some (pack 0#7 (0#2 ++ BitVec.ofNat 3 s.code) 0#5 0#3 0#5 15#7)
  | .fenceAcq s => some (pack 0#7 (0#2 ++ BitVec.ofNat 3 s.code) 0#5 1#3 0#5 15#7)
  | .fenceFull s => some (pack 0#7 (0#2 ++ BitVec.ofNat 3 s.code) 0#5 2#3 0#5 15#7)
  | .amswap f b a t d => some (pack (0#5 ++ BitVec.ofNat 2 f.code) b a (BitVec.ofNat 3 t.code) d 43#7)
  | .amcas f b a t d => some (pack (1#5 ++ BitVec.ofNat 2 f.code) b a (BitVec.ofNat 3 t.code) d 43#7)
  | .amadd f b a t d => some (pack (2#5 ++ BitVec.ofNat 2 f.code) b a (BitVec.ofNat 3 t.code) d 43#7)
  | .ammin f b a t d => some (pack (3#5 ++ BitVec.ofNat 2 f.code) b a (BitVec.ofNat 3 t.code) d 43#7)
  | .ammax f b a t d => some (pack (4#5 ++ BitVec.ofNat 2 f.code) b a (BitVec.ofNat 3 t.code) d 43#7)
  | .amand f b a t d => some (pack (5#5 ++ BitVec.ofNat 2 f.code) b a (BitVec.ofNat 3 t.code) d 43#7)
  | .amor f b a t d => some (pack (6#5 ++ BitVec.ofNat 2 f.code) b a (BitVec.ofNat 3 t.code) d 43#7)
  | .amxor f b a t d => some (pack (7#5 ++ BitVec.ofNat 2 f.code) b a (BitVec.ofNat 3 t.code) d 43#7)
  | .ldsc b a t d => some (pack 35#7 b a (BitVec.ofNat 3 t.code) d 43#7)
  | .stsc b a t d => some (pack 39#7 b a (BitVec.ofNat 3 t.code) d 43#7)
  | .vstore b a d => some (pack 0#7 b a 0#3 d 47#7)
  | .vopen b a => some (pack 1#7 b a 0#3 0#5 47#7)
  | .vput b a p d => some (pack 2#7 b a p d 47#7)
  | .vseal b a => some (pack 3#7 b a 0#3 0#5 47#7)
  | .vget b a d => some (pack 4#7 b a 0#3 d 47#7)
  | .vretain b a => some (pack 5#7 b a 0#3 0#5 47#7)
  | .vrelease b a => some (pack 6#7 b a 0#3 0#5 47#7)
  | .vdrop b a => some (pack 7#7 b a 0#3 0#5 47#7)
  | .vquery b a d => some (pack 8#7 b a 0#3 d 47#7)
  | .cpg b a d => some (pack 0#7 b a 0#3 d 63#7)
  | .cpl b a d => some (pack 1#7 b a 0#3 d 63#7)
  | .cpm b a d => some (pack 2#7 b a 0#3 d 63#7)
  | .rld a t d => some (pack 3#7 0#5 a (BitVec.ofNat 3 t.code) d 63#7)
  | .rst b a t => some (pack 4#7 b a (BitVec.ofNat 3 t.code) 0#5 63#7)
  | .rstf b a w => some (pack 5#7 b a (1#2 ++ bit w) 0#5 63#7)
  | .barm b a => some (pack 6#7 b a 0#3 0#5 63#7)
  | .barr b a => some (pack 7#7 b a 0#3 0#5 63#7)
  | .bwait b a => some (pack 8#7 b a 0#3 0#5 63#7)
  | .rarr b a => some (pack 9#7 b a 0#3 0#5 63#7)
  | .ramswap b a t d => some (pack 16#7 b a (0#1 ++ BitVec.ofNat 2 t.code) d 63#7)
  | .ramadd b a t d => some (pack 17#7 b a (0#1 ++ BitVec.ofNat 2 t.code) d 63#7)
  | .ramand b a t d => some (pack 18#7 b a (0#1 ++ BitVec.ofNat 2 t.code) d 63#7)
  | .ramor b a t d => some (pack 19#7 b a (0#1 ++ BitVec.ofNat 2 t.code) d 63#7)
  | .ramxor b a t d => some (pack 20#7 b a (0#1 ++ BitVec.ofNat 2 t.code) d 63#7)
  | .rammin b a t d => some (pack 21#7 b a (0#1 ++ BitVec.ofNat 2 t.code) d 63#7)
  | .rammax b a t d => some (pack 22#7 b a (0#1 ++ BitVec.ofNat 2 t.code) d 63#7)
  | .rbst l b a => some (pack (1#2 ++ l) b a 0#3 0#5 63#7)
  | .spawn b a d => some (pack 0#7 b a 0#3 d 107#7)
  | .join a d => some (pack 1#7 0#5 a 0#3 d 107#7)
  | .tend => some (pack 2#7 0#5 0#5 0#3 0#5 107#7)
  | .yield => some (pack 3#7 0#5 0#5 0#3 0#5 107#7)
  | .msend b a => some (pack 0#7 b a 0#3 0#5 79#7)
  | .amsg b a d => some (pack 1#7 b a 0#3 d 79#7)
  | .mrecv a d => some (pack 2#7 0#5 a 0#3 d 79#7)
  | .waitmsg d => some (pack 3#7 0#5 0#5 0#3 d 79#7)
  | .slaunch a d => some (pack 0#7 0#5 a 0#3 d 119#7)
  | .ssync => some (pack 1#7 0#5 0#5 0#3 0#5 119#7)
  | .srfence b a => some (pack 2#7 b a 0#3 0#5 119#7)
  | .sbind b a => some (pack 3#7 b a 0#3 0#5 119#7)
  | .sname a d => some (pack 4#7 0#5 a 0#3 d 119#7)
  | .sstat d => some (pack 5#7 0#5 0#5 0#3 d 119#7)
  | .svec b a => some (pack 6#7 b a 0#3 0#5 119#7)
  | .sresume a => some (pack 7#7 0#5 a 0#3 0#5 119#7)
  | .sabandon a => some (pack 8#7 0#5 a 0#3 0#5 119#7)

end Sys2Proof
end

