-- ==== Sys2Proof/Machine/Float.lean ====
section
/-! DEFINITION. Numbers and rounding (R148 to R174): values of the formats, exact results, the one rounding of an exact result to
a format, conversions, and the functions that round once. An exact result that is not dyadic (a quotient, a root, a power or a
logarithm) is held as the function that gives its magnitude times a power of two, rounded down, and whether that is exact. -/

namespace Sys2Proof.Machine

/-- Exceptions of R159 as bits 8–12 of rnd in order: NV, DZ, OF, UF, NX. -/
abbrev Exc := BitVec 5
def xNV : Exc := 1
def xDZ : Exc := 2
def xOF : Exc := 4
def xUF : Exc := 8
def xNX : Exc := 16

/-- The parameters of a floating-point format (R148, R149). -/
structure FloatFmt where
  w : Nat
  m : Nat
  bias : Nat
  /-- It has infinities and NaNs. -/
  ieee : Bool
  /-- The encoding of its largest finite magnitude. -/
  maxEnc : Nat

/-- The parameters of a format code (R149); E8M0 and the integers are treated apart. -/
def floatFmt : Fmt → FloatFmt
  | .f64 => ⟨64, 52, 1023, true, 0x7FEFFFFFFFFFFFFF⟩
  | .f32 => ⟨32, 23, 127, true, 0x7F7FFFFF⟩
  | .f16 => ⟨16, 10, 15, true, 0x7BFF⟩
  | .bf16 => ⟨16, 7, 127, true, 0x7F7F⟩
  | .e5m2 => ⟨8, 2, 15, true, 0x7B⟩
  | .e4m3 => ⟨8, 3, 7, false, 0x7E⟩
  | .e3m2 => ⟨6, 2, 3, false, 0x1F⟩
  | .e2m3 => ⟨6, 3, 1, false, 0x1F⟩
  | .e2m1 => ⟨4, 1, 1, false, 0x7⟩
  | _ => ⟨8, 0, 127, false, 0xFE⟩

/-- A value of a format: a NaN (signalling or not, with its sign), an infinity, a zero, or ± m × 2^e with m > 0. -/
inductive FVal where
  | nan (snan neg : Bool) | inf (neg : Bool) | zero (neg : Bool) | fin (neg : Bool) (m : Nat) (e : Int)
  deriving DecidableEq, Repr

/-- The value of an encoding (R148, R151, R152). -/
def decodeFloat (f : Fmt) (b : Nat) : FVal :=
  if f = .e8m0 then (if b % 256 = 255 then .nan false false else .fin false 1 ((b % 256 : Nat) - 127 : Int))
  else
    let p := floatFmt f
    let neg := b / 2 ^ (p.w - 1) % 2 = 1
    let ef := b / 2 ^ p.m % 2 ^ (p.w - 1 - p.m)
    let mf := b % 2 ^ p.m
    let top := ef = 2 ^ (p.w - 1 - p.m) - 1
    if ef = 0 then (if mf = 0 then .zero neg else .fin neg mf (1 - p.bias - p.m : Int))
    else if top && p.ieee then (if mf = 0 then .inf neg else .nan (mf < 2 ^ (p.m - 1)) neg)
    else if top && f = .e4m3 && mf = 7 then .nan false neg
    else .fin neg (2 ^ p.m + mf) ((ef : Int) - p.bias - p.m)

/-- The encoding of a sign and a magnitude. -/
def withSign (f : Fmt) (neg : Bool) (mag : Nat) : Nat := if neg then 2 ^ ((floatFmt f).w - 1) + mag else mag

/-- The canonical NaN of a format (R149, R151); a format without NaNs has none. -/
def canonNan : Fmt → Nat
  | .f64 => 0x7FF8000000000000 | .f32 => 0x7FC00000 | .f16 => 0x7E00 | .bf16 => 0x7FC0 | .e5m2 => 0x7E | .e4m3 => 0x7F
  | .e8m0 => 0xFF | _ => 0

/-- An exact non-zero magnitude: ⌊log2⌋ of it, and ⌊magnitude × 2^k⌋ with whether that is exact. -/
structure Exact where
  mag : Int
  fl  : Int → Nat × Bool

/-- m × 2^s rounded down. -/
def shiftFloor (m : Nat) (s : Int) : Nat × Bool :=
  if 0 ≤ s then (m * 2 ^ s.toNat, true) else (m / 2 ^ (-s).toNat, m % 2 ^ (-s).toNat == 0)

/-- m × 2^e, m > 0. -/
def Exact.dyadic (m : Nat) (e : Int) : Exact := ⟨m.log2 + e, fun k => shiftFloor m (e + k)⟩

/-- (m1 × 2^e1) / (m2 × 2^e2). -/
def Exact.quot (m1 : Nat) (e1 : Int) (m2 : Nat) (e2 : Int) : Exact :=
  let d : Int := m1.log2 - m2.log2
  let ge : Bool := if 0 ≤ d then m2 * 2 ^ d.toNat ≤ m1 else m2 ≤ m1 * 2 ^ (-d).toNat
  ⟨(if ge then d else d - 1) + e1 - e2, fun k =>
    let s := k + e1 - e2
    if 0 ≤ s then (m1 * 2 ^ s.toNat / m2, m1 * 2 ^ s.toNat % m2 == 0)
    else (m1 / (m2 * 2 ^ (-s).toNat), m1 % (m2 * 2 ^ (-s).toNat) == 0)⟩

/-- ⌊√n⌋ by digits: r is the root of the leading part, i digits are still to come. -/
def isqrtGo (n : Nat) : Nat → Nat → Nat
  | 0, r => r
  | i + 1, r => let t := r + 2 ^ i; isqrtGo n i (if t * t ≤ n then t else r)

/-- ⌊√n⌋. -/
def isqrt (n : Nat) : Nat := isqrtGo n (n.log2 / 2 + 1) 0

/-- √(m × 2^e). -/
def Exact.root (m : Nat) (e : Int) : Exact :=
  ⟨(m.log2 + e) / 2, fun k =>
    let (n, ex) := shiftFloor m (e + 2 * k)
    (isqrt n, ex && isqrt n * isqrt n == n)⟩

/-- 1 / √(m × 2^e). -/
def Exact.invRoot (m : Nat) (e : Int) : Exact :=
  let l : Int := m.log2 + e
  ⟨(if 2 ^ m.log2 = m then -l else -l - 1) / 2, fun k =>
    let s := 2 * k - e
    if s < 0 then (0, false)
    else let n := 2 ^ s.toNat / m; (isqrt n, 2 ^ s.toNat % m == 0 && isqrt n * isqrt n == n)⟩

/-- Bounds of 2^(b1/2 + b2/4 + …) × 2^p for binary digits bs, by square roots of 2 rounded down and up: lo and hi bound
2^(1/2^i) × 2^p for the digit before the first. -/
def exp2Bounds (p : Nat) : List Bool → Nat → Nat → Nat → Nat → Nat × Nat
  | [], _, _, al, ah => (al, ah)
  | b :: bs, lo, hi, al, ah =>
    let lo' := isqrt (lo * 2 ^ p)
    let hi' := isqrt (hi * 2 ^ p) + 1
    if b then exp2Bounds p bs lo' hi' (al * lo' / 2 ^ p) (ah * hi' / 2 ^ p + 1) else exp2Bounds p bs lo' hi' al ah

/-- ⌊2^(n/2^j) × 2^k⌋ for 0 < n < 2^j by its definition: j square roots. -/
def exp2Floor (n j k : Nat) : Nat := (List.range j).foldl (fun x _ => isqrt x) (2 ^ (n + k * 2 ^ j))

/-- The same by bounds at precision p: the binary digits of n / 2^j past p change a factor by less than 2^-p. -/
def exp2Try (n j k : Nat) : Nat → Nat → Nat
  | 0, _ => exp2Floor n j k
  | fuel + 1, p =>
    let bits : List Bool := (List.range (min j (p + 8))).map fun i => n / 2 ^ (j - 1 - i) % 2 == 1
    let (al, ah) := exp2Bounds p bits (2 * 2 ^ p) (2 * 2 ^ p) (2 ^ p) (2 ^ p)
    let ah := if j ≤ p + 8 then ah else ah * (2 ^ p + 1) / 2 ^ p + 1
    let l := al * 2 ^ k / 2 ^ p
    if l = ah * 2 ^ k / 2 ^ p then l else exp2Try n j k fuel (2 * p)

/-- 2^x for x = ± m × 2^e that is not an integer: i the integer part rounded down, n / 2^j the rest. -/
def Exact.exp2 (i : Int) (n j : Nat) : Exact :=
  ⟨i, fun k => let s := i + k; if s < 0 then (0, false) else (exp2Try n j s.toNat 6 (s.toNat + 96), false)⟩

/-- Binary digits of log2 of y, 1 ≤ y < 2, between bounds scaled by 2^p: the digits on which the bounds agree. -/
def log2Digits (p : Nat) : Nat → Nat → Nat → Nat → Option Nat
  | 0, _, _, acc => some acc
  | k + 1, lo, hi, acc =>
    let l := lo * lo / 2 ^ p
    let h := hi * hi / 2 ^ p + 1
    if 2 * 2 ^ p ≤ l then log2Digits p k (l / 2) (h / 2 + 1) (2 * acc + 1)
    else if h < 2 * 2 ^ p then log2Digits p k l h (2 * acc)
    else none

/-- ⌊log2(m / 2^⌊log2 m⌋) × 2^k⌋ for m that is no power of two: by digits, or by its definition. -/
def log2Try (m k : Nat) : Nat → Nat → Nat
  | 0, _ => (m ^ 2 ^ k).log2 - m.log2 * 2 ^ k
  | fuel + 1, p =>
    let y := m * 2 ^ p / 2 ^ m.log2
    match log2Digits p k y (y + 1) 0 with
    | some a => a
    | none => log2Try m k fuel (2 * p)

/-- ⌊|log2(m × 2^e)| × 2^k⌋ for a value that is no power of two, by its integer part i = ⌊log2⌋. -/
def log2Abs (m : Nat) (i : Int) (k : Nat) : Nat :=
  let f := log2Try m k 6 (2 * k + 96)
  if 0 ≤ i then i.toNat * 2 ^ k + f else (-i).toNat * 2 ^ k - f - 1

/-- |log2(m × 2^e)| for a value that is no power of two. -/
def Exact.log2 (m : Nat) (e : Int) : Exact :=
  let i : Int := m.log2 + e
  ⟨((log2Abs m i 192).log2 : Int) - 192, fun k => if k < 0 then (log2Abs m i 0 / 2 ^ (-k).toNat, false)
    else (log2Abs m i k.toNat, false)⟩

/-- How one rounding is made (R157, R161): mode, saturation and the draw of mode SR. -/
structure Rounding where
  mode : RMode
  sat  : Bool := false
  draw : BitVec 32 := 0

/-- Round to nearest even with no saturation. -/
def rne : Rounding := { mode := .rne }

/-- A magnitude rounded to a multiple of 2^-k under a mode: the count of that unit, whether it is inexact, and whether the larger
neighbour was taken (R157, R161). `odd` tells of a count whether RNE leaves it on a tie. -/
def roundUnit (r : Rounding) (neg : Bool) (x : Exact) (k : Int) (odd : Nat → Bool := fun n => n % 2 == 1) : Nat × Bool × Bool :=
  let (n, ex) := x.fl (k + 33)
  let q := n / 2 ^ 33
  let fr := n % 2 ^ 33
  let inexact := !(fr == 0 && ex)
  let half := 2 ^ 32
  let up := match r.mode with
    | .rne => half < fr || (fr == half && (!ex || odd q))
    | .rna => half ≤ fr
    | .rtz => false
    | .rdn => neg && inexact
    | .rup => !neg && inexact
    | .sr => r.draw.toNat < fr / 2
  (if up && inexact then q + 1 else q, inexact, up && inexact)

/-- The largest finite magnitude or infinity of an overflow, by mode (R157): in mode SR as RTZ or as RNA (R161), and as RTZ where the value
has the target's precision, so that neither neighbour is drawn (log 67). -/
def overflowInf (r : Rounding) (neg up : Bool) : Bool :=
  match r.mode with
  | .rne | .rna => true
  | .rtz => false
  | .rdn => neg
  | .rup => !neg
  | .sr => up

/-- The infinity of a result in a format, where it is not an overflow of a finite value (R158, R163 to R165, R168). -/
def deliverInf (f : Fmt) (r : Rounding) (neg : Bool) : Nat × Exc :=
  let p := floatFmt f
  if f = .e8m0 then (if neg then (0xFF, xNV) else if r.sat then (0xFE, xOF) else (0xFF, xOF))
  else if p.ieee then
    if r.sat then (withSign f neg p.maxEnc, xOF) else (withSign f neg (p.maxEnc + 1), 0)
  else if f = .e4m3 then (withSign f neg (if r.sat then p.maxEnc else 0x7F), xOF)
  else (withSign f neg p.maxEnc, xOF)

/-- A NaN result in a format (R151, R164, R165, R168): `nv` where the operation already raises NV. -/
def deliverNan (f : Fmt) (neg nv : Bool) : Nat × Exc :=
  match f with
  | .e3m2 | .e2m3 | .e2m1 => (withSign f neg (floatFmt f).maxEnc, xNV)
  | .e8m0 => (0xFF, xNV)
  | _ => (canonNan f, if nv then xNV else 0)

/-- An exact non-zero result rounded to a format (R157 to R159, R164, R165). -/
def roundFloat (f : Fmt) (r : Rounding) (neg : Bool) (x : Exact) : Nat × Exc :=
  let p := floatFmt f
  let emin : Int := 1 - p.bias
  let qe : Int := max (x.mag - p.m) (emin - p.m)
  let (n, inexact, up) := roundUnit r neg x (-qe)
  let base : Nat := if x.mag < emin then 0 else (x.mag - emin + 1).toNat
  let enc := if base = 0 then n else base * 2 ^ p.m + n - 2 ^ p.m
  if p.maxEnc < enc then
    if p.ieee then
      (withSign f neg (if !r.sat && overflowInf r neg up then p.maxEnc + 1 else p.maxEnc), xOF ||| xNX)
    else if f = .e4m3 then (withSign f neg (if r.sat then p.maxEnc else 0x7F), xOF ||| xNX)
    else (withSign f neg p.maxEnc, xOF ||| xNX)
  else
    let tiny := x.mag < emin &&
      (let (n', _, _) := roundUnit r neg x (p.m - x.mag); n' < 2 ^ (p.m + 1) || x.mag + 1 < emin)
    (withSign f neg enc, if inexact then (if tiny then xUF ||| xNX else xNX) else 0)

/-- A positive exact value rounded to E8M0 (R168): on a tie RNE takes the even encoding. -/
def roundE8m0 (r : Rounding) (x : Exact) : Nat × Exc :=
  let (n, inexact, _) := roundUnit r false x (-x.mag) (odd := fun _ => (x.mag + 127) % 2 != 0)
  let e : Int := if n = 2 then x.mag + 1 else x.mag
  if 127 < e then
    (if r.sat then 0xFE else 0xFF, xOF ||| xNX)
  else if e < -127 then (0x00, xUF ||| xNX)
  else ((e + 127).toNat, if inexact then xNX else 0)

/-- What an operation gives before it is rounded: a NaN (its sign, and whether NV is raised), an infinity with the exceptions
raised beside it, a zero, or an exact value. -/
inductive FRes where
  | nan (neg nv : Bool) | inf (neg : Bool) (x : Exc) | zero (neg : Bool) | exact (neg : Bool) (x : Exact)

/-- The delivered result of an operation in a format with its exception set (R157 to R168). -/
def deliver (f : Fmt) (r : Rounding) : FRes → Nat × Exc
  | .nan neg nv => deliverNan f neg nv
  | .inf neg x => let (b, y) := deliverInf f r neg; (b, x ||| y)
  | .zero neg => if f = .e8m0 then (0xFF, xNV) else (withSign f neg 0, 0)
  | .exact neg x => if f = .e8m0 then (if neg then (0xFF, xNV) else roundE8m0 r x) else roundFloat f r neg x

/-! The operations of R207 and R212 on values: special cases of IEEE 754-2019, R150 and R151. -/

/-- A signed dyadic number s × 2^e as a result; an exact zero has the sign given. -/
def ofDyadic (zneg : Bool) (s : Int) (e : Int) : FRes :=
  if s = 0 then .zero zneg else .exact (s < 0) (.dyadic s.natAbs e)

/-- A signed integer mantissa at a common exponent. -/
def signedMant (neg : Bool) (m : Nat) (e e0 : Int) : Int :=
  let v : Int := m * 2 ^ (e - e0).toNat
  if neg then -v else v

/-- x + y; `rdn` gives the sign of an exact zero of opposite signs (R150). -/
def fAdd (rdn : Bool) : FVal → FVal → FRes
  | .nan s _, .nan t _ => .nan false (s || t)
  | .nan s _, _ => .nan false s
  | _, .nan t _ => .nan false t
  | .inf a, .inf b => if a = b then .inf a 0 else .nan false true
  | .inf a, _ => .inf a 0
  | _, .inf b => .inf b 0
  | .zero a, .zero b => .zero (if a = b then a else rdn)
  | .zero _, .fin b n f => .exact b (.dyadic n f)
  | .fin a m e, .zero _ => .exact a (.dyadic m e)
  | .fin a m e, .fin b n f => let e0 := min e f; ofDyadic rdn (signedMant a m e e0 + signedMant b n f e0) e0

/-- −x. -/
def FVal.neg : FVal → FVal
  | .nan s n => .nan s n | .inf n => .inf !n | .zero n => .zero !n | .fin n m e => .fin (!n) m e

/-- x × y exactly, or none where it is a NaN. -/
inductive Prod' where
  | nan (nv : Bool) | inf (neg : Bool) | zero (neg : Bool) | fin (neg : Bool) (m : Nat) (e : Int)

/-- x × y. -/
def fProd : FVal → FVal → Prod'
  | .nan s _, .nan t _ => .nan (s || t)
  | .nan s _, _ => .nan s
  | _, .nan t _ => .nan t
  | .inf _, .zero _ | .zero _, .inf _ => .nan true
  | .inf a, .inf b | .inf a, .fin b _ _ | .fin a _ _, .inf b => .inf (a != b)
  | .zero a, .zero b | .zero a, .fin b _ _ | .fin a _ _, .zero b => .zero (a != b)
  | .fin a m e, .fin b n f => .fin (a != b) (m * n) (e + f)

/-- x × y as a result. -/
def fMul (x y : FVal) : FRes :=
  match fProd x y with
  | .nan nv => .nan false nv
  | .inf n => .inf n 0
  | .zero n => .zero n
  | .fin n m e => .exact n (.dyadic m e)

/-- x × y + z fused (R212): 0 × ∞ raises NV even when z is a quiet NaN. -/
def fFma (rdn : Bool) (x y z : FVal) : FRes :=
  match fProd x y, z with
  | .nan nv, .nan s _ => .nan false (nv || s)
  | .nan nv, _ => .nan false nv
  | .inf n, z => fAdd rdn (.inf n) z
  | .zero n, z => fAdd rdn (.zero n) z
  | .fin n m e, z => fAdd rdn (.fin n m e) z

/-- x / y. -/
def fDiv : FVal → FVal → FRes
  | .nan s _, .nan t _ => .nan false (s || t)
  | .nan s _, _ => .nan false s
  | _, .nan t _ => .nan false t
  | .inf _, .inf _ => .nan false true
  | .inf a, .zero b | .inf a, .fin b _ _ => .inf (a != b) 0
  | .zero _, .zero _ => .nan false true
  | .zero a, .inf b | .zero a, .fin b _ _ => .zero (a != b)
  | .fin a _ _, .inf b => .zero (a != b)
  | .fin a _ _, .zero b => .inf (a != b) xDZ
  | .fin a m e, .fin b n f => .exact (a != b) (.quot m e n f)

/-- √x. -/
def fSqrt : FVal → FRes
  | .nan s _ => .nan false s
  | .zero n => .zero n
  | .inf n => if n then .nan false true else .inf false 0
  | .fin n m e => if n then .nan false true else .exact false (.root m e)

/-- 1 / x (R174). -/
def fRcp : FVal → FRes
  | .nan s _ => .nan false s
  | .zero n => .inf n xDZ
  | .inf n => .zero n
  | .fin n m e => .exact n (.quot 1 0 m e)

/-- 1 / √x (R174). -/
def fRsqrt : FVal → FRes
  | .nan s _ => .nan false s
  | .zero n => .inf n xDZ
  | .inf n => if n then .nan false true else .zero false
  | .fin n m e => if n then .nan false true else .exact false (.invRoot m e)

/-- 2^x (R174): an exponent beyond any format is taken as one that is beyond every format, with the same significand. -/
def fExp2 : FVal → FRes
  | .nan s _ => .nan false s
  | .zero _ => .exact false (.dyadic 1 0)
  | .inf n => if n then .zero false else .inf false 0
  | .fin n m e =>
    if 0 ≤ e ∨ m % 2 ^ (-e).toNat = 0 then
      let v : Nat := if 0 ≤ e then (if 16 ≤ m.log2 + e then 65536 else m * 2 ^ e.toNat) else m / 2 ^ (-e).toNat
      let v := min v 65536
      .exact false (.dyadic 1 (if n then -(v : Int) else v))
    else
      let j := (-e).toNat
      let v : Int := if n then -(m : Int) else m
      let i : Int := v / 2 ^ j
      let rest := (v - i * 2 ^ j).toNat
      .exact false (.exp2 (max (-65536) (min 65536 i)) rest j)

/-- log2 x (R174). -/
def fLog2 : FVal → FRes
  | .nan s _ => .nan false s
  | .zero _ => .inf true xDZ
  | .inf n => if n then .nan false true else .inf false 0
  | .fin n m e =>
    if n then .nan false true
    else if 2 ^ m.log2 = m then ofDyadic false (m.log2 + e) 0
    else .exact (m.log2 + e < 0) (.log2 m e)

/-- A value as a result: its conversion (R163). -/
def fCvt : FVal → FRes
  | .nan s n => .nan n s
  | .inf n => .inf n 0
  | .zero n => .zero n
  | .fin n m e => .exact n (.dyadic m e)

/-! Integer formats (R153, R166, R167). -/

/-- The signedness of an integer format. -/
def signedFmt : Fmt → Bool
  | .i4 | .i8 | .i16 | .i32 | .i64 => true
  | _ => false

/-- The least integer of a format. -/
def minInt (f : Fmt) : Int := if signedFmt f then -(2 ^ (f.width - 1)) else 0

/-- The greatest integer of a format. -/
def maxInt (f : Fmt) : Int := if signedFmt f then 2 ^ (f.width - 1) - 1 else 2 ^ f.width - 1

/-- The integer of an encoding. -/
def decodeInt (f : Fmt) (b : Nat) : Int :=
  let v := b % 2 ^ f.width
  if signedFmt f ∧ 2 ^ (f.width - 1) ≤ v then (v : Int) - 2 ^ f.width else v

/-- The encoding of an integer: its low bits. -/
def encodeInt (f : Fmt) (v : Int) : Nat := (v % 2 ^ f.width).toNat

/-- A value rounded to an integer format (R166): it always clamps. -/
def toInt (f : Fmt) (r : Rounding) : FRes → Nat × Exc
  | .nan _ _ => (encodeInt f 0, xNV)
  | .inf n _ => (encodeInt f (if n then minInt f else maxInt f), xNV)
  | .zero _ => (encodeInt f 0, 0)
  | .exact n x =>
    let (q, inexact, _) := if 70 ≤ x.mag then (2 ^ 70, false, false) else roundUnit r n x 0
    let v : Int := if n then -(q : Int) else q
    if v < minInt f then (encodeInt f (minInt f), xNV)
    else if maxInt f < v then (encodeInt f (maxInt f), xNV)
    else (encodeInt f v, if inexact then xNX else 0)

/-- An integer as a value. -/
def ofInt (v : Int) : FVal := if v = 0 then .zero false else .fin (v < 0) v.natAbs 0

/-- A conversion between any two formats (R163 to R168). -/
def convert (src dst : Fmt) (r : Rounding) (b : Nat) : Nat × Exc :=
  if src.isFloat then
    let v := decodeFloat src b
    if dst.isFloat then deliver dst r (fCvt v) else toInt dst r (fCvt v)
  else
    let v := decodeInt src b
    if dst.isFloat then deliver dst r (fCvt (ofInt v))
    else if r.sat ∧ ¬ (src.width < dst.width) then (encodeInt dst (max (minInt dst) (min (maxInt dst) v)), 0)
    else (encodeInt dst v, 0)

/-! Comparisons, minimum, maximum, sign and class (R208, R209, R211, R214). -/

def FVal.isNan : FVal → Bool
  | .nan _ _ => true
  | _ => false
def FVal.isSnan : FVal → Bool
  | .nan s _ => s
  | _ => false

/-- The order of two values that are not NaNs: x < y with −0 = +0. -/
def fLess (x y : FVal) : Bool :=
  match x, y with
  | .inf a, .inf b => a && !b
  | .inf a, _ => a
  | _, .inf b => !b
  | .zero _, .zero _ => false
  | .zero _, .fin b _ _ => !b
  | .fin a _ _, .zero _ => a
  | .fin a m e, .fin b n f => let e0 := min e f; signedMant a m e e0 < signedMant b n f e0
  | _, _ => false

/-- Equality of two values that are not NaNs, with −0 = +0. -/
def fEqual (x y : FVal) : Bool := !x.isNan && !y.isNan && !fLess x y && !fLess y x

/-- The sign of a value. -/
def FVal.sign : FVal → Bool
  | .nan _ n | .inf n | .zero n | .fin n _ _ => n

/-- The order of R208: −0 is less than +0. -/
def fLessZ (x y : FVal) : Bool := fLess x y || (fEqual x y && x.sign && !y.sign)

/-- FMIN and FMAX (R208) on encodings: the result is one operand's encoding or the canonical NaN. -/
def fMinMax (max : Bool) (f : Fmt) (a b : Nat) : Nat × Exc :=
  let x := decodeFloat f a
  let y := decodeFloat f b
  let nv : Exc := if x.isSnan || y.isSnan then xNV else 0
  if x.isNan && y.isNan then (canonNan f, nv)
  else if x.isNan then (b, nv)
  else if y.isNan then (a, nv)
  else (if (if max then fLessZ x y else fLessZ y x) then b else a, nv)

/-- FCLASS (R211): the mask of the class of a value. -/
def fClass (f : Fmt) (b : Nat) : Nat :=
  match decodeFloat f b with
  | .nan s _ => if s then 256 else 512
  | .inf n => if n then 1 else 128
  | .zero n => if n then 8 else 16
  | .fin n _ _ =>
    let p := floatFmt f
    let sub := f != .e8m0 && b / 2 ^ p.m % 2 ^ (p.w - 1 - p.m) == 0
    if n then (if sub then 4 else 2) else if sub then 32 else 64

/-- The draw of R161 from a key, a counter and an element index. -/
def draw (key ctr : Word) (i : Nat) : BitVec 32 :=
  let z := key + (ctr + BitVec.ofNat 64 i) * 0x9E3779B97F4A7C15#64
  let z := (z ^^^ (z >>> 30)) * 0xBF58476D1CE4E5B9#64
  let z := (z ^^^ (z >>> 27)) * 0x94D049BB133111EB#64
  (z ^^^ (z >>> 31)).setWidth 32

end Sys2Proof.Machine
end

