-- ==== Sys2Proof/Machine/Maps.lean ====
section
/-! DEFINITION. Reading and writing sparse maps, byte memories and sets of numbers. Every map of the state is kept in one
canonical form: keys strictly rising. A byte memory lists no byte equal to what an unlisted address reads as (0, log 1). -/

namespace Sys2Proof.Machine

/-- The value at a key, if it is listed. -/
def kfind {α : Type} (k : Nat) : KMap α → Option α
  | [] => none
  | (j, v) :: m => if j = k then some v else kfind k m

/-- The value at a key, or the default of what is not listed. -/
def kget {α : Type} (d : α) (m : KMap α) (k : Nat) : α := (kfind k m).getD d

/-- The map with a value stored at a key. -/
def kset {α : Type} (k : Nat) (v : α) : KMap α → KMap α
  | [] => [(k, v)]
  | (j, w) :: m => if j = k then (k, v) :: m else if k < j then (k, v) :: (j, w) :: m else (j, w) :: kset k v m

/-- The map without a key. -/
def kdel {α : Type} (k : Nat) : KMap α → KMap α
  | [] => []
  | (j, w) :: m => if j = k then kdel k m else (j, w) :: kdel k m

/-- The map with a value stored at a key, where the default is not listed. -/
def kput {α : Type} [DecidableEq α] (d : α) (k : Nat) (v : α) (m : KMap α) : KMap α :=
  if v = d then kdel k m else kset k v m

/-- The map with the value at a key changed. -/
def kmod {α : Type} (d : α) (k : Nat) (f : α → α) (m : KMap α) : KMap α := kset k (f (kget d m k)) m

/-- The keys strictly rise from a bound. -/
def krising {α : Type} : Nat → KMap α → Bool
  | _, [] => true
  | lo, (j, _) :: m => decide (lo ≤ j) && krising (j + 1) m

/-- A byte memory: addresses strictly rising, and no listed byte is 0. -/
def memoryWf (m : KMap Byte) : Bool := krising 0 m && m.all fun c => c.2 != 0

/-- The byte at an address: 0 where none is listed. -/
def readByte (m : KMap Byte) (a : Nat) : Byte := kget 0 m a

/-- A byte stored at an address. -/
def writeByte (a : Nat) (b : Byte) (m : KMap Byte) : KMap Byte := kput 0 a b m

/-- n bytes from an address, lowest first (R4). -/
def readBytes (m : KMap Byte) (a : Nat) : Nat → List Byte
  | 0 => []
  | n + 1 => readByte m a :: readBytes m (a + 1) n

/-- Bytes stored from an address up. -/
def writeBytes (a : Nat) : List Byte → KMap Byte → KMap Byte
  | [], m => m
  | b :: bs, m => writeBytes (a + 1) bs (writeByte a b m)

/-- Bytes put together, the first least significant (R4). -/
def ofBytes : List Byte → Nat
  | [] => 0
  | b :: bs => b.toNat + 256 * ofBytes bs

/-- The n low bytes of a value, least significant first (R4). -/
def toBytes : Nat → Nat → List Byte
  | 0, _ => []
  | n + 1, v => BitVec.ofNat 8 v :: toBytes n (v / 256)

/-- A set of numbers in rising order with one added. -/
def sadd (k : Nat) : List Nat → List Nat
  | [] => [k]
  | j :: l => if j = k then j :: l else if k < j then k :: j :: l else j :: sadd k l

/-- A set of numbers without one. -/
def sdel (k : Nat) (l : List Nat) : List Nat := l.filter (· != k)

/-- A number put into a set, or taken out. -/
def sput (k : Nat) (b : Bool) (l : List Nat) : List Nat := if b then sadd k l else sdel k l

/-- The first element of a list that meets a test, and the list without it. -/
def takeFirst {α : Type} (p : α → Bool) : List α → Option (α × List α)
  | [] => none
  | x :: xs => if p x then some (x, xs) else (takeFirst p xs).map fun (y, ys) => (y, x :: ys)

/-- A list with the first element that meets a test changed. -/
def modFirst {α : Type} (p : α → Bool) (f : α → α) : List α → List α
  | [] => []
  | x :: xs => if p x then f x :: xs else x :: modFirst p f xs

/-- The numbers lo, lo + 1, … below hi. -/
def upto (lo hi : Nat) : List Nat := (List.range (hi - lo)).map (lo + ·)

/-- Two ranges share a byte. -/
def overlaps (a n b m : Nat) : Bool := a < b + m && b < a + n && n != 0 && m != 0

/-- The lowest range of a size below a limit that meets no used one. -/
def lowestFree (limit : Nat) (used : List (Nat × Nat)) (size : Nat) : Option Nat :=
  let fits := fun a => decide (a + size ≤ limit) && used.all fun u => !overlaps a size u.1 u.2
  ((0 :: used.map fun u => u.1 + u.2).filter fits).foldl (fun b a => some (match b with | none => a | some m => min m a)) none

/-- The parts of [a, a + n) that lie in one unit of k bytes each: none of an empty range. -/
def unitsOf (k a n : Nat) : List (Nat × Nat) :=
  if n = 0 then []
  else (upto (a / k) ((a + n + k - 1) / k)).map fun u =>
    let lo := max a (u * k)
    (lo, min (a + n) (u * k + k) - lo)

/-- The n lowest numbers that are not used. -/
def lowestNumbers (used : List Nat) (n : Nat) : List Nat :=
  ((List.range (n + used.length)).filter fun i => !used.contains i).take n

end Sys2Proof.Machine
end

