-- ==== Sys2Proof/Machine/State.lean ====
section
/-! DEFINITION. The state of one device: every piece of state the reference gives the machine, as plain data. Like parts that
are many (cores, prisms, facets, slices, contexts, slots, registers of lanes, lines, entries) are sparse maps; a key that is not
listed holds the reset value, which is the default of the structure's field. INVENTORY.md lists every field with its rule. -/

namespace Sys2Proof.Machine

/-- Why the machine stops. -/
inductive Fault where
  /-- The device has shut down at 110 °C or at a fatal step of the bring-up (R453, R444): raised by `step` for every later
  step; safe, since nothing runs any more. -/
  | shutDown
  deriving DecidableEq, Repr

/-- Why an instruction is not performed. -/
inductive Refusal where
  /-- No meaning yet: raised by an arm of `exec` that names its mnemonic; safe. -/
  | notModelled (mnemonic : String)
  deriving DecidableEq, Repr

/-- Who executes or asks: a control core, a facet slot (by facet package number R104 and slot number), or a thread of another
device (by thread identifier R21). -/
inductive Agent where
  | core (k : Nat) | slot (f n : Nat) | peer (tid : Nat)
  deriving DecidableEq, Repr

/-- Whose clock ticks when nothing else is due: a control core's or a facet's. -/
inductive Clock where
  | core (k : Nat) | facet (f : Nat)
  deriving DecidableEq, Repr

/-- A poison mark of a register: the load that wrote it (R231). -/
structure Mark where
  pc   : Word
  addr : Word
  deriving DecidableEq, Repr

/-- The registers that a control core and a facet slot both hold (R25, R192). -/
structure Thread where
  /-- x0–x31. -/
  x     : Vector Word 32 := Vector.replicate 32 0
  /-- bit n: the taint of xn (R16, R176). -/
  xt    : BitVec 32 := 0
  /-- p0–p7, bit 0 being p0. -/
  p     : BitVec 8 := 1
  pc    : Word := 0
  rnd   : BitVec 32 := 0
  stat  : BitVec 21 := 0
  /-- The address of the word that a pending prefix is for: that of the FMTP + 4 (R188). -/
  ppc   : Word := 0
  rkey  : Word := 0
  rctr  : Word := 0
  /-- bit n: xn awaits a result (R126). -/
  pend  : BitVec 32 := 0
  marks : KMap Mark := []
  /-- The cycle from which a result is ready on a facet: xn at n, predicate pn at 32 + n (R223). -/
  lat   : KMap Nat := []
  deriving DecidableEq, Repr

/-- What a slot is parked or stalled in (R421, PWK). -/
inductive ParkKind where
  | take | peek | put | bwait | waitmsg | resend | accept | quota | vpmrg | spawn | waitCnt | mxfence | tend | sc
  /-- An SMC that waits for its release fence: no interrupt is taken meanwhile (R344). -/
  | smc
  deriving DecidableEq, Repr

/-- A synchronising access to local store (R76, R235): bytes [la, la + k), for a load the destination and whether it is
sign-extended, for a store the data with its taint. -/
structure FeAccess where
  kind   : ParkKind
  la     : Nat
  k      : Nat
  signed : Bool := false
  d      : BitVec 5 := 0
  data   : Word := 0
  taint  : Bool := false
  /-- A byte-barrier wait: the phase it waits to leave (R111). -/
  ph     : Bool := false
  deriving DecidableEq, Repr

/-- The wait a slot is in (R77, R145, R421). -/
structure Park where
  kind    : ParkKind
  addr    : Word := 0
  elapsed : Nat := 0
  /-- The request or message it waits for. -/
  req     : Option Nat := none
  fe      : Option FeAccess := none
  /-- The operations that an MXFENCE waits for (R299). -/
  fence   : Option (List Nat) := none
  deriving DecidableEq, Repr

/-- A trap record (R353). -/
structure TrapRec where
  cause : BitVec 8
  late  : Bool := false
  win   : Bool := false
  dbg   : Bool := false
  mask  : BitVec 16 := 0
  pc    : Word := 0
  addr  : Word := 0
  info  : Word := 0
  deriving DecidableEq, Repr

/-- A late report not yet taken (R230). -/
structure LateRep where
  cause : BitVec 8
  pc    : Word
  addr  : Word
  info  : Word := 0
  /-- The issue number of the instruction that made it, and the cycle in which it arrived. -/
  no    : Nat := 0
  cyc   : Nat := 0
  deriving DecidableEq, Repr

/-- What a built-in remote operation does at the owner (R253). -/
inductive BuiltOp where
  | load (t : LdTyp) (d : BitVec 5)
  | store (k : Nat) (v : Word) (t : Bool)
  | fullEmpty (k : Nat) (v : Word) (t : Bool)
  | amo (op : Nat) (t : RmTyp) (v : Word) (vt : Bool) (d : BitVec 5)
  | bits (l : Nat) (v : Word) (t : Bool)
  | arrive (c : Nat) (t : Bool)
  deriving DecidableEq, Repr

/-- An entry of a mailbox or spill queue (R308), or a built-in operation for slot 15 (R107): `id` names the message of the
sender that waits for it. -/
structure Msg where
  id   : Nat := 0
  pay  : BitVec 128 := 0
  hnd  : Word := 0
  src  : BitVec 28 := 0
  tag  : BitVec 8 := 0
  tnt  : BitVec 4 := 0
  /-- The context and window sequence number of the sender's entry. -/
  ctx  : Nat := 0
  seq  : Nat := 0
  op   : Option (BuiltOp × Nat) := none
  /-- Of a spilled message, the entry of its spill queue's ring in memory that holds it (R308). -/
  at'  : Nat := 0
  deriving DecidableEq, Repr

/-- What a slot runs. -/
inductive Job where
  | vacant
  /-- A tile task of an entry: context, window sequence number, ordinal, and whether it is a continuation (R54, R58). -/
  | task (c seq ord : Nat) (cont : Bool)
  /-- A user handler: context and entry of the AMSG's sender, and the message it serves (R314, R315). -/
  | handler (c seq msg : Nat)
  deriving DecidableEq, Repr

/-- The five counts of outstanding operations (R190). -/
structure Counts where
  ld : Nat := 0
  st : Nat := 0
  cp : Nat := 0
  mx : Nat := 0
  vg : Nat := 0
  deriving DecidableEq, Repr

/-- The debug control of a slot (R415). -/
structure Sdc where
  skip : Bool := false
  held : Bool := false
  grp  : BitVec 4 := 0
  memb : Bool := false
  pair : Bool := false
  /-- A step is in progress; the Boolean of PAIR's second turn. -/
  stepping : Option Bool := none
  /-- A halt request not yet met, with its INFO (R416). -/
  haltReq  : Option (BitVec 8) := none
  /-- Of a saved slot, that it goes on when it is resumed, and whether by a step (R361, R408, R418). -/
  wish     : Option Bool := none
  deriving DecidableEq, Repr

/-- A fault report: what R323 makes of it. -/
structure Report where
  cause   : BitVec 8
  late    : Bool := false
  handler : Bool := false
  dec     : Bool := false
  ord     : Nat := 0
  pc      : Word := 0
  addr    : Word := 0
  info    : Word := 0
  tid     : Nat := 0
  deriving DecidableEq, Repr

/-- A facet slot (R19, R192). -/
structure Slot where
  th     : Thread := {}
  job    : Job := .vacant
  slim   : BitVec 18 := 0
  felim  : BitVec 32 := 0
  bap    : BitVec 21 := 0
  cpt    : BitVec 31 := 0
  mcm    : Word := 0
  mcb    : BitVec 11 := 0
  ord    : BitVec 48 := 0
  wid    : Word := 0
  vl     : BitVec 9 := 0
  msrc   : BitVec 28 := 0
  msrcT  : Bool := false
  /-- The exceptions ORed into rnd in this cycle, and those of matrix operations of mq0 and mq1 that no MXFENCE has shown yet (R156). -/
  orNow  : BitVec 5 := 0
  mxf0   : BitVec 5 := 0
  mxf1   : BitVec 5 := 0
  /-- Those among them that have come in this cycle. -/
  mxNow0 : BitVec 5 := 0
  mxNow1 : BitVec 5 := 0
  cnt    : Counts := {}
  /-- The allocation (R56). -/
  lb     : Nat := 0
  lsize  : Nat := 0
  /-- The remainder of ordinals it holds, [lo, hi) (R54). -/
  rem    : Option (Nat × Nat) := none
  /-- The entry whose remainder it keeps while its next task has to wait (R54, R380): context and window sequence number. -/
  next   : Option (Nat × Nat) := none
  mbox   : List Msg := []
  spill  : List Msg := []
  spillN : Nat := 0
  /-- The 32-byte entries of the context's spill area that its spill reservation takes (R375). -/
  spillAt : List Nat := []
  park   : Option Park := none
  trap   : Option TrapRec := none
  late   : List LateRep := []
  /-- Version holds, once for each VRETAIN (R92): tile name, version, and whether the hold still stands (R96). -/
  holds  : List (Nat × Nat × Bool) := []
  pmc    : Nat := 0
  /-- A VLOOP whose body is being entered: instructions still to come; the body so far is in the sequencer (R265). -/
  loopLeft : Nat := 0
  /-- The repetitions still to run of the VLOOP at the pc, which a save took back; 0 where it counts from X[a] (R265, R359). -/
  loop     : Nat := 0
  /-- The cycle from which the slot is ready again (R217, R307, R56). -/
  wakeAt : Nat := 0
  /-- The class of R425 of its wait for that cycle: VACANT while its allocation is cleared, BRANCH after a transfer, else OTHER. -/
  wakeFor : Nat := 15
  seqNo  : Nat := 0
  sdc    : Sdc := {}
  held   : Option Report := none
  /-- The abandoned instruction's elapsed parked cycles (PARK and REX of R359). -/
  rex    : Option Nat := none
  /-- Its FPX waits for the collection window (R354). -/
  fpx    : Bool := false
  /-- A fetched word of a remote code address (R178, log 5). -/
  ibuf   : Option (Word × BitVec 32) := none
  stalls : KMap (BitVec 48) := []
  deriving DecidableEq, Repr

/-- A 32-bit word of local store with its full-empty bit and taint bit (R72). -/
structure LsWord where
  data  : BitVec 32 := 0
  empty : Bool := false
  taint : Bool := false
  deriving DecidableEq, Repr

/-- A vector register: 256 lanes of 32 bits, each with a taint bit (R255, R258). -/
structure VReg where
  bits  : BitVec 8192 := 0
  taint : BitVec 256 := 0
  deriving DecidableEq, Repr

/-- An accumulator: 64 × 64 FP32 elements, element 64 × row + column, each with a taint bit (R283). -/
structure Acc where
  bits  : BitVec 131072 := 0
  taint : BitVec 4096 := 0
  deriving DecidableEq, Repr

/-- A stream descriptor and its place (R266, R267). -/
structure Stream where
  slot  : Nat
  drain : Bool
  base  : Nat
  esz   : VWidth
  n     : List Nat
  s     : List Int
  /-- The next element by number that the instructions take or give, and for a drain the elements not yet written. -/
  pos   : Nat := 0
  buf   : List (Nat × BitVec 64 × Bool) := []
  fetched : Nat := 0
  ended : Bool := false
  /-- Of a drain, the instructions some of whose elements are not yet written, each with the element after its last (R299) and the number of
  its start. -/
  owed  : List (Nat × Nat × Nat) := []
  deriving DecidableEq, Repr

/-- A vector instruction with what was read at its issue (R195, R261). -/
structure VIns where
  id   : Nat
  slot : Nat
  ins  : Instr
  pc   : Word
  vl   : Nat
  rm   : RMode
  sat  : Bool
  fa   : Option Fmt := none
  fd   : Option Fmt := none
  key  : Word := 0
  /-- The trap enables in effect at its issue, TNV, TDZ and TOF (R156). -/
  traps : BitVec 3 := 0
  xa   : Word := 0
  xb   : Word := 0
  xat  : Bool := false
  xbt  : Bool := false
  /-- The request of a VLD or VST (R268). -/
  req  : Option Nat := none
  /-- The stream that a VBIND binds (R266). -/
  desc : Option Stream := none
  /-- A VLD of a loop body: each repetition finds what the body has stored before it (R126, R265). -/
  late : Bool := false
  deriving DecidableEq, Repr

/-- An item of the vector sequencer: one instruction, or a loop body with the repetitions left (R261, R265). -/
structure SeqItem where
  body  : List VIns
  /-- The slot whose body it is. -/
  slot  : Nat := 0
  count : Nat := 1
  pos   : Nat := 0
  rep   : Nat := 0
  /-- The body is still being entered. -/
  filling : Bool := false
  deriving DecidableEq, Repr

/-- Bits of one vector register that an instruction writes: value, mask and the lanes whose taint it sets or clears. -/
structure VWrite where
  reg   : Nat
  bits  : BitVec 8192
  mask  : BitVec 8192
  taint : BitVec 256
  lanes : BitVec 256
  deriving DecidableEq, Repr

/-- A started vector instruction whose results are not yet written (R261), with the cycle in which they are. -/
structure SeqRes where
  id     : Nat
  slot   : Nat
  pc     : Word
  lands  : Nat
  writes : List VWrite := []
  /-- A scalar result with its register and taint. -/
  scalar : Option (BitVec 5 × Word × Bool) := none
  flags  : BitVec 5 := 0
  traps  : BitVec 3 := 0
  rep    : Nat := 0
  /-- It belongs to the last repetition of its loop body (R263, R265). -/
  last   : Bool := true
  /-- The number of its start in the facet's sequencer. -/
  start  : Nat := 0
  /-- Streams it has taken elements of or gives elements to: stream, first element, elements to give. -/
  fills  : List (Nat × Nat) := []
  drains : List (Nat × Nat × List (Nat × BitVec 64 × Bool)) := []
  /-- The request whose count ends with it. -/
  req    : Option Nat := none
  deriving DecidableEq, Repr

/-- How far a matrix operation has come (R300). -/
inductive MxStage where
  | queued | reading | computing
  deriving DecidableEq, Repr

/-- An entry of a matrix queue with what was read at its enqueue (R290, R291). -/
structure MxEntry where
  id   : Nat
  slot : Nat
  ctx  : Nat
  seq  : Nat
  ins  : Instr
  pc   : Word
  fa   : MFmt := .f32
  fb   : MFmt := .f32
  rm   : RMode := .rne
  sat  : Bool := false
  key  : Word := 0
  ctr  : Word := 0
  da   : Word := 0
  db   : Word := 0
  stage : MxStage := .queued
  /-- The cycles of its enqueue, of the begin of its reads and of its compute (R300). -/
  enq : Nat := 0
  readAt : Nat := 0
  compAt : Nat := 0
  /-- Operand bytes read when its reads began: A or image, B, scales of A, scales of B, with the taint of each word. -/
  aBytes : List Byte := []
  bBytes : List Byte := []
  aScale : List Byte := []
  bScale : List Byte := []
  aTaint : List Bool := []
  bTaint : List Bool := []
  asTaint : List Bool := []
  bsTaint : List Bool := []
  deriving DecidableEq, Repr

/-- The binding of a matrix queue to an engine of its prism (R281). -/
structure Binding where
  engine : Nat
  ctx    : Nat
  acc    : KMap Acc := []
  deriving DecidableEq, Repr

/-- A matrix queue (R280): its entries, its binding with its cycle, since which tick it has been waiting, and the cycle of its last
completion. -/
structure MQueue where
  entries : List MxEntry := []
  bind    : Option Binding := none
  boundAt : Nat := 0
  waiting : Option Nat := none
  lastDone : Nat := 0
  deriving DecidableEq, Repr

/-- The kinds of a range-scoreboard entry (R422). -/
inductive SbKind where
  | copy | multicast | vget | vstore
  deriving DecidableEq, Repr

/-- An entry of the range scoreboard (R100, R422): the operation that holds it, its local range, and whether it goes from
local to global. -/
structure SbEntry where
  op    : Nat
  slot  : Nat
  kind  : SbKind
  dir   : Bool
  laddr : Nat
  len   : Nat
  gaddr : Word
  deriving DecidableEq, Repr

/-- What a request does at its home slice. -/
inductive ReqOp where
  | load (d : BitVec 5) (t : LdTyp)
  | store (k : Nat) (v : Word) (t : Bool)
  | fetch
  /-- A read of n bytes that stalls its instruction until the page is translated, or until another device has answered (SLAUNCH,
  SBIND). -/
  | probe (n : Nat) (got : Option (List Byte))
  /-- A VLD of n bytes, with the bytes read, their taint and their poison; a VST of n bytes. -/
  | vload (v : VIns) (n : Nat) (got : List (Byte × Bool × Bool))
  | vstore (v : VIns) (n : Nat)
  | atomic (op : Nat) (t : AmTyp) (form : AmForm) (v : Word) (cmp : Word) (vt : Bool) (d : BitVec 5) (key : BitVec 64)
  | join (d : BitVec 5)
  /-- VSTORE or VOPEN: version, local address, the bounds of the allocation, QUOTA of the entry, and the tile size once known. -/
  | create (whole : Bool) (ver : Nat) (la lb lsize quota size : Nat)
  | vput (ver : Nat) (la : Nat) (n : Nat)
  /-- A hold of a decoded entry that waits for the count to fall (R92). -/
  | vhold (ver : Nat)
  | vseal (ver : Nat)
  | vget (ver : Nat) (la : Nat) (lb lsize : Nat)
  | vretain (ver : Nat)
  | vrelease (ver : Nat)
  | vdrop (ver : Nat)
  | vquery (ver : Nat) (d : BitVec 5)
  /-- The write-back of a dirty line of a prism's cache, by its key, whose page has no translation. -/
  | writeBack (p k : Nat)
  | piece (copy : Nat) (off : Nat) (n : Nat)
  /-- The write of a fault record at another device (R323). -/
  | record (b : List Byte)
  /-- An access of the debug memory port on another device (R424): a write of its data, or a read. -/
  | port (wr : Bool) (v : Word)
  deriving DecidableEq, Repr

/-- How far a request has come. -/
inductive Stage where
  /-- On its way to the home slice, or to be sent again. -/
  | sent
  /-- In the waiter store behind the translation of its page; the token of the fault-queue entry once posted. -/
  | missing (token : Option Nat)
  /-- Parked behind a migration or an update of the slice. -/
  | behind
  /-- Parked on a version, on the quota or table, on pending ".d" bytes, on a full overflow area. -/
  | onVersion | onQuota | onBatch | onOverflow
  /-- The waiter store, or for a read of a version the version table, was full; sent again later. Whether the wait counts towards felim
  (R86). -/
  | refusedFull (counted : Bool)
  /-- Accepted: performed at the home slice next. -/
  | accepted (pa : Nat) (leaf : Word)
  /-- An accepted SC operation that waits for its window. -/
  | inWindow (w pa : Nat) (leaf : Word)
  /-- Its data or its notice is on its way back. -/
  | returning
  /-- Ended with a cause that its instruction has not yet met. -/
  | failed (cause : BitVec 8)
  deriving DecidableEq, Repr

/-- A request (R228): who asked, in which context and at which level, where, what, and how far it has come. -/
structure Req where
  who   : Agent
  ctx   : Nat
  seq   : Nat := 0
  phys  : Bool := false
  va    : Word
  pc    : Word
  op    : ReqOp
  stage : Stage := .sent
  elapsed : Nat := 0
  /-- Its instruction had retired when a resume sent it again (R360). -/
  again : Bool := false
  deriving DecidableEq, Repr

/-- The reply to a remote operation on its way to the sender (R253): value and taint, a cause, or that the word was full (R108). -/
inductive Reply where
  | ok (v : Nat) (taint : Bool) | fault (cause : BitVec 8) | full
  deriving DecidableEq, Repr

/-- A message in flight (R311): its sender, target and content, how often and how long it has been refused. -/
structure Flight where
  who    : Agent
  ctx    : Nat
  seq    : Nat
  pc     : Word
  word   : Word
  target : Nat
  user   : Bool
  msg    : Msg
  refused : Bool := false
  elapsed : Nat := 0
  /-- It has entered the mailbox; an AMSG waits for the end of its handler. -/
  entered : Bool := false
  /-- It reports the completion of a copy of this slot (R102). -/
  copy : Option (Nat × Nat) := none
  /-- The built-in operation has been performed, and this is its reply (R253). -/
  reply : Option Reply := none
  deriving DecidableEq, Repr

/-- The state of a facet that is being saved or has been saved and not resumed (R358 to R360): its slots by number, its matrix queues
with their bindings, its streams, registers and grant, the withdrawn requests and refused messages of the request list. -/
structure Stash where
  slots   : KMap Slot := []
  mq0     : List MxEntry := []
  mq1     : List MxEntry := []
  bind0   : Option Binding := none
  bind1   : Option Binding := none
  streams : KMap Stream := []
  v       : KMap VReg := []
  grant   : Nat := 0
  kept    : Bool := false
  reqs    : List (Nat × Req) := []
  refused : List (Nat × Flight) := []
  deriving DecidableEq, Repr

/-- Where a save or a resume of a facet stands (R358, R360). -/
inductive SaveStage where
  | idle | draining | restoring
  deriving DecidableEq, Repr

/-- The trace unit of a facet (R428, R429). -/
structure Trace where
  base  : BitVec 32 := 0
  size  : BitVec 20 := 0
  woff  : BitVec 32 := 0
  lost  : BitVec 32 := 0
  ctxen : Bool := false
  ctx   : BitVec 6 := 0
  kinds : BitVec 8 := 0
  gate  : Bool := false
  wrap  : Bool := false
  en    : Bool := false
  /-- Records held by the unit, oldest first (at most 16), and how many were dropped since the last one taken. -/
  unit  : List (List Byte) := []
  dropped : Nat := 0
  /-- Under GATE, the records of the last 64 ticks, each with its tick and slot (R433). -/
  gated : List (Nat × Nat × List Byte) := []
  deriving DecidableEq, Repr

/-- A facet (R25, R255, R280). -/
structure Facet where
  slots    : KMap Slot := []
  cyc      : Nat := 0
  /-- The cycle from which the divider is free (R223). -/
  divFree  : Nat := 0
  grant    : Nat := 0
  kept     : Bool := false
  unmet    : Nat := 0
  reserved : Nat := 0
  /-- v0–v15 of slot b at 16b + n, w0–w15 at 256 + n. -/
  v        : KMap VReg := []
  seqQ     : List SeqItem := []
  inflight : List SeqRes := []
  /-- The cycle from which the sequencer may start its next instruction (R261). -/
  seqFree  : Nat := 0
  /-- How many instructions the sequencer has started. -/
  starts   : Nat := 0
  /-- What has been written to shared registers in this cycle: slot, register key, bits (R262). -/
  wNow     : List (Nat × Nat × BitVec 8192) := []
  /-- The words of local store that the engine port has written in this cycle, as they were at its start (R125). -/
  lsOld    : KMap LsWord := []
  streams  : KMap Stream := []
  mq0      : MQueue := {}
  mq1      : MQueue := {}
  sb       : List SbEntry := []
  ls       : KMap LsWord := []
  parked   : List Nat := []
  /-- Lines it has dirtied in the prism cache, least recent first (R81): address-space number and line number. -/
  dirtied  : List (Nat × Nat) := []
  save     : SaveStage := .idle
  saveArea : Nat := 0
  saveCore : Nat := 0
  /-- The saved state: `stash` is listed from the request of a save to the end of the resume. -/
  stash    : Option Stash := none
  /-- Messages to saved tasks are diverted (R358). -/
  diverting : Bool := false
  /-- Messages diverted to the handler region of a save (R358). -/
  divMsgs  : List Msg := []
  /-- Reports on their way to the task window (R41, R316, R354): slot, context, entry. -/
  reports  : List (Nat × Nat × Nat × Report) := []
  winFpx   : List Nat := []
  /-- ".d" sequence numbers by (lane, context, entry) of DET entries (R113). -/
  laneSeq  : List ((Nat × Nat × Nat) × Nat) := []
  saEn     : Bool := false
  saGate   : Bool := false
  /-- Under GATE, the counts of the cycles of the last 64 ticks: tick, slots with their classes, and how many slots were ready (R433). -/
  gatedC   : List (Nat × List (Nat × Nat) × Nat) := []
  hist     : KMap (BitVec 48) := []
  trace    : Trace := {}
  deriving DecidableEq, Repr

/-- A line of the prism cache (R79, R228), or of a slice's cache (R84): 512 bytes; `valid` and `dirty` have one bit a byte,
`taint` and `poison` one bit a 32-byte sector. -/
structure Line where
  data   : BitVec 4096 := 0
  valid  : BitVec 512 := 0
  dirty  : BitVec 512 := 0
  taint  : BitVec 16 := 0
  poison : BitVec 16 := 0
  rd     : Bool := false
  wr     : Bool := false
  /-- The page is SHARED (R128). -/
  shared : Bool := true
  ctx    : Nat := 0
  /-- An update-only line (R118): operation, type, and the partial results by byte offset with their taint. -/
  upd    : Option (Nat × AmTyp × List (Nat × Word × Bool)) := none
  deriving DecidableEq, Repr

/-- The service state of a prism (R380). -/
inductive PState where
  | active | draining | idle | offline
  deriving DecidableEq, Repr

/-- A range task not yet begun: ordinals [lo, hi) of an entry (R50, R54). -/
structure Range where
  c   : Nat
  seq : Nat
  lo  : Nat
  hi  : Nat
  deriving DecidableEq, Repr

/-- A queued continuation (R58). -/
structure Cont where
  c     : Nat
  seq   : Nat
  code  : Word
  frame : Word
  jaddr : Word
  ord   : Nat
  /-- The entry of the continuation area in memory that holds it (R58, R368). -/
  at'   : Nat := 0
  deriving DecidableEq, Repr

/-- A prism (R19, R372, R380). -/
structure Prism where
  state  : PState := .active
  pin    : Bool := false
  detl   : BitVec 9 := 0
  serviceable : Bool := false
  sown   : KMap (BitVec 14) := []
  ranges : List Range := []
  conts  : List Cont := []
  /-- Records that a JOIN enqueued while the continuation area was full (R304). -/
  contsWait : List Cont := []
  /-- Slots held for waiting gangs (R52): facet of the prism, slot, and the context and entry of the gang. -/
  held : List (Nat × Nat × Nat × Nat) := []
  /-- Lines by 2^55 × address-space number + virtual line number. -/
  cache  : KMap Line := []
  throttle : Nat := 0
  world  : Bool := false
  deriving DecidableEq, Repr

/-- A translation entry (R391). -/
structure TlbEntry where
  asn  : Nat
  base : Nat
  size : Nat
  leaf : Word
  deriving DecidableEq, Repr

/-- The states of a version (R89, R90). -/
inductive VState where
  | waiting | opened | sealed | dropping
  deriving DecidableEq, Repr

/-- An entry of a version table (R89). -/
structure VEntry where
  ctx   : Nat
  tile  : Nat
  ver   : Nat
  st    : VState
  /-- Tile size in bytes; whether the frame is in the tile pool; frame bytes; taint of each 32-byte sector; poisoned granules. -/
  size  : Nat := 0
  pool  : Bool := false
  bytes : List Byte := []
  taint : List Bool := []
  poison : List Nat := []
  count : Nat := 0
  owner : Option Agent := none
  superseded : Bool := false
  /-- Parked requests, in parking order. -/
  waiters : List Nat := []
  /-- Holders that are threads of other devices (R97), by device. -/
  peers : List Nat := []
  deriving DecidableEq, Repr

/-- A ".d" record (R113, R114): its entry (of this device's window, or with d + 1 of that of device d), issuer key, arrival number, physical
and virtual address, operation. -/
structure DRec where
  dev : Nat := 0
  c   : Nat
  seq : Nat
  va  : Word := 0
  key : BitVec 64
  no  : Nat
  pa  : Nat
  dir : Bool
  op  : Nat
  t   : AmTyp
  v   : Word
  deriving DecidableEq, Repr

/-- The work of a migration engine (R396–R400). -/
inductive MigWork where
  | none | page (c : Nat) (va : Nat) (dst : Nat) (leafAddr : Nat) | area (dst : Nat) | home (sub : Nat)
  deriving DecidableEq, Repr

/-- A multicast stream at a slice (R105, R106): the name of the match, whether it has started, the copies (requests) it
serves, and those that joined late. -/
structure McStream where
  id   : Nat
  ctx  : Nat
  base : Word
  len  : Nat
  mcb  : BitVec 11
  mcm  : Word
  started : Bool := false
  /-- The offset of the next byte to send. -/
  pos : Nat := 0
  copies : List Nat := []
  /-- Late joiners, each with the offset from which it takes part. -/
  late : List (Nat × Nat) := []
  deriving DecidableEq, Repr

/-- A slice (R84, R378, R396). -/
structure Slice where
  tlb    : List TlbEntry := []
  cache  : KMap Line := []
  versions : List VEntry := []
  /-- Requests parked in the waiter store, in parking order (R86). -/
  parkq  : List Nat := []
  /-- Creations held by quota or by a full table or pool, in parking order (R91). -/
  quota  : List Nat := []
  hold   : List DRec := []
  /-- Sorted runs, each with its offset in the overflow area of its context. -/
  runs   : List (Nat × List DRec) := []
  /-- Requests held on pending ".d" bytes, in arrival order (R115). -/
  heldD  : List Nat := []
  flow   : BitVec 16 := 0
  tpool  : BitVec 5 := 0
  sfrb   : BitVec 28 := 0
  sfrs   : BitVec 28 := 0
  mgva   : BitVec 48 := 0
  mgpa   : BitVec 48 := 0
  mgst   : BitVec 2 := 0
  mgerr  : BitVec 8 := 0
  mig    : MigWork := .none
  mc     : List McStream := []
  redirect : Option Nat := none
  paused : Bool := false
  noCreate : Bool := false
  world  : Bool := false
  /-- End markers held: device and window (R133). -/
  marks  : List (Nat × Nat) := []
  deriving DecidableEq, Repr

/-- A launch header (R46). -/
structure Header where
  entry : Word := 0
  param : Word := 0
  ext   : List Nat := []
  wd    : List Nat := []
  place : Nat := 0
  gang  : Nat := 0
  stack : Nat := 0
  lsize : Nat := 0
  quota : Nat := 0
  spill : Nat := 0
  det   : Bool := false
  fixt  : Bool := false
  rnd0  : BitVec 32 := 0
  felim0 : BitVec 32 := 0
  rkey0 : Word := 0
  deriving DecidableEq, Repr

/-- An operand of an entry (R32, R55): ordinary or versioned, its range, logical name and bound version. -/
structure Operand where
  versioned : Bool
  rd   : Bool
  wr   : Bool
  base : Word
  len  : Word
  name : Nat := 0
  ver  : BitVec 32 := 0
  deriving DecidableEq, Repr

/-- A binding of a logical name (R320). -/
structure NameB where
  base : Word := 0
  len  : Word := 0
  next : BitVec 32 := 1
  cur  : BitVec 32 := 0
  deriving DecidableEq, Repr

/-- The states of an entry (R41); FREE is absence. -/
inductive EState where
  | decoded | issued | complete | faulted
  deriving DecidableEq, Repr

/-- An entry of the task window (R32). -/
structure Entry where
  seq   : Nat
  lpc   : Word
  hdr   : Header := {}
  ops   : List Operand := []
  state : EState := .decoded
  fault : Option Report := none
  mult  : Bool := false
  /-- Ordinals and continuations that have not ended (R38). -/
  left  : Nat := 0
  conts : Nat := 0
  /-- Groups not yet handed to a prism because the list was empty (R382); gangs not yet admitted (R52). -/
  unhanded : Bool := false
  gangsWaiting : List Nat := []
  /-- The tick of the hand-out, which orders waiting gangs (R376), and the task lanes of a DET entry by prism: facet of the prism and
  slot (R60). -/
  handed : Nat := 0
  lanes  : List (Nat × List (Nat × Nat)) := []
  /-- Where each placement group went: ordinals [lo, hi) and the prism (R50, R58). -/
  placed : List (Nat × Nat × Nat) := []
  /-- The batch has been closed; slices that have not yet applied it (R114, R117). -/
  closing : Bool := false
  closeAt : List Nat := []
  /-- Other devices to which its tasks have sent ".d" atomics, and those that have not yet applied its close (R114). -/
  dDevs   : List Nat := []
  closeDevs : List Nat := []
  /-- What other devices have answered about its outputs there: the lowest that is not SEALED, as operand, tile name and version (R38, R39). -/
  outputs : List (Nat × Option (Nat × Word × Nat)) := []
  /-- The rename table just before it was decoded (R42 step 6). -/
  names : KMap NameB := []
  /-- The address of its descriptor and of its header (R44). -/
  desc  : Word := 0
  hdrAt : Word := 0
  /-- Its descriptor has been read and checked; its header has been read. -/
  parsed : Bool := true
  read  : Bool := true
  /-- Holds raised at decode on the versions it reads: slice, tile, version. -/
  holds : List (Nat × Nat × Nat) := []
  deriving DecidableEq, Repr

/-- An item of the replay list (R44): what an entry was decoded from; no header, and no operands, where decode did not come to them. -/
structure ReplayItem where
  lpc  : Word
  desc : Word
  hdrAt : Word
  hdr  : Option Header
  parsed : Bool := true
  ops  : List Operand
  deriving DecidableEq, Repr

/-- An update of a block of firmware that is being made (R450): its kind, index, SVN and DIGEST. -/
structure UpdateRun where
  kind   : Nat
  index  : Nat
  svn    : Nat
  digest : List Byte
  deriving DecidableEq, Repr

/-- Where the delivery of a fault stands (R42, R323, R350, R357). -/
inductive FaultPhase where
  | none
  /-- Steps 3 to 7 are done; step 8 waits. -/
  | waiting (r : Report) (lpc : Word) (seq : Nat) (mult : Bool)
  /-- The stream is in its fault handler. -/
  | handler
  /-- Delivered to the service core under this token, with the interrupted address where a core was running the stream. -/
  | service (token : Nat) (ipc : Option Word)
  /-- The service core has answered: the replay list is decoded or discarded, and the stream continues at that address (R357). -/
  | answered (resume : Bool) (ipc : Option Word)
  deriving DecidableEq, Repr

/-- The descriptor of a context as read when CTXT.V was set (R368, R383). -/
structure CtxDesc where
  part   : Nat := 0
  weight : Nat := 1
  lra    : Nat := 0
  contB  : Nat := 0
  contN  : Nat := 0
  splB   : Nat := 0
  splZ   : Nat := 0
  ovfB   : Nat := 0
  ovfS   : Nat := 0
  root   : Nat := 0
  asn    : Nat := 0
  score  : Option Nat := none
  sup    : Bool := false
  redok  : Bool := false
  world  : Bool := false
  deriving DecidableEq, Repr

/-- The debug block of a context (R407–R412, R418). -/
structure DebugBlock where
  gj   : BitVec 4 := 0
  gjen : Bool := false
  hts  : Bool := false
  clf  : Bool := false
  clb  : Bool := false
  att  : Bool := false
  ovf  : Bool := false
  hlt  : Bool := false
  /-- Vector 65 has been raised since both were last clear (R436). -/
  told : Bool := false
  iba  : KMap Word := []
  ibc  : KMap Word := []
  wpa  : KMap Word := []
  wpc  : KMap Word := []
  hstat : BitVec 16 := 0
  hqTail : BitVec 6 := 0
  hqHead : BitVec 6 := 0
  hq   : KMap (BitVec 128) := []
  deriving DecidableEq, Repr

/-- A context with its task window (R31, R367). -/
structure Context where
  /-- CTXT.DESC; V is `live`. -/
  desc  : BitVec 38 := 0
  live  : Bool := false
  d     : CtxDesc := {}
  names : KMap NameB := []
  /-- Entries in decode order, oldest first. -/
  window : List Entry := []
  nseq  : BitVec 32 := 0
  replay : List ReplayItem := []
  phase : FaultPhase := .none
  /-- Other devices that have not yet accepted the drops of R42 step 5. -/
  dropDevs : List Nat := []
  /-- A delivery has failed and there is no service core: the next is at an SVEC (R323). -/
  noRecord : Bool := false
  /-- Where the stream continues when a core next runs it: an answer of the service core came while none did (R357). -/
  goAt : Option Word := none
  svecH : Word := 0
  svecR : Word := 0
  spillUsed : Nat := 0
  dbg   : DebugBlock := {}
  deriving DecidableEq, Repr

/-- What an invalidation concerns (R392): a page's range of an address space, an address space, or those of a partition. -/
inductive TiWork where
  | page (asn : Nat) (base : Word) (size : Nat) | context (asn : Nat) | partition (p : Nat)
  deriving DecidableEq, Repr

/-- Whether a control core runs (R341, R344, R348). -/
inductive CoreRun where
  | notStarted | running | stopped | smc
  deriving DecidableEq, Repr

/-- A control core (R346, R347, R392). -/
structure Core where
  th    : Thread := {}
  level : BitVec 1 := 1
  run   : CoreRun := .notStarted
  wld   : Bool := false
  pie   : Bool := false
  ie    : Bool := false
  pl    : Bool := false
  stvec : Word := 0
  sepc  : Word := 0
  scause : Word := 0
  staddr : Word := 0
  sscratch : Word := 0
  stimer : Word := 0
  sctx  : BitVec 6 := 0
  /-- The context whose stream the core runs: SCTX as the last TRET to level 0 found it (R345). -/
  stream : BitVec 6 := 0
  sipMgmt : Bool := false
  sipPre : Bool := false
  sipNotify : Bool := false
  sipStrm : Bool := false
  sie   : BitVec 6 := 0
  sfqb  : BitVec 32 := 0
  sfqHead : BitVec 5 := 0
  sfqTail : BitVec 5 := 0
  spsel : BitVec 11 := 0
  cyc   : Nat := 0
  tiva  : BitVec 48 := 0
  tiErr : Bool := false
  /-- The invalidation in progress (R392). -/
  tiWork : Option TiWork := none
  /-- The last trap was taken at this level 1 address and its first instruction has not been fetched (R348). -/
  trapped : Bool := false
  park  : Option Park := none
  cnt   : Counts := {}
  late  : List LateRep := []
  ibuf  : Option (Word × BitVec 32) := none
  deriving DecidableEq, Repr

/-- A partition (R364). -/
structure Part where
  prisms : List Nat := []
  slices : List Nat := []
  /-- The slice list of R70 after redirects (R400). -/
  homes  : List Nat := []
  cores  : List Nat := []
  ports  : BitVec 16 := 0
  /-- HBMBj and HBMLj in units of 64 KiB. -/
  hbm    : List (BitVec 28 × BitVec 28) := []
  hspB   : BitVec 32 := 0
  hspN   : BitVec 8 := 0
  deriving DecidableEq, Repr

/-- A copy in flight (R99–R106): its slot, direction, ranges, target and what has been written. -/
structure Copy where
  f     : Nat
  n     : Nat
  ctx   : Nat
  seq   : Nat
  pc    : Word
  toGlobal : Bool
  multi : Bool
  ga    : Word
  la    : Nat
  len   : Nat
  cpt   : BitVec 31
  mcm   : Word
  mcb   : BitVec 11
  /-- Queue operations recorded at issue that must have read (R135): mq0, mq1 entries and sequencer items still ahead. -/
  ahead : List Nat := []
  /-- The next offset it moves on its own, where its own pass ends, and what it reports once a stream has settled that. -/
  done  : Nat := 0
  stop  : Nat := 0
  total : Option Nat := none
  cause : Option (BitVec 8) := none
  finished : Bool := false
  deriving DecidableEq, Repr

/-- A contribution to a pair-merge (R278, R279). -/
structure Contrib where
  f   : Nat
  n   : Nat
  vl  : Nat
  m   : VReg
  s   : VReg
  d   : BitVec 5
  deriving DecidableEq, Repr

/-- A merge of R279: its name and the contributions that have arrived. -/
structure Merge where
  ctx  : Nat
  seq  : Nat
  mcb  : BitVec 11
  mask : Word
  k    : Nat
  parts : List Contrib := []
  deriving DecidableEq, Repr

/-- A trigger channel (R432). -/
structure Chan where
  hg    : BitVec 4 := 0
  hctx  : BitVec 6 := 0
  run   : Bool := false
  once  : Bool := false
  en    : Bool := false
  gate  : Bool := false
  hold  : Bool := false
  snpe  : Bool := false
  snps  : Bool := false
  stopev : BitVec 16 := 0
  startev : BitVec 16 := 0
  tts   : Word := 0
  tbeg  : Word := 0
  tend  : Word := 0
  /-- The windows that have ended in the last 64 ticks, and the last one (R433). -/
  past  : List (Nat × Nat) := []
  deriving DecidableEq, Repr

/-- The last snapshot, which every block of the device latches in the same tick (R434): registers by block index and offset; the words
whose contents the reference does not lay out are free values of the latch (log 7). -/
structure Snap where
  seq  : BitVec 32 := 0
  ch   : BitVec 8 := 0
  late : Bool := false
  v    : Bool := false
  ts   : Word := 0
  regs : KMap (KMap Word) := []
  deriving DecidableEq, Repr

/-- A Walush port (R439, R440). -/
structure Port where
  trained : Bool := false
  /-- How often it has sent a flit again since one was last acknowledged. -/
  retried : Nat := 0
  deriving DecidableEq, Repr

/-- Power and bring-up of the device (R444, R453). -/
inductive Power where
  | rom | up | stopped (step : Nat) | shutDown
  deriving DecidableEq, Repr

/-- An entry of the event log (R447). -/
structure LogEntry where
  tick : Word
  code : BitVec 16
  detail : BitVec 128
  deriving DecidableEq, Repr

/-- What another device of the domain tells this one about windows (R38, R42, R97, R114, log 64): the answers about an entry of this device's
window, and what its own window asks of this device's slices. -/
inductive PeerMsg where
  /-- The lowest output of an entry there that is not SEALED, where there is one. -/
  | outputs (dev c seq : Nat) (missing : Option (Nat × Word × Nat))
  /-- Every slice there has applied the close of an entry's batch. -/
  | closed (dev c seq : Nat)
  /-- The drops of a context's discarded entries have been accepted there. -/
  | dropped (dev c : Nat)
  /-- Its window closes a batch; it deletes the records of a discarded entry. -/
  | close (dev c seq : Nat)
  | deleteD (dev c seq : Nat)
  /-- It drops a version of this device; it takes and ends a decoded entry's hold. -/
  | drop (c : Nat) (va : Word) (ver : Nat)
  | hold (dev c : Nat) (va : Word) (ver : Nat)
  | unhold (dev c : Nat) (va : Word) (ver : Nat)
  /-- The handler that served an AMSG of this device there has ended with a fault (R316): the message, and what it reports. -/
  | handlerFault (id : Nat) (r : Report)
  deriving DecidableEq, Repr

/-- What happens next from outside or by timing, one item of the schedule (log 5). -/
inductive Move where
  /-- A step of the table without a word. -/
  | event (i : Instr)
  /-- A control core's or a facet's clock ticks once, and it issues. -/
  | tick (c : Clock)
  /-- n ticks of the time base pass and nothing issues. -/
  | pass (n : Nat)
  /-- A request of a thread of another device reaches this device (R97). -/
  | arrive (r : Req)
  /-- A message of a thread of another device reaches this device. -/
  | message (m : Flight)
  /-- A message of another device about windows. -/
  | peer (m : PeerMsg)
  /-- A parked request of a thread of another device is withdrawn there, its felim exceeded (R245). -/
  | withdraw (id : Nat)
  /-- The host writes a register of BAR0 (R435, R436). -/
  | host (addr : Nat) (v : Word)
  /-- The host writes `size` bytes at an offset of the notify window (R369). -/
  | notify (off size : Nat) (v : Word)
  /-- Monitor firmware starts a control core that has not run yet, at an address (R341, log 3). -/
  | startCore (k : Nat) (pc : Word)
  /-- The management controller sends a message to a control core: SIP.MGMT (R347). -/
  | mgmtMessage (k : Nat)
  deriving DecidableEq, Repr

/-- The device. -/
structure State where
  cores   : KMap Core := []
  prisms  : KMap Prism := []
  facets  : KMap Facet := []
  slices  : KMap Slice := []
  ctxs    : KMap Context := []
  parts   : KMap Part := []
  /-- HBM (R69): rising addresses, no zero byte; an unlisted byte reads 0 (log 1). -/
  mem     : List Host.Cell := []
  /-- Tainted 32-byte sectors and poisoned 64-byte granules of HBM, rising. -/
  memT    : List Nat := []
  memP    : List Nat := []
  qmap    : KMap Word := []
  nqpend  : KMap Word := []
  /-- Region table: first word and LIMIT word of each entry (R401). -/
  regions : KMap (Word × Word) := []
  tick    : Nat := 0
  dev     : Nat := 0
  domain  : List Nat := []
  reqs    : KMap Req := []
  copies  : KMap Copy := []
  flights : KMap Flight := []
  merges  : KMap Merge := []
  /-- Windows with announced SC operations that have not closed (R132). -/
  scOpen  : List Nat := []
  apParts : BitVec 16 := 0
  apSec   : Bool := false
  apErr   : Bool := false
  apLast  : BitVec 4 := 0
  apData  : Word := 0
  dmva    : Word := 0
  dmdata  : Word := 0
  dmctx   : BitVec 6 := 0
  dmwr    : Bool := false
  dmTaint : Bool := false
  testPort : BitVec 112 := 0
  chans   : KMap Chan := []
  /-- The tick in which each event of R431 last occurred, by its name. -/
  events  : KMap Nat := []
  /-- Actions of channels on their way to tick T + 64 (R430): action tick, channel, start or stop, late (R443). -/
  actions : List (Nat × Nat × Bool × Bool) := []
  snap    : Snap := {}
  hmRes   : BitVec 32 := 0
  hmEvt   : Bool := false
  hmDone  : Bool := false
  hmBusy  : Bool := false
  hmCmd   : Word := 0
  hmData  : KMap Byte := []
  /-- MSI-X vectors raised, oldest first (R436, R437). -/
  msix    : List Nat := []
  wfwd    : KMap (BitVec 32) := []
  /-- Starts of channels that ports have forwarded, oldest first: port, channel, tick (R443). -/
  trgs    : List (Nat × Nat × Nat) := []
  /-- Requests of other devices for a third one, forwarded through ports, oldest first: port, sender, address (R440). -/
  forwards : List (Nat × Agent × Word) := []
  routes  : KMap (BitVec 16) := []
  ports   : KMap Port := []
  master  : Bool := false
  joinsFailed : List Nat := []
  meas    : KMap (BitVec 512) := []
  log     : List LogEntry := []
  /-- HBM stacks in service (R403). -/
  stacksIn : List Nat := []
  svn     : KMap Nat := []
  /-- The update that is being made (R450). -/
  update  : Option UpdateRun := none
  power   : Power := .rom
  /-- Corrected and uncorrected errors counted by block (R434, R451). -/
  errs    : KMap (Nat × Nat) := []
  /-- THE MODEL'S OWN (log 5): the schedule, the internal steps that have become due, those that become due at a tick, whose
  clock ticks, whose instruction is executed, the next number of a request, and how many free values have been drawn. -/
  sched   : List Move := []
  due     : List Instr := []
  later   : List (Nat × Instr) := []
  clock   : Clock := .core 0
  turn    : Agent := .core 0
  /-- The instruction tried in this turn is stalled: the class of R425 that applies. -/
  stalled : Option Nat := none
  nextId  : Nat := 1
  free    : Nat := 0
  deriving DecidableEq, Repr

/-- The device after reset (R12, R444): nothing runs, memory lists nothing; values no rule states are in logs 1 to 5. -/
def State.reset : State := {}

end Sys2Proof.Machine
end

