-- ==== Sys2Proof/Machine/Ops.lean ====
section
/-! DEFINITION. The named operations over the state: the parts by number, scalar registers and predicates, what becomes due,
halting a slot, and taking an exception (R348, R352, R353, R316). Every instruction and every step goes through these. -/

namespace Sys2Proof.Machine

/-- The outcome of a step. -/
abbrev Out := Host.Outcome State Fault Refusal

/-! Causes of R17. -/

def cILLEGAL : BitVec 8 := 0x01
def cPRIV : BitVec 8 := 0x02
def cALIGN : BitVec 8 := 0x03
def cLSRANGE : BitVec 8 := 0x04
def cACCESS : BitVec 8 := 0x05
def cNOMAP : BitVec 8 := 0x06
def cSTACK : BitVec 8 := 0x07
def cWAITLIMIT : BitVec 8 := 0x08
def cWRITEONCE : BitVec 8 := 0x09
def cVGONE : BitVec 8 := 0x0A
def cFPX : BitVec 8 := 0x0B
def cPOISON : BitVec 8 := 0x0C
def cBREAK : BitVec 8 := 0x0D
def cBKPT : BitVec 8 := 0x0E
def cWATCH : BitVec 8 := 0x0F
def cSTEP : BitVec 8 := 0x10
def cGANG : BitVec 8 := 0x11
def cLANES : BitVec 8 := 0x12

/-- A cause that software writes (R17): a reserved number reads back as 0x01. -/
def causeStored (c : BitVec 8) : BitVec 8 := if 0x01#8 ≤ c ∧ c ≤ 0x12#8 then c else 0x01#8

/-- A bit of a bit vector set to a value. -/
def setBit {w : Nat} (v : BitVec w) (i : Nat) (b : Bool) : BitVec w :=
  if b then v ||| (1#w <<< i) else v &&& ~~~(1#w <<< i)

/-! Scalar registers and predicates (R14, R183). -/

/-- X[r]: x0 reads as 0. -/
def Thread.rx (t : Thread) (r : BitVec 5) : Word := if r = 0 then 0 else t.x.get ⟨r.toNat, r.isLt⟩

/-- The taint bit of X[r] (R16). -/
def Thread.tx (t : Thread) (r : BitVec 5) : Bool := r != 0 && t.xt.getLsbD r.toNat

/-- X[r] ← v with a taint bit: a write to x0 is discarded; a write clears a poison mark (R231) and replaces an
older result that was not yet ready (R223). -/
def Thread.wx (t : Thread) (r : BitVec 5) (v : Word) (taint : Bool) : Thread :=
  if r = 0 then t
  else { t with x := t.x.set r.toNat v r.isLt, xt := setBit t.xt r.toNat taint, marks := kdel r.toNat t.marks,
                lat := kdel r.toNat t.lat }

/-- P[p]: p0 reads as 1. -/
def Thread.rp (t : Thread) (p : BitVec 3) : Bool := p == 0 || t.p.getLsbD p.toNat

/-- P[p] ← b: a write to p0 is discarded. -/
def Thread.wp (t : Thread) (p : BitVec 3) (b : Bool) : Thread :=
  if p = 0 then t else { t with p := setBit t.p p.toNat b, lat := kdel (32 + p.toNat) t.lat }

/-- X[r] awaits a result (R126), or no longer does. -/
def Thread.await (t : Thread) (r : BitVec 5) (b : Bool) : Thread := if r = 0 then t else { t with pend := setBit t.pend r.toNat b }

/-- X[r] receives the poison mark of a load (R231). -/
def Thread.mark (t : Thread) (r : BitVec 5) (m : Mark) : Thread :=
  if r = 0 then t else { t with marks := kset r.toNat m t.marks }

/-- STAT.PP (R193). -/
def Thread.pp (t : Thread) : Bool := t.stat.getLsbD 0

/-- A prefix is pending for the instruction at the pc: that instruction is the word after the FMTP (R188). The words of an interrupt's
handler stand elsewhere, and leave the prefix as it is (R189). -/
def Thread.ppHere (t : Thread) : Bool := t.pp && t.pc == t.ppc

/-- STAT.PP is cleared by the end of the instruction that the prefix is for (R189). -/
def Thread.unprefixed (t : Thread) : Thread := if t.ppHere then { t with stat := setBit t.stat 0 false } else t

/-- The thread after an instruction retires in order: the pc past it, and STAT.PP clear (R189). -/
def Thread.next (t : Thread) : Thread := { t.unprefixed with pc := t.pc + 4 }

/-! Parts by number. -/

def State.core (s : State) (k : Nat) : Core := kget {} s.cores k
def State.prism (s : State) (p : Nat) : Prism := kget {} s.prisms p
def State.facet (s : State) (f : Nat) : Facet := kget {} s.facets f
def State.slice (s : State) (n : Nat) : Slice := kget {} s.slices n
def State.ctx (s : State) (c : Nat) : Context := kget {} s.ctxs c
def State.part (s : State) (p : Nat) : Part := kget {} s.parts p
def Facet.slot (f : Facet) (n : Nat) : Slot := kget {} f.slots n
def State.slot (s : State) (f n : Nat) : Slot := (s.facet f).slot n

def State.setCore (s : State) (k : Nat) (v : Core) : State := { s with cores := kset k v s.cores }
def State.setPrism (s : State) (p : Nat) (v : Prism) : State := { s with prisms := kset p v s.prisms }
def State.setFacet (s : State) (f : Nat) (v : Facet) : State := { s with facets := kset f v s.facets }
def State.setSlice (s : State) (n : Nat) (v : Slice) : State := { s with slices := kset n v s.slices }
def State.setCtx (s : State) (c : Nat) (v : Context) : State := { s with ctxs := kset c v s.ctxs }
def State.setPart (s : State) (p : Nat) (v : Part) : State := { s with parts := kset p v s.parts }
def Facet.setSlot (f : Facet) (n : Nat) (v : Slot) : Facet := { f with slots := kset n v f.slots }
def State.setSlot (s : State) (f n : Nat) (v : Slot) : State := s.setFacet f ((s.facet f).setSlot n v)

def State.modCore (s : State) (k : Nat) (g : Core → Core) : State := s.setCore k (g (s.core k))
def State.modPrism (s : State) (p : Nat) (g : Prism → Prism) : State := s.setPrism p (g (s.prism p))
def State.modFacet (s : State) (f : Nat) (g : Facet → Facet) : State := s.setFacet f (g (s.facet f))
def State.modSlice (s : State) (n : Nat) (g : Slice → Slice) : State := s.setSlice n (g (s.slice n))
def State.modCtx (s : State) (c : Nat) (g : Context → Context) : State := s.setCtx c (g (s.ctx c))
def State.modSlot (s : State) (f n : Nat) (g : Slot → Slot) : State := s.setSlot f n (g (s.slot f n))

/-- The prism of a facet and the die of a prism, by package number (R19, R104). -/
def prismOf (f : Nat) : Nat := f / 8
def dieOf (p : Nat) : Nat := p / 64

/-- The apex of the die that holds a context's control core, the one that runs its stream or is to run it (R31, log 41). -/
def State.apexOf (s : State) (c : Nat) : Option Nat :=
  (s.cores.find? fun (_, x) => x.run != .notStarted && (x.stream.toNat == c || x.sctx.toNat == c)).map fun kx => kx.1 / 8

/-- A block of firmware is being updated (R450). -/
def State.updates (s : State) (kind i : Nat) : Bool := s.update.any fun u => u.kind == kind && u.index == i

/-- The thread of an agent. -/
def State.thread (s : State) : Agent → Thread
  | .core k => (s.core k).th
  | .slot f n => (s.slot f n).th
  | .peer _ => {}

/-- The state with the thread of an agent replaced. -/
def State.setThread (s : State) (a : Agent) (t : Thread) : State :=
  match a with
  | .core k => s.setCore k { s.core k with th := t }
  | .slot f n => s.setSlot f n { s.slot f n with th := t }
  | .peer _ => s

/-- The state with the thread of an agent changed. -/
def State.modThread (s : State) (a : Agent) (g : Thread → Thread) : State := s.setThread a (g (s.thread a))

/-- The thread identifier of a slot of this device (R21). -/
def State.tid (s : State) (f n : Nat) : Nat := s.dev * 0x8000 + f * 16 + n

/-- The context and entry a slot's work belongs to (R58, R315). -/
def Slot.owner (sl : Slot) : Option (Nat × Nat) :=
  match sl.job with
  | .vacant => none
  | .task c seq _ _ => some (c, seq)
  | .handler c seq _ => some (c, seq)

/-- The context and entry whose ordinals a slot holds: of its task, or of the task it waits to start next (R54). -/
def Slot.heldFor (sl : Slot) : Option (Nat × Nat) :=
  match sl.job with
  | .vacant => sl.next
  | .task c seq _ _ => some (c, seq)
  | .handler _ _ _ => none

/-- The context an agent acts in: a core at level 0 in SCTX.CTX (R384), a slot in its task's. -/
def State.ctxOf (s : State) : Agent → Option Nat
  | .core k => if (s.core k).level = 0 then some (s.core k).stream.toNat else none
  | .slot f n => (s.slot f n).owner.map Prod.fst
  | .peer _ => none

/-- The entry of a context by window sequence number (R32). -/
def Context.entry (c : Context) (seq : Nat) : Option Entry := c.window.find? (·.seq == seq)
def State.entry (s : State) (c seq : Nat) : Option Entry := (s.ctx c).entry seq

/-- The state with an entry of a window changed. -/
def State.modEntry (s : State) (c seq : Nat) (g : Entry → Entry) : State :=
  s.modCtx c fun x => { x with window := modFirst (·.seq == seq) g x.window }

/-- An agent works for an entry with DET (R62). -/
def State.isDet (s : State) (c seq : Nat) : Bool := ((s.entry c seq).map (·.hdr.det)).getD false

/-- A facet runs a handler's code: the slot holds a user handler (R315). -/
def State.inHandler (s : State) : Agent → Bool
  | .slot f n => match (s.slot f n).job with | .handler _ _ _ => true | _ => false
  | _ => false

/-- The slots of a facet's saved state (R359). -/
def Facet.savedSlots (x : Facet) : KMap Slot := (x.stash.map (·.slots)).getD []

/-! What becomes due. -/

/-- An internal step becomes due, once. -/
def State.pushDue (s : State) (i : Instr) : State := if s.due.contains i then s else { s with due := s.due ++ [i] }

/-- An internal step is put before all others. -/
def State.pushFirst (s : State) (i : Instr) : State := { s with due := i :: s.due.erase i }

/-- An internal step that takes place is no longer due. -/
def State.done (s : State) (i : Instr) : State := { s with due := s.due.erase i }

/-- An internal step becomes due when the time base has advanced by n. -/
def State.inTicks (s : State) (n : Nat) (i : Instr) : State := { s with later := s.later ++ [(s.tick + n, i)] }

/-- A step that has been made due takes place: it is no longer due and its effect applies; where it is not due the state does
not change (R41). -/
def State.whenDue (s : State) (i : Instr) (k : State → State) : Out :=
  .next (if s.due.contains i then k (s.done i) else s)

/-- A free value (log 7): the next of the values the reference does not state. -/
def State.drawFree (s : State) : BitVec 64 × State := (Config.freeWord s.free, { s with free := s.free + 1 })

/-! Trigger events, trace and the event log. -/

/-- A tick lies in a window of a gating channel, one that is open or one that has ended (R433). -/
def State.gateOpen (s : State) (t : Nat) : Bool :=
  s.chans.any fun (_, c) =>
    c.gate && ((c.run && decide (c.tbeg.toNat ≤ t)) || c.past.any fun (b, e) => decide (b ≤ t) && decide (t ≤ e))

/-- An event of R431 has occurred in tick t: idle channels that start on it and running channels that stop on it have that due (R433). -/
def State.emitAt (s : State) (name : BitVec 16) (t : Nat) : State :=
  let starts := s.chans.filter fun (_, c) => c.en && !c.run && c.startev == name
  let stops := s.chans.filter fun (_, c) => c.run && c.stopev == name
  let s := starts.foldl (fun s (k, _) => s.pushDue (.channelStart k)) { s with events := kset name.toNat t s.events }
  stops.foldl (fun s (k, _) => s.pushDue (.channelStop k)) s

/-- An event of R431 occurs now. -/
def State.emit (s : State) (name : BitVec 16) : State := s.emitAt name s.tick

/-- The tick in which an event last occurred: this one where it has not. -/
def State.eventTick (s : State) (name : BitVec 16) : Nat := (kfind name.toNat s.events).getD s.tick

/-- The name of an event of R431. -/
def eventName (kind index : Nat) : BitVec 16 := BitVec.ofNat 16 (kind * 4096 + index)

/-- A trace record of R428 in bytes. -/
def traceRecord (ts kind slot tid : Nat) (pc data : Word) : List Byte :=
  toBytes 8 ts ++ toBytes 1 kind ++ toBytes 1 slot ++ toBytes 2 0 ++ toBytes 4 tid ++ toBytes 8 pc.toNat ++ toBytes 8 data.toNat

/-- A record of tick `ts` enters the trace unit (R429): it holds 16, and a record that finds it full is dropped and counted. The KIND 8 record
that precedes the first one after a loss is written with it. -/
def Trace.put (t : Trace) (ts n : Nat) (r : List Byte) : Trace :=
  let before := if t.dropped = 0 then [] else traceRecord ts 8 n 0 0 (BitVec.ofNat 64 t.dropped)
  if t.unit.length < 16 then { t with unit := t.unit ++ [before ++ r], dropped := 0 }
  else { t with dropped := t.dropped + 1, lost := t.lost + 1 }

/-- A record of tick `ts` is made: under GATE it waits for 64 ticks (R433). -/
def Trace.record (t : Trace) (ts n : Nat) (r : List Byte) : Trace :=
  if t.gate then { t with gated := t.gated ++ [(ts, n, r)] } else t.put ts n r

/-- A slot makes a trace record (R428). -/
def State.traceEvent (s : State) (f n kind tid : Nat) (pc data : Word) : State :=
  let t := (s.facet f).trace
  let c := (s.slot f n).owner.map Prod.fst
  if !t.en || !t.kinds.getLsbD (kind - 1) || (t.ctxen && c != some t.ctx.toNat) then s
  else s.modFacet f fun x => { x with trace := t.record s.tick n (traceRecord s.tick kind n tid pc data) }

/-- An MSI-X message is sent (R436, R437). -/
def State.raiseMsix (s : State) (v : Nat) : State := { s with msix := s.msix ++ [v] }

/-- An entry enters the event log of 256, the oldest giving way; HMST.EVT becomes 1 (R436, R447). -/
def State.logEvent (s : State) (code : Nat) (detail : Nat) : State :=
  let e : LogEntry := { tick := BitVec.ofNat 64 s.tick, code := BitVec.ofNat 16 code, detail := BitVec.ofNat 128 detail }
  let l := s.log ++ [e]
  let s' := { s with log := l.drop (l.length - 256) }
  if s.hmEvt then s' else { s'.raiseMsix 64 with hmEvt := true }

/-! Event codes of the log (R447; the codes are the model's, log 9). -/
def evDoubleTrap : Nat := 1
def evRefusedWrite : Nat := 2
def evUncorrectable : Nat := 3
def evPeerLost : Nat := 4
def evJoinFailed : Nat := 5
def evUpdateDone : Nat := 6
def evUpdateRefused : Nat := 7
def evFatal : Nat := 8
def evDrain : Nat := 9

/-! Halting a slot and its halt queue (R352, R407, R408). -/

/-- The flag byte of a trap record (R353). -/
def TrapRec.flg (r : TrapRec) : BitVec 8 := 0#5 ++ bit r.dbg ++ bit r.win ++ bit r.late

/-- A context lies within the reach of the aperture (R405): one that is not valid is in no partition. -/
def State.reachable (s : State) (c : Nat) : Bool :=
  let d := (s.ctx c).d
  (s.ctx c).live && s.apParts.getLsbD d.part && (s.apSec || !d.world)

/-! The outcomes that APST records (R405). -/
def apDENIED : Nat := 1
def apNOTHALTED : Nat := 2
def apTIMEOUT : Nat := 3
def apNOMAP : Nat := 4
def apACCESS : Nat := 5
def apPOISON : Nat := 6
def apBADADDR : Nat := 7

/-- The outcome of an access is recorded in APST. -/
def State.apst (s : State) (code : Nat) : State := { s with apLast := BitVec.ofNat 4 code, apErr := s.apErr || code != 0 }

/-- What the memory port says of a cause (R424). -/
def apOf (cause : BitVec 8) : Nat := if cause = cNOMAP then apNOMAP else if cause = cPOISON then apPOISON else apACCESS

/-- DEVT.HLT or DEVT.OVF is set: where it becomes 1 within reach, vector 65 is raised, and again only after both have been clear (R436). -/
def State.haltEvent (s : State) (c : Nat) (ovf : Bool) : State :=
  let x := s.ctx c
  let becomes := if ovf then !x.dbg.ovf else !x.dbg.hlt
  let tell := becomes && !x.dbg.told && s.reachable c
  let s := s.setCtx c { x with dbg := { x.dbg with ovf := x.dbg.ovf || ovf, hlt := x.dbg.hlt || !ovf, told := x.dbg.told || tell } }
  if tell then s.raiseMsix 65 else s

/-- A halt queue entry is written, or DEVT.OVF set where the queue is full (R407, R408). -/
def State.haltEntry (s : State) (c f n : Nat) (r : TrapRec) : State :=
  let d := (s.ctx c).dbg
  if !d.att then s
  else if d.hqTail + 1 = d.hqHead then s.haltEvent c true
  else
    let e : BitVec 128 := r.pc ++ 0#16 ++ r.flg ++ r.cause ++ BitVec.ofNat 32 (s.tid f n)
    (s.modCtx c fun x => { x with dbg := { x.dbg with hq := kset d.hqTail.toNat e x.dbg.hq, hqTail := d.hqTail + 1 } }).haltEvent
      c false

/-- The parked cycles of a slot's instruction that count towards felim (R77, R421), which it keeps where it is abandoned (R358, R416): those
of its own wait, and those of the request or the message that it waits for. -/
def State.parkedCycles (s : State) (f n : Nat) : Option Nat :=
  (s.slot f n).park.map fun p =>
    p.elapsed + ((p.req.bind fun id => kfind id s.reqs).map (·.elapsed)).getD 0 + ((p.req.bind fun id => kfind id s.flights).map (·.elapsed)).getD 0

/-- The parked cycles that a slot's instruction counts beside those of the request or message numbered `id` that it waits for. -/
def State.carried (s : State) (a : Agent) (id : Nat) : Nat :=
  match a with
  | .slot f n => (match (s.slot f n).park with | some p => if p.req = some id then p.elapsed else 0 | none => 0)
  | _ => 0

/-- A slot halts at a boundary with a trap record (R352, R353): it issues nothing more, its park is dropped with its elapsed
cycles kept, and the halt is told to the debugger, the trace and the trigger network. After CAUSE 0x0E or 0x0F its first instruction is not
checked again (R414); a halt for another cause than its group's hold clears HELD (R418). -/
def State.haltSlot (s : State) (f n : Nat) (r : TrapRec) : State :=
  let sl := s.slot f n
  let byHold := (r.cause == cBKPT && r.info == 0xFF) || r.cause == cSTEP
  let s := s.setSlot f n { sl with trap := some r, park := none, ibuf := none, rex := (s.parkedCycles f n).orElse fun _ => sl.rex,
                                   sdc := { sl.sdc with stepping := none, haltReq := none, held := sl.sdc.held && byHold,
                                                        skip := r.cause == cBKPT || r.cause == cWATCH } }
  let s := s.modFacet f fun x => { x with parked := sdel n x.parked }
  let s := s.traceEvent f n 4 0 r.pc (r.cause.setWidth 64)
  match sl.owner with
  | some (c, _) => (s.haltEntry c f n r).emit (eventName 4 c)
  | none => s

/-! Taking an exception. -/

/-- The kinds of SCAUSE (R347). -/
def kFault : BitVec 2 := 0
def kSvc : BitVec 2 := 1
def kInterrupt : BitVec 2 := 2

/-- A control core traps (R348): SEPC, SCAUSE and STADDR record it, the level and IE are saved in SMODE, the core enters level
1 with interrupts off, at STVEC. -/
def Core.trap (c : Core) (kind : BitVec 2) (code : BitVec 12) (epc addr : Word) : Core :=
  { c with sepc := epc &&& ~~~3#64, scause := (0#46 ++ kind ++ 0#4 ++ code), staddr := addr,
           pl := c.level = 1, pie := c.ie, ie := false, level := 1, trapped := true, park := none, ibuf := none,
           th := { c.th with pc := c.stvec } }

/-- What a faulting instruction reports. -/
structure Trouble where
  cause : BitVec 8
  addr  : Word := 0
  info  : Word := 0
  late  : Bool := false
  /-- The instruction: none is the one at the pc. -/
  pc    : Option Word := none

/-- The report a slot makes of a fault (R323, R353). -/
def State.reportOf (s : State) (f n : Nat) (r : TrapRec) : Report :=
  let sl := s.slot f n
  { cause := r.cause, late := r.late, handler := (match sl.job with | .handler _ _ _ => true | _ => false),
    ord := sl.ord.toNat, pc := r.pc, addr := r.addr, info := r.info, tid := s.tid f n }

/-- A loop body that is being entered ends: what has been entered runs once (R265). -/
def State.endLoop (s : State) (f n : Nat) : State :=
  if (s.slot f n).loopLeft = 0 then s
  else
    let close := fun (i : SeqItem) =>
      if i.filling && i.slot == n then { i with filling := false, count := 1 } else i
    let s := s.modSlot f n fun x => { x with loopLeft := 0 }
    s.modFacet f fun x => { x with seqQ := (x.seqQ.map close).filter fun i => i.filling || !i.body.isEmpty }

/-- A report is sent to the task window: TASK_FAULT is due (R41, R42). -/
def State.sendReport (s : State) (f n c seq : Nat) (r : Report) : State :=
  (s.modFacet f fun x => { x with reports := x.reports ++ [(n, c, seq, r)] }).pushDue (.taskFault f n)

/-- A user handler ends (R315, R316): the AMSG it served leaves its sender's ST count and slot 15 is free for its next entry. -/
def State.endHandler (s : State) (f n msg : Nat) : State :=
  let sl := s.slot f n
  let s := s.setSlot f n { ({} : Slot) with mbox := sl.mbox, spill := sl.spill, stalls := sl.stalls, sdc := { grp := sl.sdc.grp, pair := sl.sdc.pair },
                                            msrc := 0 }
  let s := match kfind msg s.flights with
    | some m => match m.who with
      | .slot f' n' => s.modSlot f' n' fun x => { x with cnt := { x.cnt with st := x.cnt.st - 1 } }
      | _ => s
    | none => s
  { s with flights := kdel msg s.flights }

/-- What a slot has sent goes on without it: accesses that have retired still take place, and what they return finds no one. -/
def State.detach (s : State) (f n : Nat) : State :=
  let nobody : Agent := .peer (s.tid f n)
  { s with reqs := s.reqs.map (fun (kr : Nat × Req) => if kr.2.who = .slot f n then (kr.1, { kr.2 with who := nobody }) else kr),
           flights := s.flights.map (fun (km : Nat × Flight) => if km.2.who = .slot f n then (km.1, { km.2 with who := nobody }) else km) }

/-- A fault's report is held for the debugger: of a tile task a fault that DCTL.CLF claims, of any slot a BREAK that DCTL.CLB claims
(R221, R409), and every fault met during a step. -/
def State.claimed (s : State) (sl : Slot) (c : Nat) (cause : BitVec 8) : Bool :=
  let d := (s.ctx c).dbg
  let task := match sl.job with | .task _ _ _ _ => true | _ => false
  (d.att && (if cause = cBREAK then d.clb else task && d.clf)) || sl.sdc.stepping.isSome

/-- The AMSG that a handler serves came from a thread of another device (R21). -/
def State.strange (s : State) (sl : Slot) : Bool := sl.msrc.toNat % 2 ^ 27 / 32768 != s.dev

/-- Taking an exception, the one operation for every agent: a control core traps (R348); a tile task's slot halts with its trap
record and its fault is reported to the window, held for the debugger (R409) or collected (FPX, R354); a fault of a user
handler ends it and is reported against the entry of the AMSG's sender (R316), on the sender's device, or halts it where the debugger has
claimed it (R221). -/
def State.takeFault (s : State) (a : Agent) (t : Trouble) : State :=
  match a with
  | .peer _ => s
  | .core k =>
    let c := s.core k
    s.setCore k (c.trap kFault (t.cause.setWidth 12) c.th.pc t.addr)
  | .slot f n =>
    let s := s.endLoop f n
    let sl := s.slot f n
    let r : TrapRec := { cause := t.cause, late := t.late, pc := t.pc.getD sl.th.pc, addr := t.addr, info := t.info }
    match sl.job with
    | .vacant => s
    | .handler c seq msg =>
      let rep := s.reportOf f n r
      if s.claimed sl c t.cause then (s.haltSlot f n r).modSlot f n fun x => { x with held := some rep }
      else
        let t := (s.detach f n).endHandler f n msg
        if s.strange sl then t else t.sendReport f n c seq rep
    | .task c seq _ _ =>
      let rep := s.reportOf f n r
      let held := s.claimed sl c t.cause
      let s := s.haltSlot f n r
      if t.cause = cFPX then
        let s := s.modSlot f n fun x => { x with fpx := true, held := if held then some rep else none }
        s.modFacet f fun x => { x with winFpx := sadd n x.winFpx }
      else if held then s.modSlot f n fun x => { x with held := some rep }
      else s.sendReport f n c seq rep

/-- The outcome of an instruction of the executing agent that faults with a cause (R14, fault()). -/
def faultOut (s : State) (cause : BitVec 8) (addr info : Word := 0) : Out :=
  .next (s.takeFault s.turn { cause := cause, addr := addr, info := info })

/-! Late reports (R230). -/

/-- The order in which late reports are taken: by arrival, those of one cycle in issue order. -/
def LateRep.upTo (a b : LateRep) : Bool := decide (a.cyc < b.cyc) || (a.cyc == b.cyc && decide (a.no ≤ b.no))

/-- A late report put in its place among those not yet taken. -/
def addLate (r : LateRep) (l : List LateRep) : List LateRep := l.filter (·.upTo r) ++ r :: l.filter fun q => !q.upTo r

/-- A slot or core takes its oldest late report as a fault at its boundary. -/
def State.takeLate (s : State) (a : Agent) : State :=
  match a with
  | .slot f n =>
    match (s.slot f n).late with
    | [] => s
    | r :: rs =>
      (s.modSlot f n fun x => { x with late := rs }).takeFault a
        { cause := r.cause, addr := r.addr, info := r.info, late := true, pc := some r.pc }
  | .core k =>
    match (s.core k).late with
    | [] => s
    | r :: rs => (s.modCore k fun x => { x with late := rs }).takeFault a { cause := r.cause, addr := r.addr, late := true }
  | .peer _ => s

/-! Retirement. -/

/-- What follows a retirement: a word fetched for the agent is used up; a slot that is stepped halts (R419), or takes a late report, which comes first at that boundary
(R351): with PAIR a step from an FMTP goes on to the prefixed instruction. -/
def State.afterRetire (s : State) (a : Agent) : State :=
  match a with
  | .slot f n =>
    let sl := s.slot f n
    let s := s.setSlot f n { sl with rex := none, loop := 0, park := none, ibuf := none, sdc := { sl.sdc with skip := false } }
    match sl.sdc.stepping with
    | none => s
    | some again =>
      if sl.th.pp && sl.sdc.pair && !again then
        s.modSlot f n fun x => { x with sdc := { x.sdc with stepping := some true } }
      else if sl.late.isEmpty then s.haltSlot f n { cause := cSTEP, dbg := true, pc := sl.th.pc }
      else s.takeLate a
  | .core k => s.modCore k fun c => { c with park := none, ibuf := none }
  | .peer _ => s

/-! Stall classes (R425). -/
def clVACANT : Nat := 1
def clHALT : Nat := 2
def clREG : Nat := 3
def clDIV : Nat := 4
def clBRANCH : Nat := 5
def clSCORE : Nat := 6
def clQFULL : Nat := 7
def clVSEQ : Nat := 8
def clCOUNT : Nat := 9
def clFENCE : Nat := 10
def clACCEPT : Nat := 11
def clFE : Nat := 12
def clMSG : Nat := 13
def clSYNC : Nat := 14
def clOTHER : Nat := 15

/-- An instruction of an agent retires with its thread's new registers and the pc past it. -/
def State.retireAs (s : State) (a : Agent) (t : Thread) : State := (s.setThread a t.next).afterRetire a

/-- The executing agent's instruction retires. -/
def retire (s : State) (t : Thread) : Out := .next (s.retireAs s.turn t)

/-- The executing agent's instruction retires with the pc elsewhere (R215, R216); in fill rotation the slot is not ready for 4
cycles (R217). The transfer is traced (R428). -/
def jump (s : State) (t : Thread) (target : Word) : Out :=
  match s.turn with
  | .slot f n =>
    let s' := (s.setThread s.turn { t.next with pc := target }).traceEvent f n 3 0 t.pc target
    let s' := s'.modSlot f n fun x => { x with wakeAt := (s.facet f).cyc + 5, wakeFor := clBRANCH }
    .next (s'.afterRetire s.turn)
  | a => .next ((s.setThread a { t.next with pc := target }).afterRetire a)

/-- A stalled instruction: it has not retired and is tried again at a later turn (R455). Nothing but the model's note of the stall
changes. -/
def stall (s : State) (cl : Nat := clOTHER) : Out := .next { s with stalled := some cl }

/-- A slot is recorded as parked (R145, R421): an instruction that parks again, be it in another wait, keeps its elapsed cycles, and one
executed again after a halt or a save counts from them (R358, R360). It has issued, and SKIP ends (R414). -/
def State.parkAs (s : State) (f n : Nat) (kind : ParkKind) (addr : Word) (req : Option Nat) (fe : Option FeAccess) : State :=
  let sl := s.slot f n
  let e := match sl.park with
    | some p => p.elapsed
    | none => sl.rex.getD 0
  s.setSlot f n { sl with park := some { kind, addr, elapsed := e, req, fe }, rex := none, sdc := { sl.sdc with skip := false } }

/-- A stall of the executing slot that the debugger can see (R421): the instruction is tried again at the slot's next turn, and has not
issued. -/
def stallAs (s : State) (kind : ParkKind) (cl : Nat) : Out :=
  match s.turn with
  | .slot f n =>
    let skip := (s.slot f n).sdc.skip
    stall ((s.parkAs f n kind 0 none none).modSlot f n fun x => { x with sdc := { x.sdc with skip := skip } }) cl
  | _ => stall s cl

/-- The instruction did not issue: it is stalled. -/
def stalledOut : Out → Bool
  | .next t => t.stalled.isSome
  | _ => false

/-- What decode and issue demand of an instruction beyond its own checks (R181, R188, R315, R126, R231). -/
structure Need where
  /-- It executes on facets, on control cores. -/
  facet  : Bool := true
  core   : Bool := true
  /-- It is prefixable. -/
  prefixed : Bool := false
  /-- A user handler may execute it. -/
  handler  : Bool := true
  /-- It may stand in a VLOOP's body. -/
  body     : Bool := false
  /-- What decode finds wrong in its fields or its privilege: ILLEGAL or PRIV, before any operand is looked at (R182, R351). -/
  refuse   : Option (BitVec 8) := none
  /-- Scalar registers it reads, and those it writes. -/
  reads  : List (BitVec 5) := []
  writes : List (BitVec 5) := []
  /-- Predicates it reads and those it writes. -/
  preads : List (BitVec 3) := []
  pwrites : List (BitVec 3) := []
  /-- The cycles from its issue to the first in which a consumer of its result may issue on a facet, and whether it occupies the divider
  for as long (R223). -/
  cycles : Nat := 1
  divides : Bool := false

/-- Some register of a list awaits a result. -/
def Thread.waits (t : Thread) (rs : List (BitVec 5)) : Bool := rs.any fun r => t.pend.getLsbD r.toNat

/-- The first marked register of a list. -/
def Thread.marked (t : Thread) (rs : List (BitVec 5)) : Option Mark := rs.findSome? fun r => kfind r.toNat t.marks

/-- A format code of a prefix field, or 31, "not specified"; another code, which a debugger or a save area can put there, no role accepts
(R187, R188). -/
def fmtCodeOk (c : BitVec 5) : Bool := decide (c.toNat < 12) || (decide (16 ≤ c.toNat) && decide (c.toNat < 24)) || c == 31

/-- The format codes of the pending prefix. -/
def Thread.codesOk (t : Thread) : Bool :=
  fmtCodeOk (t.stat.extractLsb' 6 5) && fmtCodeOk (t.stat.extractLsb' 11 5) && fmtCodeOk (t.stat.extractLsb' 16 5)

/-- An instruction may be decoded by its agent: the major executes on the core, a pending prefix finds a prefixable instruction,
a handler may execute it. -/
def State.admits (s : State) (n : Need) : Bool :=
  (match s.turn with
    | .core _ => n.core
    | .slot _ _ => n.facet
    | .peer _ => false) &&
  (!(s.thread s.turn).ppHere || (n.prefixed && (s.thread s.turn).codesOk)) && (!s.inHandler s.turn || n.handler) &&
  (match s.turn with
    | .slot f k => (s.slot f k).loopLeft == 0 || n.body
    | _ => true)

/-- Some vector instruction of a slot has not completed (R156). -/
def Facet.vecBusy (x : Facet) (n : Nat) : Bool :=
  x.seqQ.any (fun i => i.body.any fun v => v.slot == n) || x.inflight.any fun r => r.slot == n

/-- A vector floating-point instruction that a slot issued under a trap enable has not completed: the slot issues nothing past it,
the rest of a loop body apart (R160, R265). -/
def State.fpHeld (s : State) : Agent → Bool
  | .slot f n =>
    let x := s.facet f
    (x.slot n).loopLeft == 0 &&
      (x.seqQ.any (fun i => i.body.any fun v => v.slot == n && v.traps != 0) || x.inflight.any fun r => r.slot == n && r.traps != 0)
  | _ => false

/-- The keys in `Thread.lat` of the results that an instruction reads, or writes. -/
def Need.sources (n : Need) : List Nat := n.reads.map (·.toNat) ++ n.preads.map fun p => 32 + p.toNat
def Need.results (n : Need) : List Nat := ((n.writes.filter (· != 0)).map (·.toNat)) ++ (n.pwrites.filter (· != 0)).map fun p => 32 + p.toNat

/-- On a facet, some result that an instruction reads is not ready yet (R223). -/
def State.unready (s : State) (n : Need) : Bool :=
  match s.turn with
  | .slot f k => n.sources.any fun r => match kfind r (s.slot f k).th.lat with | some c => (s.facet f).cyc < c | none => false
  | _ => false

/-- On a facet, a divide finds the divider busy (R223). -/
def State.dividerBusy (s : State) (n : Need) : Bool :=
  match s.turn with
  | .slot f _ => n.divides && decide ((s.facet f).cyc < (s.facet f).divFree)
  | _ => false

/-- An instruction that has retired on a facet gives its results after its latency (R223). -/
def State.latency (s : State) (n : Need) (f k : Nat) : State :=
  let c := (s.facet f).cyc + n.cycles
  s.modSlot f k fun y => { y with th := { y.th with lat := n.results.foldl (fun m r => kset r c m) y.th.lat } }

/-- A divide that has issued holds the divider for its latency, whether it retires or ends with FPX (R223). -/
def State.holdDivider (s : State) (n : Need) (f : Nat) : State :=
  if n.divides then s.modFacet f fun x => { x with divFree := x.cyc + n.cycles } else s

/-- The outcome of an instruction with the readiness of its results. -/
def timed (s : State) (n : Need) (o : Out) : Out :=
  if n.cycles ≤ 1 then o
  else match s.turn, o with
    | .slot f k, .next t =>
      if t.stalled.isSome then o
      else
        let t := t.holdDivider n f
        .next (if (t.slot f k).th.pc = (s.slot f k).th.pc + 4 then t.latency n f k else t)
    | _, _ => o

/-- Decode and issue of an instruction: ILLEGAL where it is not admitted, ILLEGAL or PRIV as its fields give (R182), a stall while a
register it names awaits a result (R126, R223) or the divider is busy, POISON where a register it reads is marked (R231, R351), and
otherwise its own effect. -/
def issue (s : State) (n : Need) (k : Thread → Out) : Out :=
  let t := s.thread s.turn
  if !s.admits n then faultOut s cILLEGAL
  else match n.refuse with
    | some cause => faultOut s cause
    | none =>
      if t.waits (n.reads ++ n.writes) || s.unready n then stall s clREG
      else if s.dividerBusy n then stall s clDIV
      else if s.fpHeld s.turn then stall s clVSEQ
      else match t.marked n.reads with
        | some m => .next (s.takeFault s.turn { cause := cPOISON, addr := m.addr, pc := some m.pc })
        | none => timed s n (k t)

end Sys2Proof.Machine
end

