-- ==== Sys2Proof/Machine/Operands.lean ====
section
/-! DEFINITION. Operand forms of the scalar instructions: the widths of R201, immediates (R186), effective addresses and offsets
(R179), and the types of loads, stores and atomics. -/

namespace Sys2Proof.Machine

/-- The width in bits of a width code (R201). -/
def widthBits : Width → Nat
  | .w64 => 64 | .w32 => 32 | .w16 => 16 | .w8 => 8

/-- A narrow width code as a width code (R201, R205). -/
def widen : NWidth → Width
  | .w32 => .w32 | .w16 => .w16 | .w8 => .w8

/-- trunc(v, w) extended to 64 bits: with zeros when U = 1, with the sign bit when U = 0 (R14, R201). -/
def narrow (w : Width) (u : Bool) (v : Word) : Word :=
  match w with
  | .w64 => v
  | .w32 => if u then zext64 (v.setWidth 32) else sext64 (v.setWidth 32)
  | .w16 => if u then zext64 (v.setWidth 16) else sext64 (v.setWidth 16)
  | .w8 => if u then zext64 (v.setWidth 8) else sext64 (v.setWidth 8)

/-- v < w, signed when U = 0 and unsigned when U = 1. -/
def lessThan (u : Bool) (v w : Word) : Bool := if u then v.ult w else v.slt w

/-- A 12-bit immediate at 64 bits (R186). -/
def imm12 (i : BitVec 12) : Word := sext64 i

/-- A 20-bit immediate at 64 bits (R186). -/
def imm20 (i : BitVec 20) : Word := sext64 i

/-- The target of a B-format offset from an address (R179). -/
def branchTarget (pc : Word) (i : BitVec 12) : Word := pc + imm12 i * 4

/-- The target of a J-format offset from an address (R179). -/
def jumpTarget (pc : Word) (i : BitVec 20) : Word := pc + imm20 i * 4

/-- The bits [p + l − 1 : p] of a doubleword, l from 1 to 64, zero-extended (R204). -/
def bitField (v : Word) (p l : Nat) : Word := (v >>> p) &&& ((1#64 <<< l) - 1)

/-- The low l bits of a doubleword, l from 1 to 64, sign-extended (R14). -/
def signField (v : Word) (l : Nat) : Word := (v <<< (64 - l)).sshiftRight (64 - l)

/-- The format of a type code of R207. -/
def typFmt : FTyp → Fmt
  | .f32 => .f32 | .bf16 => .bf16 | .f16 => .f16 | .f64 => .f64

/-- How many bytes a load reads, and whether it extends with the sign (R232). -/
def ldBytes : LdTyp → Nat
  | .i8 | .n8 => 1 | .i16 | .n16 => 2 | .i32 | .n32 => 4 | .n64 => 8
def ldSigned : LdTyp → Bool
  | .i8 | .i16 | .i32 => true
  | .n8 | .n16 | .n32 | .n64 => false

/-- How many bytes a store writes (R233). -/
def stBytes : StTyp → Nat
  | .n8 => 1 | .n16 => 2 | .n32 => 4 | .n64 => 8

/-- How many bytes an atomic acts on (R238), and how many a remote atomic does (R247). -/
def amBytes : AmTyp → Nat
  | .i32 | .n32 | .f32 => 4 | .i64 | .n64 | .f64 => 8 | .bf16 | .f16 => 2
def rmBytes : RmTyp → Nat
  | .i32 | .n32 => 4 | .i64 | .n64 => 8

/-- The signed integer types (R238, R247). -/
def amSigned : AmTyp → Bool
  | .i32 | .i64 => true
  | _ => false
def rmSigned : RmTyp → Bool
  | .i32 | .i64 => true
  | .n32 | .n64 => false

/-- The number of k bytes as a register: sign-extended or zero-extended (R232). -/
def extendBytes (signed : Bool) (k v : Nat) : Word :=
  if signed then signField (BitVec.ofNat 64 v) (8 * k) else BitVec.ofNat 64 (v % 2 ^ (8 * k))

end Sys2Proof.Machine
end

