-- ==== Sys2Proof/Machine/Flags.lean ====
section
/-! DEFINITION. The rounding register and the format prefix: mode, saturation and formats in effect (R155, R187, R188), sticky
flags, FPX and the stochastic counter (R160 to R162), and how a floating instruction of FOP, FMA and PRED ends. -/

namespace Sys2Proof.Machine

/-- What may be written to rnd: the RW bits, and 0 for MODE 6 and 7 (R155). -/
def rndStored (v : BitVec 32) : BitVec 32 :=
  let v := v &&& 0x00071F0F#32
  if v.extractLsb' 0 3 = 6#3 ∨ v.extractLsb' 0 3 = 7#3 then v &&& ~~~7#32 else v

/-- RND.MODE. -/
def rndMode (v : BitVec 32) : RMode := (RMode.ofCode (v.extractLsb' 0 3).toNat).getD .rne

/-- RND.SAT. -/
def rndSat (v : BitVec 32) : Bool := v.getLsbD 3

/-- The trap enables TNV, TDZ and TOF as exceptions (R155). -/
def rndTraps (v : BitVec 32) : BitVec 3 := v.extractLsb' 16 3

/-- The exceptions of a set whose enables are set (R160). -/
def trapped (en : BitVec 3) (x : Exc) : Bool := (en &&& x.extractLsb' 0 3) != 0

/-- rnd with an exception set ORed into the sticky flags. -/
def rndOr (v : BitVec 32) (x : Exc) : BitVec 32 := v ||| (x.setWidth 32 <<< 8)

/-- A prefix: the formats, mode and saturation it specifies (R187). -/
structure Prefix where
  fa : Option Fmt := none
  fb : Option Fmt := none
  fd : Option Fmt := none
  rm : Option RMode := none
  sat : Option Bool := none

/-- A format field of stat: 31 is "not specified". -/
def prefixFmt (c : BitVec 5) : Option Fmt := (pfmtOf c).getD none

/-- The latency of scalar floating-point results other than quotients and roots (R223). -/
def fpCycles : Nat := 5

/-- The prefix that the next instruction runs under, none specified where none is pending (R188, R193). A PRM of 6 and a PSAT of 3, which only a
debugger or a save area can put into STAT, are read as not specified: the reference gives them no effect (log 75). -/
def Thread.pre (t : Thread) : Prefix :=
  if t.ppHere then
    { fa := prefixFmt (t.stat.extractLsb' 6 5), fb := prefixFmt (t.stat.extractLsb' 11 5),
      fd := prefixFmt (t.stat.extractLsb' 16 5), rm := (prmOf (t.stat.extractLsb' 3 3)).getD none,
      sat := (psatOf (t.stat.extractLsb' 1 2)).getD none }
  else {}

/-- The rounding mode and saturation in effect (R188). -/
def Thread.mode (t : Thread) : RMode := t.pre.rm.getD (rndMode t.rnd)
def Thread.saturates (t : Thread) : Bool := t.pre.sat.getD (rndSat t.rnd)

/-- The rounding of element i of the instruction. -/
def Thread.rounding (t : Thread) (i : Nat) : Rounding :=
  { mode := t.mode, sat := t.saturates, draw := draw t.rkey t.rctr i }

/-- rctr after n elements are rounded (R162). -/
def Thread.drawn (t : Thread) (n : Nat) : Thread :=
  if t.mode = .sr then { t with rctr := t.rctr + BitVec.ofNat 64 n } else t

/-- A vector instruction of an agent that rounds in mode SR has not started: its draws come first (R162). -/
def State.drawsPending (s : State) : Agent → Bool
  | .slot f n => (s.facet f).seqQ.any fun i => i.body.any fun v => v.slot == n && v.rm == .sr
  | _ => false

/-- signal() at the end of a scalar floating instruction that rounds n elements (R14, R160): its exceptions join the flags and
rctr advances; where a trap is enabled it ends with FPX, its destination not written, and STAT.PP clear (R189); otherwise it
retires with its result. -/
def finishFp (s : State) (t : Thread) (x : Exc) (n : Nat) (write : Thread → Thread) : Out :=
  if n ≠ 0 ∧ t.mode = .sr ∧ s.drawsPending s.turn then stall s clVSEQ
  else
  let t' := { t.drawn n with rnd := rndOr t.rnd x }
  if trapped (rndTraps t.rnd) x then
    .next ((s.setThread s.turn t'.unprefixed).takeFault s.turn { cause := cFPX })
  else retire s (write t')

/-- The bits of a register that hold a value of a format (R184). -/
def fpOperand (f : Fmt) (v : Word) : Nat := v.toNat % 2 ^ f.width

end Sys2Proof.Machine
end

