-- ==== Sys2Proof/Machine/AtomicOps.lean ====
section
/-! DEFINITION. The arithmetic of the memory-side atomic unit (R238, R240) and of the built-in remote atomics (R247). -/

namespace Sys2Proof.Machine

/-- The operations of R238 by their code. -/
def opSwap : Nat := 0
def opCas : Nat := 1
def opAdd : Nat := 2
def opMin : Nat := 3
def opMax : Nat := 4
def opAnd : Nat := 5
def opOr : Nat := 6
def opXor : Nat := 7
def opLoad : Nat := 8
def opStore : Nat := 9

/-- The floating format of an atomic type. -/
def amFmt : AmTyp → Option Fmt
  | .f32 => some .f32 | .f64 => some .f64 | .bf16 => some .bf16 | .f16 => some .f16
  | _ => none

/-- An integer of k bytes read signed or unsigned. -/
def amInt (signed : Bool) (k v : Nat) : Int :=
  let v := v % 2 ^ (8 * k)
  if signed ∧ 2 ^ (8 * k - 1) ≤ v then (v : Int) - 2 ^ (8 * k) else v

/-- The new value of an integer target of k bytes from its old value (R238). -/
def intNew (op : Nat) (signed : Bool) (k old v : Nat) : Nat :=
  let m := 2 ^ (8 * k)
  match op with
  | 2 => (old + v) % m
  | 3 => if amInt signed k v < amInt signed k old then v % m else old
  | 4 => if amInt signed k old < amInt signed k v then v % m else old
  | 5 => old &&& (v % m)
  | 6 => old ||| (v % m)
  | 7 => old ^^^ (v % m)
  | 8 => old
  | _ => v % m

/-- The new value of a floating target: rounded RNE without saturation or flags (R240). -/
def floatNew (op : Nat) (f : Fmt) (old v : Nat) : Nat :=
  match op with
  | 2 => (deliver f rne (fAdd false (decodeFloat f old) (decodeFloat f v))).1
  | 3 => (fMinMax false f old v).1
  | 4 => (fMinMax true f old v).1
  | 8 => old
  | _ => v % 2 ^ f.width

/-- The new value of a target from its old value, the operand and the compare value (R238). -/
def amNew (op : Nat) (t : AmTyp) (old v cmp : Nat) : Nat :=
  match amFmt t with
  | some f => floatNew op f old v
  | none =>
    if op = opCas then (if old = cmp % 2 ^ (8 * amBytes t) then v % 2 ^ (8 * amBytes t) else old)
    else intNew op (amSigned t) (amBytes t) old v

/-- The register result of an atomic: the old value extended by its type (R239). -/
def amResult (t : AmTyp) (old : Nat) : Word := extendBytes (amSigned t) (amBytes t) old

end Sys2Proof.Machine
end

