-- ==== Sys2Proof/Machine/Translate.lean ====
section
/-! DEFINITION. Addresses and translation: the device field (R68), home slices (R70), region checks (R401, R402), page-table
walks, entries and their attributes (R385 to R391), permissions (R389), and the space in which an agent's addresses lie (R384). -/

namespace Sys2Proof.Machine

/-- A bit of a 64-bit entry and a field of it. -/
def bitAt (v : Word) (i : Nat) : Bool := v.getLsbD i
def fieldAt (v : Word) (lo len : Nat) : Nat := v.toNat / 2 ^ lo % 2 ^ len

/-! Regions (R401, R402). -/

/-- The world of the lowest-numbered enabled region that holds a physical address. -/
def State.region (s : State) (pa : Nat) : Option Bool :=
  (s.regions.find? fun (_, b, l) =>
    bitAt b 63 && fieldAt b 16 28 * 65536 ≤ pa && pa < fieldAt l 16 28 * 65536).map fun (_, b, _) => bitAt b 62

/-- A physical address lies in the register space (R362). -/
def isRegister (pa : Nat) : Bool := 0xFF000000000 ≤ pa

/-- The HBM stack of a physical address: stack i begins at i × 2^40 (log 17). -/
def stackOf (pa : Nat) : Nat := pa / 2 ^ 40

/-- A physical address lies in the 64 GiB of one of the twelve stacks (R19, R25). -/
def inStack (pa : Nat) : Bool := stackOf pa < 12 && pa % 2 ^ 40 < 2 ^ 36

/-- A physical access to memory by an issuer of a world is allowed: the register space (R363) and what lies in no stack (log 17) are no
memory, whatever region covers them. -/
def State.mayTouch (s : State) (secure : Bool) (pa : Nat) : Bool :=
  !isRegister pa && inStack pa &&
    (match s.region pa with
      | some w => secure || !w
      | none => false)

/-! Addresses (R68, R70). -/

/-- Where an address lies. -/
inductive Where where
  | here | device (d : Nat) | nowhere
  deriving DecidableEq, Repr

/-- The device of an address as this device reads it (R68). -/
def State.whereIs (s : State) (va : Word) : Where :=
  let d := fieldAt va 52 12
  if d = 0xFFF ∨ d = s.dev then .here else if s.domain.contains d then .device d else .nowhere

/-- The local virtual address, bits [51:0]. -/
def localVa (va : Word) : Nat := va.toNat % 2 ^ 52

/-- The number of a byte of global memory, the same for the two addresses it has on its own device: this device is 0xFFF. -/
def State.canon (s : State) (va : Word) : Nat :=
  match s.whereIs va with
  | .here => 0xFFF * 2 ^ 52 + localVa va
  | _ => va.toNat

/-- The number of an address's 512-byte line in caches. -/
def State.lineOf (s : State) (va : Word) : Nat := s.canon va / 512

/-- The entry of a slice list of n slices that is the home of an address (R70). -/
def homeIndex (va : Word) (n : Nat) : Nat :=
  let g := fieldAt va 16 36
  (g % 4096 ^^^ g / 4096 % 4096 ^^^ g / 16777216 % 4096) % n

/-- The home slice of an address in a context. -/
def State.home (s : State) (c : Nat) (va : Word) : Option Nat :=
  let l := (s.part (s.ctx c).d.part).homes
  l[homeIndex va l.length]?

/-! HBM words as the device reads them by physical address (R390). -/

def State.hbm64 (s : State) (pa : Nat) : Word := BitVec.ofNat 64 (ofBytes (readBytes s.mem pa 8))
def State.hbm32 (s : State) (pa : Nat) : Nat := ofBytes (readBytes s.mem pa 4)
def State.hbmRead (s : State) (pa n : Nat) : Nat := ofBytes (readBytes s.mem pa n)

/-! Walks (R385 to R388, R391). -/

/-- How a walk ends: a leaf with its size, a miss, or a cause. -/
inductive Walk where
  | leaf (w : Word) (size : Nat) | miss | bad
  deriving DecidableEq, Repr

/-- A leaf entry that maps `size` bytes is well formed for a context (R388); RED reads as 0 without REDOK. -/
def leafOk (d : CtxDesc) (size : Nat) (e : Word) : Bool :=
  fieldAt e 45 11 == 0 && fieldAt e 16 28 * 65536 % size == 0 && fieldAt e 7 2 != 3 &&
    fieldAt e 10 4 ≤ 9 && (bitAt e 9 || fieldAt e 10 4 == 0) &&
    !(bitAt e 9 && (bitAt e 4 || (bitAt e 14 && d.redok) || bitAt e 44)) && (d.world || !bitAt e 5)

/-- A pointer entry to a table of a size is well formed (R386, R388). -/
def pointerOk (tableSize : Nat) (e : Word) : Bool :=
  fieldAt e 44 12 == 0 && fieldAt e 2 6 == 0 && fieldAt e 8 36 * 256 % tableSize == 0

/-- The levels still to be read: lowest index bit, index bits, what a leaf maps (0: no leaf allowed), the size of the table that
a pointer here names (0: no pointer allowed). -/
def walkGo (s : State) (sliceWorld : Bool) (d : CtxDesc) (va : Nat) : List (Nat × Nat × Nat × Nat) → Nat → Walk
  | [], _ => .bad
  | (lo, bits, leafSize, next) :: ls, base =>
    let a := base + 8 * (va / 2 ^ lo % 2 ^ bits)
    if !s.mayTouch sliceWorld a then .bad
    else
      let e := s.hbm64 a
      if !bitAt e 0 then .miss
      else if bitAt e 1 then
        if leafSize != 0 && leafOk d leafSize e then .leaf e leafSize else .bad
      else if next != 0 && pointerOk next e then walkGo s sliceWorld d va ls (fieldAt e 8 36 * 256)
      else .bad

/-- The four levels of R385. -/
def levels : List (Nat × Nat × Nat × Nat) :=
  [(43, 9, 0, 8192), (33, 10, 2 ^ 33, 32768), (21, 12, 2 ^ 21, 256), (16, 5, 2 ^ 16, 0)]

/-- A walk for a context at a slice. -/
def State.walk (s : State) (sl c : Nat) (va : Nat) : Walk :=
  let d := (s.ctx c).d
  walkGo s (s.slice sl).world d va levels d.root

/-- The address of the level-4 entry that maps a page, where the walk reaches level 4. -/
def walkEntry (s : State) (va : Nat) : List (Nat × Nat × Nat × Nat) → Nat → Option Nat
  | [], _ => none
  | (lo, bits, _, next) :: ls, base =>
    let a := base + 8 * (va / 2 ^ lo % 2 ^ bits)
    let e := s.hbm64 a
    if !bitAt e 0 then none
    else if bitAt e 1 then (if next = 0 then some a else none)
    else walkEntry s va ls (fieldAt e 8 36 * 256)

/-- An entry of a translation buffer covers an address. -/
def TlbEntry.covers (e : TlbEntry) (asn va : Nat) : Bool := e.asn == asn && e.base ≤ va && va < e.base + e.size

/-- The leaf for an address at a slice: its translation entries, or a walk, which fills one (R391), least recently used given up. -/
def State.translate (s : State) (sl c : Nat) (va : Nat) : Walk × State :=
  let asn := (s.ctx c).d.asn
  match (s.slice sl).tlb.find? (·.covers asn va) with
  | some e => (.leaf e.leaf e.size, s.modSlice sl fun x => { x with tlb := e :: x.tlb.erase e })
  | none =>
    match s.walk sl c va with
    | .leaf w size =>
      let e : TlbEntry := { asn := asn, base := va / size * size, size := size, leaf := w }
      (.leaf w size, s.modSlice sl fun x => { x with tlb := (e :: x.tlb).take 2048 })
    | r => (r, s)

/-- The leaf for an address at a slice as a lookup outside any access finds it. -/
def State.walkAt (s : State) (sl c : Nat) (va : Nat) : Walk := (s.translate sl c va).1

/-- The physical address that a leaf of a size gives. -/
def leafPa (leaf : Word) (size va : Nat) : Nat := fieldAt leaf 16 28 * 65536 + va % size

/-! Attributes of a leaf (R387). -/

def leafDir (w : Word) : Bool := bitAt w 44
def leafRed (d : CtxDesc) (w : Word) : Bool := bitAt w 14 && d.redok
def leafVer (w : Word) : Bool := bitAt w 9
def leafPrivate (w : Word) : Bool := bitAt w 6
def leafNoPrefetch (w : Word) : Bool := bitAt w 15
def tileSize (w : Word) : Nat := 2 ^ (fieldAt w 10 4 + 7)
def leafGrain (w : Word) : Nat :=
  match fieldAt w 7 2 with
  | 0 => 32 | 1 => 128 | _ => 512

/-- What an access needs of its page (R389). -/
inductive Access where
  | read | write | both | fetch | verRead | verWrite
  deriving DecidableEq, Repr

/-- The page's leaf allows an access (R88, R389). -/
def leafAllows (a : Access) (w : Word) : Bool :=
  match a with
  | .read => !leafVer w && bitAt w 2
  | .write => !leafVer w && bitAt w 3
  | .both => !leafVer w && bitAt w 2 && bitAt w 3
  | .fetch => !leafVer w && bitAt w 4
  | .verRead => leafVer w && bitAt w 2
  | .verWrite => leafVer w && bitAt w 3

/-- The region of a translated access allows it: its world may touch it and the leaf's world is the region's (R402). -/
def State.worldAllows (s : State) (c : Nat) (leaf : Word) (pa : Nat) : Bool :=
  s.mayTouch (s.ctx c).d.world pa && s.region pa == some (bitAt leaf 5)

/-- The outcome of translating and checking a local address: where it is with its leaf, a miss, or a cause (R229). -/
inductive Found where
  | at (pa : Nat) (leaf : Word) | miss | fail (cause : BitVec 8)
  deriving DecidableEq, Repr

/-- Translation and checks at the home slice (R228, R229, R394). A page that could not be mapped with its permission, attribute or
world fails with ACCESS. -/
def State.findAt (s : State) (sl c : Nat) (va : Word) (acc : Access) : Found × State :=
  let v := localVa va
  match s.translate sl c v with
  | (.miss, s) => (.miss, s)
  | (.bad, s) => (.fail cACCESS, s)
  | (.leaf w size, s) =>
    let pa := leafPa w size v
    if !leafAllows acc w || !s.worldAllows c w pa then (.fail cACCESS, s) else (.at pa w, s)

/-- The space in which an agent's addresses lie (R384): physical for a control core at level 1 without a SUP context. -/
inductive Space where
  | phys | ctx (c : Nat)
  deriving DecidableEq, Repr

/-- The partition that holds a control core. -/
def State.partOfCore (s : State) (k : Nat) : Option Nat := (s.parts.find? fun (_, p) => p.cores.contains k).map Prod.fst

/-- The valid SUP context of the partition of a control core. -/
def State.supOf (s : State) (k : Nat) : Option Nat :=
  match s.partOfCore k with
  | none => none
  | some p => (s.ctxs.find? fun (_, c) => c.live && c.d.sup && c.d.part == p).map Prod.fst

/-- The space of an agent. -/
def State.spaceOf (s : State) : Agent → Space
  | .core k =>
    if (s.core k).level = 0 then .ctx (s.core k).stream.toNat
    else match s.supOf k with
      | some c => .ctx c
      | none => .phys
  | .slot f n => .ctx (((s.slot f n).owner.map Prod.fst).getD 0)
  | .peer _ => .phys

/-- The physical address of a level-1 physical access, where the address is one (R384). -/
def State.physOf (s : State) (va : Word) : Option Nat :=
  let d := fieldAt va 52 12
  if fieldAt va 44 8 = 0 ∧ (d = 0xFFF ∨ d = s.dev) then some (fieldAt va 0 44) else none

end Sys2Proof.Machine
end

