-- ==== Sys2Proof/Machine/Cache.lean ====
section
/-! DEFINITION. HBM with its taint and poison, the slices' caches and the prism caches (R79 to R84, R118, R122 to R128), the
write-back of dirty bytes (R80, R457), fences (R129, R237), and instruction fetch (R178). -/

namespace Sys2Proof.Machine

/-! Lines of 512 bytes. -/

/-- The bytes [off, off + n) of a line as a mask. -/
def span (off n : Nat) : BitVec 512 := BitVec.ofNat 512 ((2 ^ n - 1) * 2 ^ off)

/-- Bytes placed at an offset of a line. -/
def placed (off : Nat) (b : List Byte) : BitVec 4096 := BitVec.ofNat 4096 (ofBytes b * 2 ^ (8 * off))

/-- A byte mask as a bit mask. -/
def widenMask (m : BitVec 512) : BitVec 4096 :=
  BitVec.ofNat 4096 ((List.range 512).foldr (fun i r => if m.getLsbD i then 255 + 256 * r else 256 * r) 0)

/-- n bytes at an offset of a line. -/
def Line.bytes (l : Line) (off n : Nat) : List Byte := (List.range n).map fun i => l.data.extractLsb' (8 * (off + i)) 8

/-- Every byte of [off, off + n) is valid. -/
def Line.has (l : Line) (off n : Nat) : Bool := l.valid &&& span off n == span off n

/-- The sectors, and the 64-byte granules, that [off, off + n) touches. -/
def sectorsOf (off n : Nat) : List Nat := upto (off / 32) ((off + n + 31) / 32)

/-- Some sector that [off, off + n) touches has a bit set. -/
def anySector (v : BitVec 16) (off n : Nat) : Bool := (sectorsOf off n).any fun i => v.getLsbD i

/-- The sectors all of whose bytes, and those some of whose bytes, a mask holds. -/
def wholeSectors (m : BitVec 512) : BitVec 16 :=
  (List.range 16).foldl (fun v i => setBit v i (m.extractLsb' (32 * i) 32 == BitVec.allOnes 32)) 0
def partSectors (m : BitVec 512) : BitVec 16 := (List.range 16).foldl (fun v i => setBit v i (m.extractLsb' (32 * i) 32 != 0)) 0

/-- The sectors of the 64-byte granules all of whose bytes a mask holds. -/
def wholeGranules (m : BitVec 512) : BitVec 16 :=
  let w := wholeSectors m
  (List.range 16).foldl (fun v i => setBit v i (w.getLsbD (i / 2 * 2) && w.getLsbD (i / 2 * 2 + 1))) 0

/-- The sectors of the 64-byte granules some of whose bytes a mask holds. -/
def partGranules (m : BitVec 512) : BitVec 16 :=
  let w := partSectors m
  (List.range 16).foldl (fun v i => setBit v i (w.getLsbD (i / 2 * 2) || w.getLsbD (i / 2 * 2 + 1))) 0

/-- Bytes written into a line under a mask: they become valid and dirty; a sector written whole takes the data's taint, one
written in part takes the OR; a granule written whole takes the data's poison, one written in part the OR (R83, R231). -/
def Line.merge (l : Line) (data : BitVec 4096) (m : BitVec 512) (taint poison : BitVec 16) : Line :=
  let w := widenMask m
  let whole := wholeSectors m
  { l with data := (l.data &&& ~~~w) ||| (data &&& w), valid := l.valid ||| m, dirty := l.dirty ||| m,
           taint := (l.taint &&& ~~~whole) ||| (taint &&& partSectors m),
           poison := (l.poison &&& ~~~wholeGranules m) ||| (poison &&& partGranules m) }

/-- Fetched bytes put into a line where it has none of its own that are dirty (R80, R129). The fetched taint and poison replace those of
a sector without dirty bytes, join those of a partly dirty one, and leave those of one that is dirty throughout. -/
def Line.fill (l : Line) (data : BitVec 4096) (m : BitVec 512) (taint poison : BitVec 16) : Line :=
  let m' := m &&& ~~~l.dirty
  let w := widenMask m'
  let ps := partSectors m
  { l with data := (l.data &&& ~~~w) ||| (data &&& w), valid := l.valid ||| m',
           taint := (l.taint &&& ~~~(ps &&& ~~~partSectors l.dirty)) ||| (taint &&& ps &&& ~~~wholeSectors l.dirty),
           poison := (l.poison &&& ~~~(ps &&& ~~~partGranules l.dirty)) ||| (poison &&& ps &&& ~~~wholeGranules l.dirty) }

/-! HBM. -/

/-- The 512-byte line of HBM at a line number, restricted to the sectors that [off, off + n) touches. -/
def State.hbmLine (s : State) (ln off n : Nat) : Line :=
  (sectorsOf off n).foldl
    (fun l i =>
      let pa := ln * 512 + 32 * i
      { l with data := l.data ||| placed (32 * i) (readBytes s.mem pa 32), valid := l.valid ||| span (32 * i) 32,
               taint := setBit l.taint i (s.memT.contains (pa / 32)),
               poison := setBit l.poison i (s.memP.contains (pa / 64)) })
    {}

/-- The bytes of a line under a mask written to HBM, with their taint and poison (R83). -/
def State.hbmMerge (s : State) (ln : Nat) (data : BitVec 4096) (m : BitVec 512) (taint poison : BitVec 16) : State :=
  let mem := (List.range 512).foldl
    (fun mem i => if m.getLsbD i then writeByte (ln * 512 + i) (data.extractLsb' (8 * i) 8) mem else mem) s.mem
  let whole := wholeSectors m
  let part := partSectors m
  let gran := wholeGranules m
  let memT := (List.range 16).foldl
    (fun l i => if part.getLsbD i then sput (ln * 16 + i) (taint.getLsbD i || (!whole.getLsbD i && l.contains (ln * 16 + i))) l
      else l) s.memT
  let some' := partGranules m
  let memP := (List.range 8).foldl (fun l i => if some'.getLsbD (2 * i) then
      sput (ln * 8 + i) (poison.getLsbD (2 * i) || poison.getLsbD (2 * i + 1) || (!gran.getLsbD (2 * i) && l.contains (ln * 8 + i))) l
    else l) s.memP
  { s with mem := mem, memT := memT, memP := memP }

/-- Untainted bytes the device writes at HBM by physical address (R390): whole sectors lose their taint and whole granules their poison
(R83). Its callers test the address (State.mayTouch, log 17). -/
def State.hbmWrite (s : State) (pa : Nat) (b : List Byte) : State :=
  let inside := fun (u i : Nat) => decide (pa ≤ u * i ∧ u * i + u ≤ pa + b.length)
  { s with mem := writeBytes pa b s.mem, memT := s.memT.filter fun i => !inside 32 i, memP := s.memP.filter fun i => !inside 64 i }

/-! Slices (R84). -/

/-- The slice's line with the sectors of [off, off + n) filled from HBM where they are absent. -/
def State.sliceLine (s : State) (sl ln off n : Nat) : Line :=
  let l := kget {} (s.slice sl).cache ln
  let absent := (sectorsOf off n).filter fun i => !l.has (32 * i) 32
  let h := s.hbmLine ln off n
  absent.foldl (fun l i => l.fill h.data (span (32 * i) 32) h.taint h.poison) l

/-- What a read gives: bytes, taint, and whether a granule is poisoned. -/
structure Got where
  bytes  : List Byte
  taint  : Bool
  poison : Bool
  deriving DecidableEq, Repr

/-- n bytes of a line at an offset. -/
def Line.get (l : Line) (off n : Nat) : Got :=
  { bytes := l.bytes off n, taint := anySector l.taint off n, poison := anySector l.poison off n }

/-- A slice's dirty line reaches HBM with its poison and is given up (R71, R83). -/
def State.sliceEvict (s : State) (sl ln : Nat) : State :=
  match kfind ln (s.slice sl).cache with
  | none => s
  | some l =>
    let s := s.hbmMerge ln l.data l.dirty l.taint l.poison
    s.modSlice sl fun x => { x with cache := kdel ln x.cache }

/-- The pair exists (R89). -/
def VState.created : VState → Bool
  | .waiting => false
  | .opened | .sealed | .dropping => true

/-- Bytes of the tile pool, or of the HBM frame area, that frames use (R85). -/
def Slice.framed (x : Slice) (pool : Bool) : Nat :=
  (x.versions.filter fun e => e.st.created && e.pool == pool).foldl (fun n e => n + e.size) 0

/-- The lines of HBM that a slice's cache can hold: 2 MiB less the tile pool (R84). Where TPOOL has shrunk below the frames in use, the pool
shrinks and the cache grows as they are freed (R378). -/
def Slice.lineLimit (x : Slice) : Nat := 4096 - max (128 * x.tpool.toNat) ((x.framed true + 511) / 512)

/-- A line enters a slice's cache; lines beyond its size are evicted, others than this one, lowest address first (log 56). -/
def State.sliceKeep (s : State) (sl ln : Nat) (l : Line) : State :=
  let s := s.modSlice sl fun x => { x with cache := kset ln l x.cache }
  let x := s.slice sl
  (((x.cache.map Prod.fst).filter (· != ln)).take (x.cache.length - x.lineLimit)).foldl (fun s j => s.sliceEvict sl j) s

/-- A read at a slice within one line, with the line kept (R80) unless the page is direct (R390). -/
def State.sliceRead (s : State) (sl pa n : Nat) (dir : Bool) : Got × State :=
  let ln := pa / 512
  if dir then ((s.hbmLine ln (pa % 512) n).get (pa % 512) n, s)
  else
    let l := s.sliceLine sl ln (pa % 512) n
    (l.get (pa % 512) n, s.sliceKeep sl ln l)

/-- Bytes merged at a slice within one line (R80). A merge whose mask covers a whole granule replaces its poison, whether one store or
several partial ones made up the mask: the reference speaks of one store (log 57). -/
def State.sliceMerge (s : State) (sl ln : Nat) (data : BitVec 4096) (m : BitVec 512) (taint poison : BitVec 16) (dir : Bool) : State :=
  if dir then s.hbmMerge ln data m taint poison
  else
    let l := (partSectors m)
    let base := (List.range 16).foldl (fun b i => if l.getLsbD i then
      (if b.has (32 * i) 32 then b else let h := s.hbmLine ln (32 * i) 32; b.fill h.data (span (32 * i) 32) h.taint h.poison)
      else b) (kget {} (s.slice sl).cache ln)
    s.sliceKeep sl ln (base.merge data m taint poison)

/-- Bytes stored at a slice at a physical address within one line, with one taint. -/
def State.sliceWrite (s : State) (sl pa : Nat) (b : List Byte) (taint dir : Bool) : State :=
  s.sliceMerge sl (pa / 512) (placed (pa % 512) b) (span (pa % 512) b.length)
    (if taint then BitVec.allOnes 16 else 0) 0 dir

/-- Untainted bytes of a structure that tasks read through the slices, a launch record, written at HBM: copies that caches hold take them
too (R55). -/
def State.sharedWrite (s : State) (pa : Nat) (b : List Byte) : State :=
  let put := fun (i : Nat) (l : Line) =>
    let lo := max pa (i * 512)
    let n := min (pa + b.length) (i * 512 + 512) - lo
    let q := l.merge (placed (lo - i * 512) ((b.drop (lo - pa)).take n)) (span (lo - i * 512) n) 0 0
    { q with valid := l.valid, dirty := l.dirty &&& ~~~span (lo - i * 512) n }
  let slice := fun (x : Slice) =>
    { x with cache := x.cache.map fun (kl : Nat × Line) =>
        if pa < kl.1 * 512 + 512 ∧ kl.1 * 512 < pa + b.length then (kl.1, put kl.1 kl.2) else kl }
  let s := s.hbmWrite pa b
  { s with slices := s.slices.map fun (kx : Nat × Slice) => (kx.1, slice kx.2) }

/-- A read across lines at a slice, as pieces that each lie within one line. -/
def piecesOf (pa n : Nat) : List (Nat × Nat) :=
  (upto (pa / 512) ((pa + n + 511) / 512)).map fun l =>
    let lo := max pa (l * 512)
    (lo, min (pa + n) (l * 512 + 512) - lo)

/-- n bytes read at slices by sector for a vector load (R83): each with taint and poison. -/
def State.gather (s : State) (sl pa n : Nat) (dir : Bool) : List (Byte × Bool × Bool) × State :=
  (unitsOf 32 pa n).foldl
    (fun (r : List (Byte × Bool × Bool) × State) (u : Nat × Nat) =>
      let (g, s) := r.2.sliceRead sl u.1 u.2 dir
      (r.1 ++ g.bytes.map fun b => (b, g.taint, g.poison), s))
    ([], s)

/-- The bytes of [va, va + n) as their home slices on this device hold them now; where a page has no translation any more, those that an earlier
read found. -/
def State.regather (s : State) (c : Nat) (va : Word) (n : Nat) (got : List (Byte × Bool × Bool)) : List (Byte × Bool × Bool) × State :=
  (piecesOf va.toNat n).foldl
    (fun (r : List (Byte × Bool × Bool) × State) (u : Nat × Nat) =>
      let a : Word := BitVec.ofNat 64 u.1
      let old := (got.drop (u.1 - va.toNat)).take u.2
      match s.whereIs a, s.home c a with
      | .here, some sl =>
        (match r.2.translate sl c (localVa a) with
          | (.leaf w size, s) => let (g, s) := s.gather sl (leafPa w size (localVa a)) u.2 (leafDir w); (r.1 ++ g, s)
          | (_, s) => (r.1 ++ old, s))
      | _, _ => (r.1 ++ old, r.2))
    ([], s)

/-! Pending ".d" bytes (R115). -/

/-- The ".d" records of a slice: in its holding buffer and in its runs. -/
def Slice.records (x : Slice) : List DRec := x.hold ++ x.runs.flatMap Prod.snd

/-- The records of an entry, named as in BATCH_CLOSE: seq, or for device d's window (d + 1) × 2^32 + seq. -/
def DRec.ofEntry (c seq : Nat) (r : DRec) : Bool := r.dev == seq / 2 ^ 32 && r.c == c && r.seq == seq % 2 ^ 32

/-- The records of an entry leave a slice. -/
def Slice.without (x : Slice) (c seq : Nat) : Slice :=
  { x with hold := x.hold.filter (fun r => !r.ofEntry c seq), runs := x.runs.filter fun l => !l.2.any (·.ofEntry c seq) }

/-- [pa, pa + n) overlaps bytes with pending ".d" updates at a slice. -/
def Slice.pendingD (x : Slice) (pa n : Nat) : Bool := x.records.any fun r => decide (r.pa < pa + n) && decide (pa < r.pa + amBytes r.t)

/-- Bytes of a line under a mask have pending ".d" updates. -/
def Slice.pendingIn (x : Slice) (ln : Nat) (m : BitVec 512) : Bool :=
  x.records.any fun r => r.pa / 512 == ln && (span (r.pa % 512) (amBytes r.t) &&& m) != 0

/-! Prism caches (R79 to R82). -/

/-- The key of a line in a prism cache: its context's address-space number and its line. -/
def State.lineKey (s : State) (c : Nat) (va : Word) : Nat := (s.ctx c).d.asn * 2 ^ 55 + s.lineOf va

/-- The address of a line of a prism cache. -/
def keyVa (k : Nat) : Word := BitVec.ofNat 64 (k % 2 ^ 55 * 512)

/-- A prism's line. -/
def State.prismLine (s : State) (p k : Nat) : Line := kget {} (s.prism p).cache k

/-- The state with a prism's line replaced; a line without valid bytes, updates and write permission is not kept. -/
def State.setPrismLine (s : State) (p k : Nat) (l : Line) : State :=
  s.modPrism p fun x =>
    { x with cache := if l.valid = 0 ∧ l.upd = none ∧ l.wr = false then kdel k x.cache else kset k l x.cache }

/-- No facet of a prism owns a dirty byte of a line any more. -/
def State.clean (s : State) (p k : Nat) : State :=
  (List.range 8).foldl
    (fun s i => if (s.facet (p * 8 + i)).dirtied.contains (k / 2 ^ 55, k % 2 ^ 55) then
        s.modFacet (p * 8 + i) fun x => { x with dirtied := x.dirtied.filter (· != (k / 2 ^ 55, k % 2 ^ 55)) }
      else s) s

/-- The slice and physical address at which a line of a context's page is written back. -/
inductive WbPlace where
  | at (sl pa : Nat) (leaf : Word) | remote | stuck | lost
  deriving DecidableEq, Repr

/-- Where the write-back of bytes of a line goes (R80): it waits while its page has no translation, its slice is paused or those bytes
have pending ".d" updates (R115); a page whose entry is malformed or whose region refuses loses it (log 10). -/
def State.wbPlace (s : State) (c : Nat) (va : Word) (m : BitVec 512) : WbPlace :=
  match s.whereIs va with
  | .device _ | .nowhere => .remote
  | .here =>
    match s.home c va with
    | none => .lost
    | some sl =>
      match (s.translate sl c (localVa va)).1 with
      | .miss => .stuck
      | .bad => .lost
      | .leaf w size =>
        let pa := leafPa w size (localVa va)
        if !s.worldAllows c w pa then .lost
        else if (s.slice sl).paused || (s.slice sl).pendingIn (pa / 512) m then .stuck
        else match (s.slice sl).mig with
          | .page c' v _ _ => if c' = c ∧ v / 65536 = localVa va / 65536 then .stuck else .at sl pa w
          | _ => .at sl pa w

/-- The state after the walk of a write-back: its translation has been used (R391). -/
def State.wbWalked (s : State) (c : Nat) (va : Word) : State :=
  match s.whereIs va, s.home c va with
  | .here, some sl => (s.translate sl c (localVa va)).2
  | _, _ => s

/-- The partial results of an update-only line applied at the home slice (R118): a floating merge taints its sector. -/
def State.mergeUpdates (s : State) (sl pa : Nat) (dir : Bool) (op : Nat) (t : AmTyp) (l : List (Nat × Word × Bool)) : State :=
  l.foldl
    (fun s (off, v, vt) =>
      let (g, s) := s.sliceRead sl (pa + off) (amBytes t) dir
      if g.poison then s
      else
        let new := amNew op t (ofBytes g.bytes) v.toNat 0
        s.sliceWrite sl (pa + off) (toBytes (amBytes t) new) (vt || g.taint || !t.isInt) dir)
    s

/-- The updates of an update-only line merged at its home slice; they stay while its page has to wait, and those of bytes with pending
".d" updates stay (R115, R118). -/
def State.mergeUpdLine (s : State) (p k : Nat) : State :=
  let l := s.prismLine p k
  match l.upd with
  | none => s
  | some (op, t, us) =>
    let place := s.wbPlace l.ctx (keyVa k) 0
    let s := s.wbWalked l.ctx (keyVa k)
    match place with
    | .stuck => s
    | .remote | .lost => s.setPrismLine p k { l with upd := none }
    | .at sl pa leaf =>
      let held := fun (u : Nat × Word × Bool) => (s.slice sl).pendingD (pa + u.1) (amBytes t)
      let left := us.filter held
      (s.setPrismLine p k { l with upd := if left.isEmpty then none else some (op, t, left) }).mergeUpdates sl pa (leafDir leaf) op t
        (us.filter fun u => !held u)

/-- Every prism's update-only copy of a line is recalled (R118). -/
def State.recallLine (s : State) (k : Nat) : State :=
  s.prisms.foldl (fun s (p, _) => if (s.prismLine p k).upd.isSome then s.mergeUpdLine p k else s) s

/-- The dirty bytes of a line of a prism cache under a mask are merged at the home slice, with their taint and poison, and become clean
(R80, R83); none while the write-back has to wait. -/
def State.writeBackPart (s : State) (p k : Nat) (m : BitVec 512) : Option State :=
  let l := s.prismLine p k
  let d := l.dirty &&& m
  if d = 0 then some s
  else
    let l' := { l with dirty := l.dirty &&& ~~~d }
    let place := s.wbPlace l.ctx (keyVa k) d
    let s := s.wbWalked l.ctx (keyVa k)
    let put := fun (s : State) =>
      let s := s.setPrismLine p k l'
      if l'.dirty = 0 then s.clean p k else s
    match place with
    | .stuck => none
    | .remote | .lost => some (put s)
    | .at sl pa leaf => some (((put s).recallLine k).sliceMerge sl (pa / 512) l.data d l.taint l.poison (leafDir leaf))

/-- A line of a prism cache written back: its dirty bytes, and its updates (R80, R118); none while something of it has to wait. -/
def State.writeBackLine (s : State) (p k : Nat) : Option State :=
  (s.writeBackPart p k (BitVec.allOnes 512)).bind fun s =>
    if (s.prismLine p k).upd.isNone then some s
    else
      let s := s.mergeUpdLine p k
      if (s.prismLine p k).upd.isNone then some s else none

/-- A line leaves a prism's cache with its permissions (R228). -/
def State.dropLine (s : State) (p k : Nat) : State := s.modPrism p fun x => { x with cache := kdel k x.cache }

/-- Room for a line in its set of 16 ways (R79): where they are in use by others, one without dirty bytes and updates is evicted, the
first in the order of the keys, else the first that can be written back (log 56); none while none can. -/
def State.makeRoom (s : State) (p k : Nat) : Option State :=
  let set := (s.prism p).cache.filter fun (kl : Nat × Line) => kl.1 % 128 == k % 128
  if set.length < 16 ∨ set.any (fun (kl : Nat × Line) => kl.1 == k) then some s
  else match set.find? fun (kl : Nat × Line) => kl.2.dirty == 0 && kl.2.upd.isNone with
    | some (j, _) => some (s.dropLine p j)
    | none => set.findSome? fun (kl : Nat × Line) => (s.writeBackLine p kl.1).map fun s => s.dropLine p kl.1

/-- An access to [va, va + n) of a context reaches its lines at the slice: update-only copies are recalled (R118). -/
def State.recall (s : State) (c : Nat) (va : Word) (n : Nat) : State :=
  (piecesOf va.toNat n).foldl (fun s (a, _) => s.recallLine (s.lineKey c (BitVec.ofNat 64 a))) s

/-- Every line of a list written back, or none where one has to wait. -/
def State.writeBackAll (s : State) (p : Nat) : List Nat → Option State
  | [] => some s
  | k :: ks => (s.writeBackLine p k).bind fun s => s.writeBackAll p ks

/-- Every dirty and update-only line of a prism written back (R129). -/
def State.flushPrism (s : State) (p : Nat) : Option State := s.writeBackAll p ((s.prism p).cache.map Prod.fst)

/-- Every clean byte of SHARED pages in a prism's cache invalidated (R128, R129). -/
def State.forget (s : State) (p : Nat) : State :=
  s.modPrism p fun x =>
    let ls := x.cache.map fun (k, l) => (k, if l.shared then { l with valid := l.valid &&& l.dirty } else l)
    { x with cache := ls.filter fun (_, l) => l.valid != 0 || l.upd.isSome }

/-- A read of [va, va + n) within a line of a prism cache, where every byte is valid. -/
def State.prismRead (s : State) (p c : Nat) (va : Word) (n : Nat) : Option Got :=
  let l := s.prismLine p (s.lineKey c va)
  let off := va.toNat % 512
  if l.has off n then some (l.get off n) else none

/-- The dirty-line limit before facet f dirties line k (R81): its least recently dirtied line is written back where it would own
65; none while that has to wait. -/
def State.roomFor (s : State) (f k : Nat) : Option State :=
  let d := (s.facet f).dirtied
  if d.contains (k / 2 ^ 55, k % 2 ^ 55) || d.length < 64 then some s
  else match d with
    | [] => some s
    | (a, l) :: _ => s.writeBackLine (prismOf f) (a * 2 ^ 55 + l)

/-- Bytes under a mask stored into a line of a prism cache by a facet (R80, R81): an update-only line is merged first (R118). None
while a write-back has to wait. -/
def State.prismMerge (s : State) (f c : Nat) (va : Word) (data : BitVec 4096) (m : BitVec 512) (taint : BitVec 16) : Option State :=
  let p := prismOf f
  let k := s.lineKey c va
  let s' := if (s.prismLine p k).upd.isSome then s.writeBackLine p k else some s
  s'.bind fun s => ((s.roomFor f k).bind fun s => s.makeRoom p k).map fun s =>
    let s := s.setPrismLine p k { (s.prismLine p k).merge data m taint 0 with ctx := c }
    s.modFacet f fun x => { x with dirtied := x.dirtied.filter (· != (k / 2 ^ 55, k % 2 ^ 55)) ++ [(k / 2 ^ 55, k % 2 ^ 55)] }

/-- Bytes stored into a prism cache by a facet at an address within one line. -/
def State.prismWrite (s : State) (f c : Nat) (va : Word) (b : List Byte) (taint : Bool) : Option State :=
  s.prismMerge f c va (placed (va.toNat % 512) b) (span (va.toNat % 512) b.length) (if taint then BitVec.allOnes 16 else 0)

/-- Fetched bytes under a mask put into a line of a prism, whose read permission an acceptance has granted (R80, R228). Where the line's set
has no way to give, nothing is kept. -/
def State.prismFill (s : State) (p c k : Nat) (data : BitVec 4096) (m : BitVec 512) (taint poison : BitVec 16) (shared : Bool) : State :=
  match s.makeRoom p k with
  | none => s
  | some s => s.setPrismLine p k { (s.prismLine p k).fill data m taint poison with rd := true, shared := shared, ctx := c }

/-- The clean bytes of a line of a prism under a mask are given up (R122, R143). -/
def State.dropClean (s : State) (p k : Nat) (m : BitVec 512) : State :=
  let l := s.prismLine p k
  if l.valid &&& m &&& ~~~l.dirty = 0 then s else s.setPrismLine p k { l with valid := l.valid &&& (l.dirty ||| ~~~m) }

/-! Fences (R129, R237). -/

/-- A request that a fence waits for: a load, store or atomic of a slot or core (R129, R131). -/
def ReqOp.fenced : ReqOp → Bool
  | .load _ _ | .store _ _ _ | .vload _ _ _ | .vstore _ _ | .atomic _ _ _ _ _ _ _ _ | .join _ => true
  | _ => false

/-- Older global accesses of an agent are still under way, those of the vector sequencer included. -/
def State.unfinished (s : State) (a : Agent) : Bool :=
  (s.reqs.any fun (_, r) => r.who == a && r.op.fenced) ||
  (match a with
    | .slot f n => (s.facet f).seqQ.any fun i => i.body.any fun v => v.slot == n && v.req.isSome
    | _ => false)

/-- An access of an agent to bytes of [va, va + n) is under way, and a younger one to them waits for it (R126): a vector store in the
sequencer, an atomic, a JOIN, or a load that has not been performed; loads of this device's memory, but those of a loop body, are performed
at their acceptance (log 51). An access of a loop body is performed when it starts, in order behind the vector accesses in the sequencer, and
waits for the others only. -/
def State.ownOver (s : State) (a : Agent) (va : Word) (n : Nat) (body : Bool := false) : Bool :=
  let meets := fun (w : Word) (k : Nat) => overlaps (s.canon w) k (s.canon va) n
  s.reqs.any fun (_, r) =>
    r.who == a &&
      (match r.op with
        | .vstore v k => !body && meets v.xa k
        | .vload v k got => !body && (got.isEmpty || v.late) && meets v.xa k
        | .load _ t => s.whereIs r.va != .here && meets r.va (ldBytes t)
        | .atomic _ t _ _ _ _ _ _ => meets r.va (amBytes t)
        | .join _ => meets r.va 64
        | _ => false)

/-- A vector store of an agent has not entered the prism cache: a younger store enters it after that (R126). -/
def State.storing (s : State) (a : Agent) : Bool := s.reqs.any fun (_, r) => r.who == a && (match r.op with | .vstore _ _ => true | _ => false)

/-- A scope that reaches beyond the prism: die, device or domain (R129). -/
def wideScope : Scope → Bool
  | .slot | .facet | .prism => false
  | .die | .device | .domain => true

/-- The release of R129: none while it has to wait. -/
def State.release (s : State) (a : Agent) (wide : Bool) : Option State :=
  if s.unfinished a then none
  else match a with
    | .slot f _ => if wide then s.flushPrism (prismOf f) else some s
    | _ => some s

/-- Some older load of an agent has not returned (R129). -/
def State.unloaded (s : State) (a : Agent) : Bool :=
  s.reqs.any fun (_, r) => r.who == a && (match r.op with | .load _ _ | .vload _ _ _ => true | _ => false)

/-- The acquire of R129: none while an older load has to be performed. -/
def State.acquire (s : State) (a : Agent) (wide : Bool) : Option State :=
  if s.unloaded a then none
  else match a with
    | .slot f _ => some (if wide then s.forget (prismOf f) else s)
    | _ => some s

/-- The acquire's effect on the prism cache, where no load is awaited. -/
def State.refresh (s : State) (a : Agent) (wide : Bool) : State :=
  match a with
  | .slot f _ => if wide then s.forget (prismOf f) else s
  | _ => s

end Sys2Proof.Machine
end

