-- ==== Sys2Proof/Machine/LocalStore.lean ====
section
/-! DEFINITION. Local store (R72 to R78), the range scoreboard's stalls (R100), parked full-empty accesses (R77), and the data
watchpoints that are checked before an access is sent (R412, R413). -/

namespace Sys2Proof.Machine

/-! Words and bytes of local store. -/

def Facet.word (x : Facet) (i : Nat) : LsWord := kget {} x.ls i
def Facet.setWord (x : Facet) (i : Nat) (w : LsWord) : Facet := { x with ls := kput {} i w x.ls }

/-- The byte at a local-store address. -/
def Facet.lsByte (x : Facet) (a : Nat) : Byte := (x.word (a / 4)).data.extractLsb' (8 * (a % 4)) 8

/-- The n bytes from a local-store address. -/
def Facet.lsBytes (x : Facet) (a n : Nat) : List Byte := (List.range n).map fun i => x.lsByte (a + i)

/-- The words that [a, a + n) touches. -/
def wordsOf (a n : Nat) : List Nat := upto (a / 4) ((a + n + 3) / 4)

/-- The OR of the taint of the words that [a, a + n) touches (R78). -/
def Facet.lsTaint (x : Facet) (a n : Nat) : Bool := (wordsOf a n).any fun i => (x.word i).taint

/-- Bytes stored from an address: a word written whole takes its taint, a word written in part takes the OR (R78). The taint of
the data is given for each word. -/
def Facet.lsPut (x : Facet) (a : Nat) (b : List Byte) (taint : Nat → Bool) : Facet :=
  (wordsOf a b.length).foldl
    (fun x i =>
      let w := x.word i
      let d := (List.range 4).foldr
        (fun j r => (if a ≤ 4 * i + j then (b[4 * i + j - a]?).getD (w.data.extractLsb' (8 * j) 8)
          else w.data.extractLsb' (8 * j) 8).toNat + 256 * r) 0
      let whole := a ≤ 4 * i && 4 * i + 4 ≤ a + b.length
      x.setWord i { w with data := BitVec.ofNat 32 d, taint := taint i || (!whole && w.taint) })
    x

/-- Bytes written through the engine port (R75): the words keep what they held at the start of the cycle for a bit-field store that
follows in it (R125). -/
def Facet.enginePut (x : Facet) (a : Nat) (b : List Byte) (taint : Nat → Bool) : Facet :=
  let keep := fun (x : Facet) (i : Nat) => if (kfind i x.lsOld).isSome then x else { x with lsOld := kset i (x.word i) x.lsOld }
  ((wordsOf a b.length).foldl keep x).lsPut a b taint

/-- The byte at a local-store address as it was at the start of the cycle. -/
def Facet.oldByte (x : Facet) (a : Nat) : Byte := ((kfind (a / 4) x.lsOld).getD (x.word (a / 4))).data.extractLsb' (8 * (a % 4)) 8

/-- Bits [ba, ba + l) stored: only the bytes that hold bits of the field are written, the rest of which takes the values that their words
held at the start of the cycle (R125); taint under R78. -/
def Facet.bitPut (x : Facet) (ba l v : Nat) (taint : Bool) : Facet :=
  let a := ba / 8
  let n := (ba + l - 1) / 8 + 1 - a
  let old := ofBytes ((List.range n).map fun i => x.oldByte (a + i))
  let m := (2 ^ l - 1) * 2 ^ (ba % 8)
  let new := (old &&& (2 ^ (8 * n) - 1 - m)) ||| (v % 2 ^ l * 2 ^ (ba % 8))
  let part := fun i => !(ba ≤ 32 * i && 32 * i + 32 ≤ ba + l)
  x.lsPut a (toBytes n new) fun i => taint || (part i && (x.word i).taint)

/-- The field of l bits at a bit address. -/
def Facet.bitGet (x : Facet) (ba l : Nat) : Nat :=
  ofBytes (x.lsBytes (ba / 8) ((ba + l - 1) / 8 + 1 - ba / 8)) / 2 ^ (ba % 8) % 2 ^ l

/-- The full-empty bits of the words of [a, a + n) set (R76). -/
def Facet.setEmpty (x : Facet) (a n : Nat) (e : Bool) : Facet :=
  (wordsOf a n).foldl (fun x i => x.setWord i { x.word i with empty := e }) x

/-- Every word of [a, a + n) is empty, or every one is full. -/
def Facet.allEmpty (x : Facet) (a n : Nat) (e : Bool) : Bool := (wordsOf a n).all fun i => (x.word i).empty == e

/-! Allocations (R73, R109, R314). -/

/-- [la, la + k) lies in the allocation of a slot. -/
def Slot.holdsRange (sl : Slot) (la k : Nat) : Bool := sl.lb ≤ la && la + k ≤ sl.lb + sl.lsize

/-- [la, la + k) lies in the allocation of one task of a context that is resident on a facet (R109, R314). -/
def Facet.residentRange (x : Facet) (c la k : Nat) : Bool :=
  (List.range 15).any fun n =>
    match (x.slot n).job with
    | .task c' _ _ _ => c' == c && (x.slot n).holdsRange la k
    | _ => false

/-- A slot may access [la, la + k). -/
def State.mayUse (s : State) (f n la k : Nat) : Bool :=
  let sl := s.slot f n
  match sl.job with
  | .handler c _ _ => (s.facet f).residentRange c la k
  | _ => sl.holdsRange la k

/-! The range scoreboard (R100). -/

/-- An access of [la, la + k) by a slot stalls: on a copy into local store always, on a copy out of it where it stores. -/
def Facet.covered (x : Facet) (la k : Nat) (store : Bool) : Bool :=
  x.sb.any fun e => overlaps e.laddr e.len la k && (!e.dir || store)

/-! Parked full-empty accesses (R77). -/

/-- A full-empty access can proceed (R76, R100). -/
def Facet.proceeds (x : Facet) (a : FeAccess) : Bool :=
  !x.covered a.la a.k (a.kind == .put) &&
  (match a.kind with
    | .take | .peek => x.allEmpty a.la a.k false
    | .put => x.allEmpty a.la a.k true
    | .bwait => (x.lsByte (a.la + 6)).getLsbD 0 != a.ph
    | _ => false)

/-- A full-empty access is performed for a slot, whose instruction retires. -/
def State.feServe (s : State) (f n : Nat) (a : FeAccess) : State :=
  let x := s.facet f
  let t := s.thread (.slot f n)
  match a.kind with
  | .take =>
    (s.setFacet f (x.setEmpty a.la a.k true)).retireAs (.slot f n)
      (t.wx a.d (extendBytes a.signed a.k (ofBytes (x.lsBytes a.la a.k))) (x.lsTaint a.la a.k))
  | .peek => s.retireAs (.slot f n) (t.wx a.d (extendBytes a.signed a.k (ofBytes (x.lsBytes a.la a.k))) (x.lsTaint a.la a.k))
  | .put =>
    (s.setFacet f ((x.lsPut a.la (toBytes a.k a.data.toNat) fun _ => a.taint).setEmpty a.la a.k false)).retireAs (.slot f n) t
  | _ => s.retireAs (.slot f n) t

/-- The parked access of a slot. -/
def Facet.parkedFe (x : Facet) (n : Nat) : Option FeAccess := (x.slot n).park.bind (·.fe)

/-- The slots parked on local store re-tested in parking order: the first that can proceed is served and the rest are tested
again, as often as `fuel`. -/
def State.retestGo (s : State) (f : Nat) : Nat → State
  | 0 => s
  | k + 1 =>
    let x := s.facet f
    match x.parked.find? fun n => ((x.parkedFe n).map x.proceeds).getD false with
    | none => s
    | some n =>
      match x.parkedFe n with
      | none => s
      | some a => ((s.modFacet f fun x => { x with parked := x.parked.filter (· != n) }).feServe f n a).retestGo f k

/-- Local store or its full-empty bits have changed: parked accesses are re-tested. -/
def State.retest (s : State) (f : Nat) : State := s.retestGo f (s.facet f).parked.length

/-! Watchpoints (R412, R413). -/

/-- A byte range that an instruction reads or writes. -/
structure Touch where
  local' : Bool
  facet : Nat := 0
  base  : Nat
  len   : Nat
  rd    : Bool := false
  wr    : Bool := false

/-- Watchpoint j of a debug block is hit by a range: the lowest watched byte it touches. -/
def DebugBlock.hitBy (d : DebugBlock) (j : Nat) (t : Touch) : Option Nat :=
  let a := kget 0 d.wpa j
  let c := kget 0 d.wpc j
  let len := if fieldAt c 32 16 = 0 then 1 else fieldAt c 32 16
  let base := if bitAt c 3 then fieldAt a 0 18 else a.toNat
  if bitAt c 0 && (bitAt c 3 == t.local') && ((bitAt c 1 && t.rd) || (bitAt c 2 && t.wr)) && overlaps base len t.base t.len &&
      (!t.local' || bitAt c 19 || fieldAt c 8 11 == t.facet) then some (max base t.base)
  else none

/-- The lowest watched byte of watchpoint j that an instruction touches. -/
def DebugBlock.hit (d : DebugBlock) (j : Nat) (ts : List Touch) : Option Nat :=
  (ts.filterMap (d.hitBy j)).foldl (fun r a => some (match r with | none => a | some b => min a b)) none

/-- The counter field of a control word less one, at bit `lo` of 16 bits. -/
def countDown (c : Word) (lo : Nat) : Word := if 1 < fieldAt c lo 16 then c - (1#64 <<< lo) else c

/-- The watchpoints that an instruction hits, each with the lowest watched byte that it touches. -/
def State.watchHits (s : State) (f n c : Nat) (ts : List Touch) : List (Nat × Nat) :=
  let d := (s.ctx c).dbg
  if !d.att || (s.slot f n).sdc.skip then [] else (List.range 4).filterMap fun j => (d.hit j ts).map fun a => (j, a)

/-- The watchpoint step of a slot's instruction (R413): the counts go down, an event is emitted, or the slot halts with WATCH. The
Boolean says that the instruction proceeds. -/
def State.watchSlot (s : State) (f n c : Nat) (ts : List Touch) : State × Bool :=
  let d := (s.ctx c).dbg
  match s.watchHits f n c ts with
  | [] => (s, true)
  | (j, a) :: others =>
    let w := kget 0 d.wpc j
    let down := others.foldl (fun m (i, _) => kset i (countDown (kget 0 m i) 48) m) d.wpc
    if 1 < fieldAt w 48 16 then
      (s.modCtx c fun x => { x with dbg := { x.dbg with wpc := kset j (countDown w 48) down } }, true)
    else
      let s := s.modCtx c fun x => { x with dbg := { x.dbg with wpc := down } }
      if bitAt w 4 then (s.emit (eventName 3 (4 * c + j)), true)
      else
        (s.haltSlot f n { cause := cWATCH, dbg := true, pc := (s.slot f n).th.pc, addr := BitVec.ofNat 64 a,
                          info := BitVec.ofNat 64 j }, false)

/-- An instruction's own checks have passed: watchpoints are checked, and it proceeds unless one halts its slot. The match of an instruction
that stalls still counts only when it issues. -/
def watched (s : State) (ts : List Touch) (k : State → Out) : Out :=
  match s.turn with
  | .slot f n =>
    match (s.slot f n).owner with
    | none => k s
    | some (c, _) =>
      if (s.watchHits f n c ts).isEmpty then k s
      else match s.watchSlot f n c ts with
        | (t, true) => let o := k s; if stalledOut o then o else k t
        | (t, false) => .next t
  | _ => k s

/-- The facet slot that executes. -/
def onSlot (s : State) (k : Nat → Nat → Slot → Out) : Out :=
  match s.turn with
  | .slot f n => k f n (s.slot f n)
  | _ => faultOut s cILLEGAL

/-- A local-store access of [la, la + k) passes its checks in order: ALIGN, LSRANGE, the scoreboard's stall, and watchpoints
(R234, R351). `rd` and `wr` are what watchpoints see: of a byte-barrier wait a write, though it stores nothing (R413). -/
def localAccess (s : State) (la : Word) (align k : Nat) (rd wr : Bool) (go : State → Nat → Nat → Out) (store : Bool := wr) : Out :=
  onSlot s fun f n _ =>
    let a := la.toNat
    if a % align ≠ 0 then faultOut s cALIGN la
    else if !s.mayUse f n a k then faultOut s cLSRANGE la
    else if (s.facet f).covered a k store then stall s clSCORE
    else watched s [{ local' := true, facet := f, base := a, len := k, rd := rd, wr := wr }] fun s => go s f n

end Sys2Proof.Machine
end

