-- ==== Sys2Proof/Machine/Requests.lean ====
section
/-! DEFINITION. Requests on their way to a home slice (R228): how an instruction sends one and parks for it, how a request is parked
at a slice, a translation miss that goes to the service core (R394, R356), and how a request ends with a cause. -/

namespace Sys2Proof.Machine

/-- What an owner on this device answers: the step computes it itself. -/
def noAnswer : Answer := { cause := none, data := [], taint := false, poison := false }

/-- Taint and poison of byte i of the data of an answer, which begin at an address (R83). -/
def ansSector (a : Answer) (base i : Nat) : Bool × Bool := (a.sectors[(base % 32 + i) / 32]?).getD (a.taint, a.poison)

/-- Some byte of the data is poisoned. -/
def ansBad (a : Answer) : Bool := a.poison || a.sectors.any Prod.snd

/-- What an answer says of the leaf of its page: ORDER (R128, R387). -/
def ansLeaf (a : Answer) : Word := if a.priv then 64 else 0

/-- A request by its number. -/
def State.req (s : State) (id : Nat) : Option Req := kfind id s.reqs
def State.setReq (s : State) (id : Nat) (r : Req) : State := { s with reqs := kset id r s.reqs }
def State.dropReq (s : State) (id : Nat) : State := { s with reqs := kdel id s.reqs }

/-- The counts of a slot or core changed. -/
def State.modCnt (s : State) (a : Agent) (g : Counts → Counts) : State :=
  match a with
  | .slot f n => s.modSlot f n fun x => { x with cnt := g x.cnt }
  | .core k => s.modCore k fun x => { x with cnt := g x.cnt }
  | .peer _ => s

/-- The counts of an agent. -/
def State.cntOf (s : State) : Agent → Counts
  | .slot f n => (s.slot f n).cnt
  | .core k => (s.core k).cnt
  | .peer _ => {}

def Counts.addLd (c : Counts) : Counts := { c with ld := c.ld + 1 }
def Counts.subLd (c : Counts) : Counts := { c with ld := c.ld - 1 }
def Counts.addSt (c : Counts) : Counts := { c with st := c.st + 1 }
def Counts.subSt (c : Counts) : Counts := { c with st := c.st - 1 }
def Counts.addCp (c : Counts) : Counts := { c with cp := c.cp + 1 }
def Counts.subCp (c : Counts) : Counts := { c with cp := c.cp - 1 }
def Counts.addMx (c : Counts) : Counts := { c with mx := c.mx + 1 }
def Counts.subMx (c : Counts) : Counts := { c with mx := c.mx - 1 }
def Counts.addVg (c : Counts) : Counts := { c with vg := c.vg + 1 }
def Counts.subVg (c : Counts) : Counts := { c with vg := c.vg - 1 }

/-- An instruction that raises a count to 64 stalls (R190). -/
def counted (s : State) (n : Nat) (k : Out) : Out := if 63 ≤ n then stall s clQFULL else k

/-- The counts after an operation of a request has left its class (R190). -/
def ReqOp.leave (op : ReqOp) (c : Counts) : Counts :=
  match op with
  | .load _ _ | .vload _ _ _ => c.subLd
  | .store _ _ _ | .vstore _ _ => c.subSt
  | .atomic o _ _ _ _ _ d _ => if o = opLoad then c.subLd else if o = opStore ∨ d = 0 then c.subSt else c
  | .join d => if d = 0 then c.subSt else c
  | .create _ _ _ _ _ _ _ | .vput _ _ _ | .vseal _ | .vget _ _ _ _ | .vretain _ | .vrelease _ | .vdrop _ | .vquery _ _ => c.subVg
  | _ => c

/-- A request is an SC operation. -/
def ReqOp.isSc : ReqOp → Bool
  | .atomic _ _ f _ _ _ _ _ => f == .sc
  | _ => false

/-- A request is an access of the memory port. -/
def ReqOp.isPort : ReqOp → Bool
  | .port _ _ => true
  | _ => false

/-- The bytes of a global request. -/
def ReqOp.size : ReqOp → Nat
  | .load _ t => ldBytes t
  | .store k _ _ => k
  | .fetch => 4
  | .probe n _ | .vload _ n _ | .vstore _ n | .piece _ _ n => n
  | .atomic _ t _ _ _ _ _ _ => amBytes t
  | .join _ => 64
  | .record b => b.length
  | .port _ _ => 8
  | _ => 1

/-- The register that a request writes. -/
def ReqOp.dest : ReqOp → BitVec 5
  | .load d _ => d
  | .atomic _ _ _ _ _ _ d _ => d
  | .join d => d
  | .vquery _ d => d
  | _ => 0

/-- The context an agent's entry belongs to, and its sequence number. -/
def State.entryOf (s : State) : Agent → Nat × Nat
  | .slot f n => ((s.slot f n).owner).getD (0, 0)
  | .core k => ((s.core k).stream.toNat, 0)
  | .peer _ => (0, 0)

/-- A new request of an agent for an address, which its home slice is to accept: on this device ACCEPTANCE is due. -/
def State.newReq (s : State) (a : Agent) (c : Nat) (va pc : Word) (op : ReqOp) : Nat × State :=
  let id := s.nextId
  let r : Req := { who := a, ctx := c, seq := (s.entryOf a).2, va := va, pc := pc, op := op }
  let s := { s with nextId := id + 1, reqs := kset id r s.reqs }
  (id, if s.whereIs va = .here then s.pushDue (.acceptance id noAnswer) else s)

/-- The wait of an agent for a request. -/
def State.parkFor (s : State) (a : Agent) (kind : ParkKind) (addr : Word) (id : Nat) : State :=
  match a with
  | .slot f n => s.parkAs f n kind addr (some id) none
  | .core k => s.modCore k fun x => { x with park := some { kind := kind, addr := addr, req := some id } }
  | .peer _ => s

/-- A global access of the executing agent that has passed its own checks is sent to its home slice, and the agent waits for
acceptance (R228). An address of no device faults at once (R68). -/
def send (s : State) (va : Word) (op : ReqOp) (join : Counts → Counts) : Out :=
  let a := s.turn
  match s.spaceOf a with
  | .phys => faultOut s cNOMAP va
  | .ctx c =>
    if s.whereIs va = .nowhere then faultOut s cNOMAP va
    else
      let (id, s) := (s.modCnt a join).newReq a c va (s.thread a).pc op
      .next (s.parkFor a .accept va id)

/-- Requests held on pending ".d" bytes, and ".d" atomics parked on a full overflow area, are tried again in arrival order (R115, R116). -/
def State.retryHeldD (s : State) : State :=
  s.slices.foldl (fun s (_, x) =>
    let full := x.parkq.filter fun id => (s.req id).map (·.stage) == some .onOverflow
    (full ++ x.heldD).foldl (fun s id => s.pushDue (.acceptance id noAnswer)) s) s

/-- A request is in no list of a slice any more. -/
def State.leaveSlices (s : State) (id : Nat) : State :=
  let out := fun (l : List Nat) => l.filter (· != id)
  let slice := fun (x : Slice) =>
    { x with parkq := out x.parkq, quota := out x.quota, heldD := out x.heldD,
             versions := x.versions.map (fun (e : VEntry) => { e with waiters := out e.waiters }) }
  { s with slices := s.slices.map (fun (kx : Nat × Slice) => (kx.1, slice kx.2)) }

/-- A request is no more: it is in no list of a slice and holds no entry of a range scoreboard; what a slice held behind it is tried
again (R115). -/
def State.forgetReq (s : State) (id : Nat) : State :=
  let held := s.slices.any fun (_, x) => x.heldD.contains id
  let facet := fun (x : Facet) => { x with sb := x.sb.filter (·.op != id) }
  let s := (s.dropReq id).leaveSlices id
  let s := { s with facets := s.facets.map (fun (kx : Nat × Facet) => (kx.1, facet kx.2)) }
  if held then s.retryHeldD else s

/-- A range scoreboard entry that an operation held is released: parked accesses are tested again. -/
def State.releaseSb (s : State) (f id : Nat) : State :=
  (s.modFacet f fun x => { x with sb := x.sb.filter (·.op != id) }).retest f

/-- A request ends and leaves the count of its class (R190). -/
def State.endReq (s : State) (id : Nat) : State :=
  match s.req id with
  | some r =>
    let s := (s.forgetReq id).modCnt r.who r.op.leave
    match r.who with
    | .slot f _ => s.retest f
    | _ => s
  | none => s

/-- The agent of a request no longer waits for it. -/
def State.unpark (s : State) (a : Agent) (id : Nat) : State :=
  match a with
  | .slot f n => s.modSlot f n fun x => if (x.park.bind (·.req)) = some id then { x with park := none } else x
  | .core k => s.modCore k fun x => if (x.park.bind (·.req)) = some id then { x with park := none } else x
  | .peer _ => s

/-- A line whose write-back its page refuses loses its dirty bytes and updates (log 10). -/
def State.loseLine (s : State) (p k : Nat) : State :=
  let l := s.prismLine p k
  (s.setPrismLine p k { l with valid := l.valid &&& ~~~l.dirty, dirty := 0, upd := none }).clean p k

/-- A late report of the operation numbered `no` reaches a slot: LATE_REPORT is due at its next boundary (R230). The numbers of requests,
copies and messages rise in issue order. -/
def State.lateReportTo (s : State) (a : Agent) (no : Nat) (r : LateRep) : State :=
  match a with
  | .slot f n => s.modSlot f n fun x => { x with late := addLate { r with no := no, cyc := (s.facet f).cyc } x.late }
  | .core k => s.modCore k fun x => { x with late := addLate { r with no := no, cyc := x.cyc } x.late }
  | .peer _ => s

/-- A request ends with a cause that its instruction meets precisely (R229): the instruction's counts and interlocks are as
before it; a fetch or a probe keeps the cause for its instruction, and one that has retired reports late. -/
def State.failReq (s : State) (id : Nat) (cause : BitVec 8) : State :=
  match s.req id with
  | none => s
  | some r =>
    match r.op, r.who with
    | .writeBack p k, _ => (s.forgetReq id).loseLine p k
    | .port wr _, _ => ({ s.forgetReq id with dmdata := if wr then s.dmdata else 0 }).apst (apOf cause)
    | _, .peer _ => s.endReq id
    | .fetch, _ | .probe _ _, _ | .piece _ _ _, _ => ((s.leaveSlices id).setReq id { r with stage := .failed cause }).unpark r.who id
    | .record _, _ => ((s.setReq id { r with stage := .failed cause }).unpark r.who id).pushDue (.faultDelivery r.ctx)
    | _, _ =>
      let s := (s.endReq id).unpark r.who id
      if r.again then s.lateReportTo r.who id { cause := cause, pc := r.pc, addr := r.va }
      else s.takeFault r.who { cause := cause, addr := r.va, pc := some r.pc }

/-- A load of an agent that is older than a request has not been performed: loads of this device's memory, but those of a loop body, are
performed at their acceptance (log 51). -/
def State.olderLoad (s : State) (a : Agent) (id : Nat) : Bool :=
  s.reqs.any fun (j, r) => j < id && r.who == a &&
    (match r.op with
      | .load _ _ => s.whereIs r.va != .here
      | .vload v _ got => got.isEmpty || v.late
      | _ => false)

/-! Writes of the device by physical address (R390, R402). -/

/-- The device writes one of the structures of R390: a refused write is dropped and the management controller is told. -/
def State.deviceWrite (s : State) (secure : Bool) (pa : Nat) (b : List Byte) : State :=
  if s.mayTouch secure pa && s.mayTouch secure (pa + b.length - 1) then s.hbmWrite pa b else s.logEvent evRefusedWrite pa

/-- The device writes a structure that tasks read through the slices (R55). -/
def State.recordWrite (s : State) (secure : Bool) (pa : Nat) (b : List Byte) : State :=
  if s.mayTouch secure pa && s.mayTouch secure (pa + b.length - 1) then s.sharedWrite pa b else s.logEvent evRefusedWrite pa

/-! The fault queue of a service core (R356). -/

/-- An entry of the fault queue of core k: written at SFQB.BASE + 128 × TAIL, and TAIL advances. -/
def State.faultEntry (s : State) (k kind acc c token : Nat) (va : Word) (tid : Nat) (rec : List Byte) : State :=
  let x := s.core k
  let b := toBytes 1 kind ++ toBytes 1 acc ++ toBytes 1 c ++ toBytes 1 0 ++ toBytes 4 token ++ toBytes 8 va.toNat ++
    toBytes 4 tid ++ List.replicate 44 0 ++ (rec ++ List.replicate 64 0).take 64
  (s.deviceWrite x.wld (x.sfqb.toNat * 4096 + 128 * x.sfqTail.toNat) b).setCore k { x with sfqTail := x.sfqTail + 1 }

/-- The fault queue of core k is full. -/
def Core.queueFull (x : Core) : Bool := x.sfqTail + 1 == x.sfqHead

/-- ACC of a fault-queue entry: read, write, fetch, versioned. -/
def ReqOp.acc : ReqOp → Nat
  | .load _ _ | .vload _ _ _ | .probe _ _ => 1
  | .store _ _ _ | .vstore _ _ | .writeBack _ _ | .record _ | .port true _ => 2
  | .fetch => 4
  | .atomic o _ _ _ _ _ _ _ => if o = opLoad then 1 else if o = opStore then 2 else 3
  | .join _ => 3
  | .create _ _ _ _ _ _ _ | .vput _ _ _ | .vseal _ | .vrelease _ | .vdrop _ => 10
  | .vget _ _ _ _ | .vretain _ | .vquery _ _ | .vhold _ => 9
  | .piece _ _ _ | .port false _ => 1

/-- ACC of a request: a copy to global memory writes. -/
def State.accOf (s : State) (r : Req) : Nat :=
  match r.op with
  | .piece c _ _ => if ((kfind c s.copies).map (·.toGlobal)).getD false then 2 else 1
  | o => o.acc

/-- The thread identifier of an agent (R21); a control core's is its number in the slots' place (log 3). -/
def State.tidOf (s : State) : Agent → Nat
  | .slot f n => s.tid f n
  | .core k => s.dev * 0x8000 + k
  | .peer t => t

/-- The 64 KiB granule of an address: requests to it park behind one another (R394). -/
def granule (va : Word) : Nat := va.toNat / 65536

/-- A request of a context to the same granule waits at the service core. -/
def State.awaited (s : State) (c : Nat) (va : Word) : Bool :=
  s.reqs.any fun (_, r) =>
    r.ctx == c && granule r.va == granule va && (match r.stage with | .missing (some _) => true | _ => false)

/-- A request to the same granule of a context that is parked at a slice, ahead of the one numbered `id` where that is parked too, waits for
its translation: it is served first (R87, R394). -/
def State.missAhead (s : State) (sl id c : Nat) (va : Word) : Bool :=
  ((s.slice sl).parkq.takeWhile (· != id)).any fun j => match s.req j with
    | some q => q.ctx == c && granule q.va == granule va && (match q.stage with | .missing _ => true | _ => false)
    | none => false

/-- New requests to a page park behind a migration of it, or of its slice (R397 to R400). -/
def State.migrating (s : State) (sl c : Nat) (va : Word) : Bool :=
  (s.slice sl).paused ||
    (match (s.slice sl).mig with
      | .page c' v _ _ => (s.ctx c').d.asn == (s.ctx c).d.asn && v / 65536 == localVa va / 65536
      | _ => false)

/-- The wait of a request in a stage counts towards felim: not that for a translation (R86, R229) or behind a migration. -/
def Stage.counts : Stage → Bool
  | .missing _ | .behind => false
  | _ => true

/-- A request is refused and is sent again after 64 cycles (R86). -/
def State.refuseReq (s : State) (id : Nat) (r : Req) (counted : Bool) : State :=
  (s.setReq id { r with stage := .refusedFull counted }).inTicks 64 (.refusedRequestResend id)

/-- A parked request takes an entry of a slice's waiter store; where all 4,096 are in use it is refused (R86). -/
def State.parkAt (s : State) (sl id : Nat) (r : Req) (st : Stage) : State :=
  if (s.slice sl).parkq.contains id then s.setReq id { r with stage := st }
  else if 4096 ≤ (s.slice sl).parkq.length then s.refuseReq id r st.counts
  else (s.modSlice sl fun x => { x with parkq := x.parkq ++ [id] }).setReq id { r with stage := st }

/-- A request leaves a slice's waiter store. -/
def State.leaveWaiters (s : State) (sl id : Nat) : State :=
  if (s.slice sl).parkq.contains id then s.modSlice sl fun x => { x with parkq := x.parkq.filter (· != id) } else s

/-- A request waits behind pending ".d" bytes, in arrival order (R115). -/
def State.holdD (s : State) (sl id : Nat) (r : Req) : State :=
  (s.modSlice sl fun x => { x with heldD := if x.heldD.contains id then x.heldD else x.heldD ++ [id] }).setReq id { r with stage := .onBatch }

/-- A request is not held any more. -/
def State.unholdD (s : State) (sl id : Nat) : State :=
  if (s.slice sl).heldD.contains id then s.modSlice sl fun x => { x with heldD := x.heldD.filter (· != id) } else s

/-- A KIND 1 entry for a parked request is posted, or is posted again after 64 cycles where the queue is full (R356). -/
def State.post (s : State) (id : Nat) (r : Req) (core : Nat) : State :=
  if (s.core core).queueFull then (s.setReq id { r with stage := .missing none }).inTicks 64 (.faultQueueRepost id)
  else
    let tok := s.nextId
    let s := { s with nextId := tok + 1 }
    (s.faultEntry core 1 (s.accOf r) r.ctx (tok % 2 ^ 32) r.va (s.tidOf r.who) []).setReq id { r with stage := .missing (some (tok % 2 ^ 32)) }

/-- An agent is a control core at level 1: it does not wait for the service core (R394). -/
def State.level1 (s : State) (a : Agent) : Bool := match a with | .core k => (s.core k).level == 1 | _ => false

/-- A translation miss of a request at its slice (R394). -/
def State.miss (s : State) (sl id : Nat) : State :=
  match s.req id with
  | none => s
  | some r =>
    match (s.ctx r.ctx).d.score with
    | none => s.failReq id cNOMAP
    | some core =>
      if s.level1 r.who then s.failReq id cNOMAP
      else
        let s := s.parkAt sl id r (.missing none)
        match s.req id with
        | none => s
        | some r' =>
          let refused : Bool := match r'.stage with | .refusedFull _ => true | _ => false
          if refused ∨ s.awaited r.ctx r.va then s else s.post id r' core

/-! Accesses that have no request until they have to wait: fetches, the reads of stream instructions, pieces of copies. -/

/-- How an access stands at its home slice: it has none, it parks behind a migration, or behind requests to its page that wait for its
translation, the page has none, it fails, or where it is. -/
inductive Standing where
  | nowhere | behind (sl : Nat) | ahead (sl : Nat) | miss (sl : Nat) | fail (cause : BitVec 8) | at (sl pa : Nat) (leaf : Word)
  deriving DecidableEq, Repr

/-- An access of an agent, under the request `id` where it has one, reaches its home slice (R87, R394, R397, R400). -/
def State.standAt (s : State) (a : Agent) (id c : Nat) (va : Word) (acc : Access) : Standing × State :=
  match s.home c va with
  | none => (.nowhere, s)
  | some sl =>
    if s.migrating sl c va then (.behind sl, s)
    else if !s.level1 a && s.missAhead sl id c va then (.ahead sl, s)
    else match s.findAt sl c va acc with
      | (.miss, s) => (.miss sl, s)
      | (.fail cause, s) => (.fail cause, s)
      | (.at pa leaf, s) => (.at sl pa leaf, s)

/-- The request under which an access waits: the one it has, or a new one. -/
def State.waitReq (s : State) (id : Option Nat) (a : Agent) (c : Nat) (va pc : Word) (op : ReqOp) : Nat × State :=
  match id with
  | some id => (id, s)
  | none => let (id, s) := s.newReq a c va pc op; (id, s.done (.acceptance id noAnswer))

/-- The request of an access that has to wait parks at its slice. -/
def State.waitAt (s : State) (id : Nat) (w : Standing) : State :=
  match w, s.req id with
  | .behind sl, some r => s.parkAt sl id r .behind
  | .ahead sl, some r => s.parkAt sl id r (.missing none)
  | .miss sl, _ => s.miss sl id
  | _, _ => s

/-- A request is a read of this kind by an agent. -/
def Req.probes (r : Req) (a : Agent) : Bool := r.who == a && (match r.op with | .probe _ _ => true | _ => false)

/-- The reads of an agent that are under way or answered end. -/
def State.dropProbes (s : State) (a : Agent) : State :=
  ((s.reqs.filter fun (kr : Nat × Req) => kr.2.probes a).map Prod.fst).foldl (fun s id => s.forgetReq id) s

/-- Bytes of an address overlap those of a request that a slice holds ahead of one (R115): of a vector access all its bytes. -/
def State.heldOver (s : State) (sl id c : Nat) (va : Word) (n : Nat) : Bool :=
  ((s.slice sl).heldD.takeWhile (· != id)).any fun j =>
    match s.req j with
    | some r =>
      r.ctx == c && (match r.op with
        | .writeBack p k => k % 2 ^ 55 == s.lineOf va && (s.prismLine p k).dirty &&& span (va.toNat % 512) n != 0
        | .vload v k _ | .vstore v k => overlaps (localVa v.xa) k (localVa va) n
        | o => overlaps (localVa r.va) o.size (localVa va) n)
    | none => false

/-- An access waits for a batch to close (R115). -/
def State.dBlocked (s : State) (sl id c : Nat) (va : Word) (pa n : Nat) : Bool :=
  (s.slice sl).pendingD pa n || s.heldOver sl id c va n

/-- A write-back that something waits for becomes a request like any other: its page or its slice migrates (R397, R400), its page has no
translation (R394), or its bytes have pending ".d" updates, behind which its slice holds it (R115). -/
def State.askLine (s : State) (p k : Nat) : State :=
  let l := s.prismLine p k
  if (l.dirty = 0 ∧ l.upd = none) ∨ (s.reqs.any fun (kr : Nat × Req) => kr.2.op == .writeBack p k) then s
  else match s.whereIs (keyVa k), s.home l.ctx (keyVa k) with
    | .here, some sl =>
      let ask := fun (s : State) =>
        let (id, s) := s.newReq (.peer (s.tid (8 * p) 0)) l.ctx (keyVa k) 0 (.writeBack p k)
        (id, s.done (.acceptance id noAnswer))
      if s.migrating sl l.ctx (keyVa k) then let (id, s) := ask s; s.waitAt id (.behind sl)
      else match s.translate sl l.ctx (localVa (keyVa k)) with
      | (.miss, s) => let (id, s) := ask s; s.miss sl id
      | (.leaf w size, s) =>
        if (s.slice sl).pendingIn (leafPa w size (localVa (keyVa k)) / 512) l.dirty then
          let (id, s) := ask s
          match s.req id with
          | some r => s.holdD sl id r
          | none => s
        else s
      | (.bad, s) => s
    | _, _ => s

/-- The write-backs of a prism that have to wait become requests. -/
def State.askStuck (s : State) (p : Nat) : State := (s.prism p).cache.foldl (fun s (kl : Nat × Line) => s.askLine p kl.1) s

/-! The records of a holding buffer (R113, R114). -/

/-- A ".d" record stands before another in the holding buffer. -/
def DRec.before (a b : DRec) : Bool :=
  let k := fun (r : DRec) => [r.dev, r.c, r.seq, r.key.toNat, r.no]
  decide (k a < k b)

/-- A record placed in the sorted buffer. -/
def insertD (r : DRec) : List DRec → List DRec
  | [] => [r]
  | q :: l => if r.before q then r :: q :: l else q :: insertD r l

/-- The ranges of a context's overflow area that runs use. -/
def State.overflowUsed (s : State) (c : Nat) : List (Nat × Nat) :=
  s.slices.flatMap fun (_, x) => x.runs.filterMap fun (o, l) => if l.any (·.c == c) then some (o, 32 * l.length) else none

/-- The lowest place of n bytes in a context's overflow area (log 63). -/
def State.runPlace (s : State) (c n : Nat) : Option Nat := lowestFree (s.ctx c).d.ovfS (s.overflowUsed c) n

/-- The buffer's records as sorted runs, one for each context and entry. -/
def runsOf (l : List DRec) : List (List DRec) :=
  ((l.map fun r => (r.dev, r.c, r.seq)).dedup).map fun k => l.filter fun r => (r.dev, r.c, r.seq) == k

/-- A record in the 32 bytes that a run in memory gives it: address, key, operand, operation (R114; their order is the model's, log 63). -/
def DRec.bytes (r : DRec) : List Byte :=
  toBytes 8 r.va.toNat ++ toBytes 8 r.key.toNat ++ toBytes 8 r.v.toNat ++ toBytes 1 r.op ++ toBytes 1 r.t.code ++ toBytes 6 0

/-- Runs are written to the overflow areas of their contexts: none where one finds no room. -/
def State.writeRuns (s : State) (sl : Nat) : List (List DRec) → Option State
  | [] => some s
  | l :: ls =>
    let c := (l.head?.map (·.c)).getD 0
    (s.runPlace c (32 * l.length)).bind fun o =>
      let s := s.deviceWrite (s.ctx c).d.world ((s.ctx c).d.ovfB + o) (l.flatMap DRec.bytes)
      (s.modSlice sl fun x => { x with runs := x.runs ++ [(o, l)] }).writeRuns sl ls

/-- The number of a device in a ".d" record. -/
def State.devOf (s : State) (a : Agent) : Nat :=
  match a with
  | .peer t => if t / 32768 = s.dev then 0 else t / 32768 + 1
  | _ => 0

/-- Room in the holding buffer: a full one is written out as runs, and none results where that finds no room (R114). -/
def State.makeHold (s : State) (sl : Nat) : Option State :=
  if (s.slice sl).hold.length < 16 then some s
  else (s.writeRuns sl (runsOf (s.slice sl).hold)).map fun s => s.modSlice sl fun x => { x with hold := [] }

/-- Records in ascending key order, in arrival order where keys are equal. -/
def sortD (l : List DRec) : List DRec := l.foldl (fun out r => insertD r out) []

end Sys2Proof.Machine
end

