-- ==== Sys2Proof/Machine/Issue.lean ====
section
/-! DEFINITION. What happens at an instruction boundary and in a clock tick: interrupts and traps of a control core (R348, R349), late
reports, halts and breakpoints of a slot (R351, R411, R416), instruction fetch (R178), the turn of a facet (R65, R455), and the
passing of time: cyc, the time base, elapsed waits (R77, R355) and stall accounting (R425 to R427). -/

namespace Sys2Proof.Machine

/-! Interrupts of control cores (R347, R349). -/

/-- SIP (R347): TIMER and FMSG follow from the timer and the fault queue. -/
def Core.sip (c : Core) : BitVec 6 :=
  bit c.sipMgmt ++ bit c.sipPre ++ bit c.sipNotify ++ bit (c.sfqHead != c.sfqTail) ++ bit c.sipStrm ++
    bit (c.stimer != 0 && c.stimer.toNat ≤ c.cyc)

/-- The lowest-numbered interrupt that a core takes at a boundary (R349). -/
def Core.interrupt (c : Core) : Option Nat :=
  if c.level = 0 ∨ c.ie then (List.range 6).find? fun i => (c.sip &&& c.sie).getLsbD i else none

/-- A core takes interrupt i: SEPC is the next instruction, and an instruction that stalls there has not retired (R349). -/
def State.interruptCore (s : State) (k i : Nat) : State :=
  let s := s.dropProbes (.core k)
  let c := s.core k
  s.setCore k (c.trap kInterrupt (BitVec.ofNat 12 i) c.th.pc 0)

/-- A fault in fetching the first instruction at STVEC (R348): the core stops and the management controller is told. -/
def State.doubleTrap (s : State) (k : Nat) : State :=
  (s.modCore k fun c => { c with run := .stopped }).logEvent evDoubleTrap k

/-- A core is at an instruction boundary: it runs, and no access, call or WAITI of it is under way; a STRM instruction that waits has
not retired (R344, R349). -/
def Core.atBoundary (c : Core) : Bool := c.run == .running && c.park.isNone

/-! Breakpoints (R410, R411). -/

/-- The breakpoints of a debug block that match an address, for a slot or for the stream on a control core. -/
def DebugBlock.breaksAt (d : DebugBlock) (pc : Word) (stream : Bool) : List Nat :=
  (List.range 8).filter fun i =>
    let c := kget 0 d.ibc i
    bitAt c 0 && fieldAt (kget 0 d.iba i) 2 62 == fieldAt pc 2 62 &&
      (fieldAt c 1 2 == 1 || (fieldAt c 1 2 == 0 && !stream))

/-- The counters of all matching breakpoints but the first go down, and the first one's where it still has matches to pass. -/
def DebugBlock.passBreaks (d : DebugBlock) : List Nat → DebugBlock
  | [] => d
  | i :: is =>
    let m := is.foldl (fun m j => kset j (countDown (kget 0 m j) 32) m) d.ibc
    { d with ibc := kset i (countDown (kget 0 d.ibc i) 32) m }

/-- The breakpoint step of a slot about to issue (R411): the Boolean says that it halts. -/
def State.breakSlot (s : State) (f n : Nat) : State × Bool :=
  let sl := s.slot f n
  match sl.owner with
  | none => (s, false)
  | some (c, _) =>
    let d := (s.ctx c).dbg
    let again := sl.sdc.stepping == some true
    if !d.att || sl.sdc.skip || again then (s, false)
    else match d.breaksAt sl.th.pc false with
      | [] => (s, false)
      | i :: is =>
        let w := kget 0 d.ibc i
        let s := s.modCtx c fun x => { x with dbg := d.passBreaks (i :: is) }
        if 1 < fieldAt w 32 16 then (s, false)
        else if bitAt w 3 then (s.emit (eventName 2 (8 * c + i)), false)
        else
          (s.haltSlot f n { cause := cBKPT, dbg := true, pc := sl.th.pc, addr := sl.th.pc, info := BitVec.ofNat 64 i }, true)

/-- The breakpoint step of the stream on a control core under SCOPE 1 (R411). -/
def State.breakCore (s : State) (k : Nat) : State × Bool :=
  let x := s.core k
  let c := x.stream.toNat
  let d := (s.ctx c).dbg
  if x.level != 0 || !d.att then (s, false)
  else match d.breaksAt x.th.pc true with
    | [] => (s, false)
    | i :: is =>
      let w := kget 0 d.ibc i
      let s := s.modCtx c fun y => { y with dbg := d.passBreaks (i :: is) }
      if 1 < fieldAt w 32 16 then (s, false) else (s.takeFault (.core k) { cause := cBKPT, addr := x.th.pc }, true)

/-! Halt requests (R416). -/

/-- A remote operation leaves its class: RLD counts in LD, the others in ST (R190). -/
def BuiltOp.joinCnt (o : BuiltOp) (c : Counts) : Counts := match o with | .load _ _ => c.addLd | _ => c.addSt
def BuiltOp.leaveCnt (o : BuiltOp) (c : Counts) : Counts := match o with | .load _ _ => c.subLd | _ => c.subSt
def BuiltOp.count (o : BuiltOp) (c : Counts) : Nat := match o with | .load _ _ => c.ld | _ => c.st

/-- A message leaves a slot's queue; spilled ones take the room (R308). -/
def Slot.withoutMsg (sl : Slot) (id : Nat) : Slot :=
  let l := (sl.mbox ++ sl.spill).filter (·.id != id)
  let k := 8 - (sl.mbox.filter (·.id != id)).length
  { sl with mbox := l.take ((sl.mbox.filter (·.id != id)).length + min k (sl.spill.filter (·.id != id)).length),
            spill := (sl.spill.filter (·.id != id)).drop k }

/-- A message that has not been delivered is withdrawn with what it counted; a remote operation that waits for its turn on the target's slot
15 has no effect any more (R77, R108). -/
def State.withdrawMsg (s : State) (id : Nat) : State :=
  match kfind id s.flights with
  | none => s
  | some w =>
    let s := { s with flights := kdel id s.flights }
    let f := w.target / 16 % 2048
    let s := if w.msg.op.isSome ∧ w.target / 32768 = s.dev then
        (s.modSlot f 15 fun sl => sl.withoutMsg id).modFacet f fun x => { x with divMsgs := x.divMsgs.filter (·.id != id) }
      else s
    match w.msg.op with
    | some (o, _) => s.modCnt w.who o.leaveCnt
    | none => s

/-- A slot is at a boundary, or in an instruction that can be abandoned: what its home slice, or the owner of a remote address, may
have accepted runs to its retirement (R358, R416). -/
def State.stoppable (s : State) (f n : Nat) : Bool :=
  match (s.slot f n).park with
  | none => true
  | some p =>
    match p.kind with
    | .sc => false
    | .accept =>
      (match p.req.bind s.req with
        | some r => (match r.stage with
          | .missing _ | .behind | .refusedFull _ | .onBatch | .onOverflow | .onQuota => true
          | .sent => s.whereIs r.va == .here
          | _ => false)
        | none => p.req.isNone)
    | _ => true

/-- An instruction that has not retired is abandoned: its request is withdrawn with what it counted, and its park is dropped with its
elapsed cycles kept (R358, R416). -/
def State.abandon (s : State) (f n : Nat) : State :=
  let sl := s.slot f n
  let cycles := s.parkedCycles f n
  let s : State := match sl.park.bind (·.req) with
    | none => s
    | some id =>
      match s.req id with
      | some _ => s.endReq id
      | none => s.withdrawMsg id
  let without := fun (m : Merge) => { m with parts := m.parts.filter fun p => !(p.f == f && p.n == n) }
  let s := { s with merges := s.merges.map fun (km : Nat × Merge) => (km.1, without km.2) }
  let s := s.modFacet f fun x => { x with parked := x.parked.filter (· != n) }
  s.modSlot f n fun x => { x with park := none, rex := cycles.orElse fun _ => x.rex }

/-- A halt request takes effect at a boundary (R416): the hold of a group during a step ends it with STEP (R420). -/
def State.meetHalt (s : State) (f n : Nat) (info : BitVec 8) : State :=
  let sl := s.slot f n
  let stepped := sl.sdc.held && sl.sdc.stepping.isSome
  (s.abandon f n).haltSlot f n
    { cause := if stepped then cSTEP else cBKPT, dbg := true, pc := sl.th.pc, info := if stepped then 0 else info.setWidth 64 }

/-! Instruction fetch (R178). -/

/-- What a fetch gives. -/
inductive Fetched where
  | word (w : BitVec 32) | wait (s : State) | fail (s : State) (cause : BitVec 8)

/-- The word at an address as a fetch of a prism sees it (R127, R178): that of its cache where all its bytes are valid there, else the
home slice's under the bytes that are dirty in its cache. -/
def State.codeOver (s : State) (p : Option Nat) (c : Nat) (va : Word) (slice : Got) : Got :=
  match p with
  | none => slice
  | some p => match s.prismRead p c va 4 with
    | some g => g
    | none =>
      let l := s.prismLine p (s.lineKey c va)
      let off := va.toNat % 512
      { slice with bytes := slice.bytes.zipIdx.map fun (b, i) => if l.dirty.getLsbD (off + i) then l.data.extractLsb' (8 * (off + i)) 8 else b }

/-- The prism through whose cache an agent fetches (R178). -/
def Agent.prism : Agent → Option Nat
  | .slot f _ => some (prismOf f)
  | _ => none

/-- The word at an address of this device as a fetch sees it. -/
def State.codeWord (s : State) (p : Option Nat) (c sl pa : Nat) (va : Word) (dir : Bool) : Got :=
  let slice := (s.sliceRead sl pa 4 dir).1
  s.codeOver p c va slice

/-- The fetch request of an agent that is under way. -/
def State.fetchReq (s : State) (a : Agent) : Option (Nat × Req) := s.reqs.find? fun (_, r) => r.who == a && r.op == .fetch

/-- Fetch by a control core at level 1 without translation (R384). -/
def State.fetchPhys (s : State) (k : Nat) (pc : Word) : Fetched :=
  match s.physOf pc with
  | none => .fail s cNOMAP
  | some pa =>
    if !s.mayTouch (s.core k).wld pa then .fail s cACCESS
    else if s.memP.contains (pa / 64) then .fail s cPOISON
    else .word (BitVec.ofNat 32 (s.hbm32 pa))

/-- The word that has come back for an agent, with its address. -/
def State.ibufOf (s : State) : Agent → Option (Word × BitVec 32)
  | .slot f n => (s.slot f n).ibuf
  | .core k => (s.core k).ibuf
  | .peer _ => none

/-- A word has come back for an agent that waited for it. -/
def State.setIbuf (s : State) (a : Agent) (va : Word) (g : Got) : State :=
  let w := some (va, BitVec.ofNat 32 (ofBytes g.bytes))
  match a with
  | .slot f n => s.modSlot f n fun x => { x with ibuf := w }
  | .core k => s.modCore k fun x => { x with ibuf := w }
  | .peer _ => s

/-- A fetch reaches its home slice on this device (R87, R178). -/
def State.fetchHere (s : State) (a : Agent) (c : Nat) (pc : Word) : Fetched :=
  match s.standAt a 0 c pc .fetch with
  | (.nowhere, s) => .fail s cNOMAP
  | (.fail cause, s) => .fail s cause
  | (.at sl pa leaf, s) =>
    let s := s.recall c pc 4
    let g := s.codeWord a.prism c sl pa pc (leafDir leaf)
    if g.poison then .fail s cPOISON else .word (BitVec.ofNat 32 (ofBytes g.bytes))
  | (w, s) => let (id, s) := s.waitReq none a c pc pc .fetch; .wait (s.waitAt id w)

/-- Fetch of an instruction word at an address of a context: a word that has come back for the agent, else on this device the word as it
stands, where nothing makes the fetch wait at its slice. A fetch that waits for another address ends. -/
def State.fetchIn (s : State) (a : Agent) (c : Nat) (pc : Word) : Fetched :=
  match s.whereIs pc, (s.ibufOf a).filter (·.1 == pc), s.fetchReq a with
  | .nowhere, _, _ => .fail s cNOMAP
  | _, some (_, w), _ => .word w
  | _, none, some (id, r) =>
    if r.va ≠ pc then .wait (s.forgetReq id)
    else match r.stage with
      | .failed cause => .fail (s.forgetReq id) cause
      | _ => .wait s
  | .device _, none, none => .wait (s.newReq a c pc pc .fetch).2
  | .here, none, none => s.fetchHere a c pc

/-- Fetch by an agent at its pc. -/
def State.fetch (s : State) (a : Agent) : Fetched :=
  let pc := (s.thread a).pc
  match s.spaceOf a with
  | .phys => (match a with | .core k => s.fetchPhys k pc | _ => .fail s cNOMAP)
  | .ctx c =>
    match a with
    | .core k => if (s.core k).level = 0 ∧ (s.ctx c).d.sup then .fail s cACCESS else s.fetchIn a c pc
    | _ => s.fetchIn a c pc

/-- A fetched word is run by `runWord`, which gives none for a word that is no instruction (R182). -/
def runFetched (runWord : BitVec 32 → State → Option Out) (s : State) (w : BitVec 32) : Out :=
  match runWord w s with
  | some o => o
  | none => faultOut s cILLEGAL

/-- The slot halted at the instruction with a fault or a watchpoint of it, or its handler ended with a fault: BREAK and STEP come after
an instruction has retired. -/
def haltedAt (s : State) (f n : Nat) : Out → Bool
  | .next t =>
    (match (t.slot f n).trap with | some r => r.cause != cBREAK && r.cause != cSTEP | none => false) ||
      (s.inHandler (.slot f n) && decide ((s.facet f).reports.length < (t.facet f).reports.length))
  | _ => false

/-- The core trapped on a fault of the instruction at the boundary: an SVC and a BRK have retired. -/
def trappedAt (k : Nat) : Out → Bool
  | .next t => let c := t.core k; c.trapped && fieldAt c.scause 16 2 == kFault.toNat && fieldAt c.scause 0 12 != cBREAK.toNat
  | _ => false

/-- A slot has halted at its boundary before its instruction issued, or its handler has ended there: it takes no turn (R417, R455), and its own
counts as HALT, or as OTHER where the handler has ended (R425). -/
def unissued (s : State) (f n : Nat) : Out := .next { s with stalled := some (if (s.slot f n).trap.isSome then clHALT else clOTHER) }

/-- The issue of a slot whose turn it is (R351): late reports; nothing while a vector instruction that may trap has not completed (R160);
then a fetch fault, a breakpoint, and the instruction. A breakpoint's match counts when the instruction issues (R411). A halt request
is met at the boundary unless the instruction halts with a cause of its own (R416). -/
def issueSlot (runWord : BitVec 32 → State → Option Out) (s : State) (f n : Nat) : Out :=
  let a : Agent := .slot f n
  let s := { s with turn := a }
  if !(s.slot f n).late.isEmpty then unissued (s.takeLate a) f n
  else if s.fpHeld a then stall s clVSEQ
  else
    let req := (s.slot f n).sdc.haltReq
    match s.fetch a with
    | .wait s => (match req with | some info => unissued (s.meetHalt f n info) f n | none => stall s clACCEPT)
    | .fail s cause => unissued (s.takeFault a { cause := cause, addr := (s.slot f n).th.pc }) f n
    | .word w =>
      match s.breakSlot f n with
      | (t, true) => unissued t f n
      | (t, false) =>
        let o := runFetched runWord s w
        match req with
        | some info => if haltedAt s f n o then runFetched runWord t w else unissued (s.meetHalt f n info) f n
        | none => if stalledOut o then o else runFetched runWord t w

/-- The issue of a control core (R348, R349, R351): the fault of the instruction at the boundary comes first, then an interrupt, which is
then due, and otherwise the instruction. While its fetch waits, an interrupt is taken (log 69). A WAITI that waits is executed again before an
interrupt is taken, and so is an SMC (R344). -/
def issueCore (runWord : BitVec 32 → State → Option Out) (s : State) (k : Nat) : Out :=
  let a : Agent := .core k
  let s := { s with turn := a }
  let c := s.core k
  let again := match c.park with | some p => p.kind == .waitCnt || p.kind == .smc | none => false
  if c.run ≠ .running ∨ (c.park.isSome ∧ !again) then .next s
  else if !c.late.isEmpty then .next (s.takeLate a)
  else
    let irq := !again && c.interrupt.isSome
    match s.fetch a with
    | .wait s => if irq then .next (s.pushFirst (.interrupt k)) else stall s clACCEPT
    | .fail s cause =>
      if c.trapped then .next (s.doubleTrap k) else .next (s.takeFault a { cause := cause, addr := c.th.pc })
    | .word w =>
      match s.breakCore k with
      | (t, true) => .next t
      | (t, false) =>
        let run := fun (x : State) => runFetched runWord (x.modCore k fun c => { c with trapped := false }) w
        let o := run s
        if irq && !trappedAt k o then .next (s.pushFirst (.interrupt k))
        else if stalledOut o then o
        else run t

/-! Turns (R65, R66, R352, R455). -/

/-- The waits whose instruction is tried again at each turn (R455). -/
def ParkKind.retried : ParkKind → Bool
  | .mxfence | .waitCnt | .tend | .spawn | .smc => true
  | _ => false

/-- A slot holds a task or a handler, is not halted, and is neither parked in a wait that something else ends nor waiting for a cycle to
come. -/
def Slot.candidate (sl : Slot) (cyc : Nat) : Bool :=
  sl.job != .vacant && sl.trap.isNone && ((sl.park.map (·.kind.retried)).getD true) && sl.wakeAt ≤ cyc

/-- A facet holds a task of a DET context: it uses fixed rotation (R66). -/
def State.fixedRotation (s : State) (f : Nat) : Bool :=
  (s.facet f).slots.any fun (_, sl) => match sl.job with | .task c seq _ _ => s.isDet c seq | _ => false

/-- The slots to which the turn of a cycle may go, in order (R65): in fixed rotation, or where the owner is halted, the owner
alone. -/
def State.turnOrder (s : State) (f : Nat) : List Nat :=
  let o := (s.facet f).cyc % 16
  if s.fixedRotation f || (s.slot f o).trap.isSome then [o] else (List.range 16).map fun i => (o + i) % 16

/-- The class of R425 of a slot that does not issue on its own turn. -/
def Slot.waitClass (sl : Slot) (cyc : Nat) : Nat :=
  if sl.job = .vacant then clVACANT
  else if sl.trap.isSome then clHALT
  else match sl.park with
    | some p => (match p.kind with
      | .take | .peek | .put | .bwait => clFE
      | .waitmsg | .resend => clMSG
      | .accept => clACCEPT
      | .quota | .vpmrg | .spawn => clSYNC
      | .waitCnt | .mxfence | .tend => clCOUNT
      | .sc | .smc => clFENCE)
    | none => if cyc < sl.wakeAt then sl.wakeFor else clOTHER

/-- The class of a slot's turn in which nothing is tried: that of a saved slot is HALT. -/
def State.waitClass (s : State) (f n : Nat) : Nat :=
  if (s.facet f).savedSlots.any fun (m, _) => m == n then clHALT else (s.slot f n).waitClass (s.facet f).cyc

/-- Slot 15 runs no handler, is not halted, and the oldest entry of its mailbox is a built-in operation, which it performs on its turn
(R314, R456). -/
def Slot.builtInWaits (sl : Slot) : Bool :=
  sl.job == .vacant && sl.trap.isNone && (match sl.mbox with | m :: _ => m.op.isSome | [] => false)

/-- A slot of a facet may try its instruction in this cycle. -/
def State.mayTry (s : State) (f n : Nat) : Bool := (s.slot f n).candidate (s.facet f).cyc && ((s.facet f).save != .draining || n == 15)

/-- The first slot of a list whose instruction is not stalled issues, or performs a built-in operation; where none does, the classes of
the stalls are told. -/
def issueTurn (runWord : BitVec 32 → State → Option Out) (s : State) (f : Nat) : List Nat → Out
  | [] => .next s
  | n :: ns =>
    if n = 15 ∧ (s.slot f 15).builtInWaits then
      .next { s.pushFirst (.builtInOperation f) with turn := .slot f 15, stalled := none }
    else if !s.mayTry f n then issueTurn runWord s f ns
    else match issueSlot runWord { s with stalled := none } f n with
      | .next t => if t.stalled.isSome then issueTurn runWord t f ns else .next t
      | o => o

/-- The counts of a cycle: one for each slot of a list in its class, and one in the bin of the ready slots. -/
def State.countCycle (s : State) (f : Nat) (l : List (Nat × Nat)) (ready : Nat) : State :=
  let s : State := l.foldl (fun s (n, k) => s.modSlot f n fun y => { y with stalls := kmod 0 k (· + 1) y.stalls }) s
  s.modFacet f fun y => { y with hist := kmod 0 ready (· + 1) y.hist }

/-- The slots of a facet that are ready in this cycle (R455). -/
def State.readySlots (runWord : BitVec 32 → State → Option Out) (s : State) (f : Nat) : List Nat :=
  (List.range 16).filter fun n =>
    (n == 15 && (s.slot f 15).builtInWaits) || (s.mayTry f n && !stalledOut (issueSlot runWord { s with stalled := none } f n))

/-- Counters of the facet's cycle: the class of the slot o whose turn it was, the borrowed turn of the slot that issued, and the number of
ready slots (R425 to R427); under GATE they wait for 64 ticks (R433). -/
def State.account (s : State) (f o cl : Nat) (issued : Option Nat) (ready : Nat) : State :=
  let x := s.facet f
  if !x.saEn then s
  else
    let l := (o, cl) :: (match issued with | some n => if n = o then [] else [(n, 16)] | none => [])
    if x.saGate then s.modFacet f fun y => { y with gatedC := y.gatedC ++ [(s.tick, l, ready)] } else s.countCycle f l ready

/-- The gated counts and trace records of 64 ticks ago: those whose tick lies in a window of a gating channel are kept (R433). -/
def State.settleGated (s : State) (f : Nat) : State :=
  let old := fun (t : Nat) => decide (t + 64 ≤ s.tick)
  let x := s.facet f
  let counts := x.gatedC.filter fun c => old c.1
  let records := x.trace.gated.filter fun r => old r.1
  if counts.isEmpty && records.isEmpty then s
  else
    let t := { x.trace with gated := x.trace.gated.filter fun r => !old r.1 }
    let t := (records.filter fun r => s.gateOpen r.1).foldl (fun t (ts, n, r) => t.put ts n r) t
    let s := s.setFacet f { x with gatedC := x.gatedC.filter (fun c => !old c.1), trace := t }
    (counts.filter fun c => s.gateOpen c.1).foldl (fun s (_, l, ready) => s.countCycle f l ready) s

/-! Time. -/

/-- The steps that become due at a tick. -/
def State.ripen (s : State) : State :=
  let now := s.later.filter fun (t, _) => t ≤ s.tick
  now.foldl (fun s (_, i) => s.pushDue i) { s with later := s.later.filter fun (t, _) => s.tick < t }

/-- The time base advances by one tick: a compare and the close of an SC window may become due (R132, R431). -/
def State.tickOn (s : State) : State :=
  let s := ({ s with tick := s.tick + 1 }).ripen
  let s : State := s.chans.foldl (fun s (k, c) => if c.tts.toNat = s.tick then s.pushDue (.timeBaseCompare k) else s) s
  if s.tick % 64 = 0 then s.scOpen.foldl (fun s w => if w < s.tick / 64 then s.pushDue (.scWindowClose w) else s) s else s

/-- A parked wait counts towards felim: waits for acceptance, for counts and for queues have no limit (R77, R191, R229). -/
def ParkKind.limited : ParkKind → Bool
  | .take | .peek | .put | .bwait | .waitmsg | .resend | .quota | .vpmrg | .spawn => true
  | .accept | .waitCnt | .mxfence | .tend | .sc | .smc => false

/-- Some task of an entry is halted or saved: the waits of its tasks do not count (R355). -/
def State.pausedEntry (s : State) (c seq : Nat) : Bool :=
  let task := fun (sl : Slot) => match sl.job with | .task c' q' _ _ => c' == c && q' == seq | _ => false
  s.facets.any fun (_, x) =>
    x.slots.any (fun (_, sl) => task sl && (sl.trap.isSome || x.save == .draining)) || x.savedSlots.any fun (_, sl) => task sl

/-- A cycle passes for the refused messages of a slot (R309). -/
def State.ageFlights (s : State) (f n felim : Nat) : State :=
  s.flights.foldl
    (fun s (id, m) =>
      if m.who = .slot f n ∧ m.refused ∧ !m.entered then
        let s := { s with flights := kset id { m with elapsed := m.elapsed + 1 } s.flights }
        if felim ≠ 0 ∧ felim < m.elapsed + 1 + s.carried m.who id then s.pushDue (.waitLimit (.msg id)) else s
      else s) s

/-- The wait of a request of a slot counts towards felim (R77, R86, R115, R245): parked or refused at its slice, or a reader's wait for the
notice of another device, whose parking there this device does not see. -/
def State.felimRuns (s : State) (r : Req) : Bool :=
  match r.stage with
  | .onVersion | .onBatch | .onOverflow => (match r.op with | .piece _ _ _ => false | _ => true)
  | .refusedFull counted => counted
  | .returning => (match r.op with | .vget _ _ _ _ | .vretain _ => s.whereIs r.va != .here | _ => false)
  | .sent => (match r.op with | .create _ _ _ _ _ _ _ => s.whereIs r.va != .here | _ => false)
  | _ => false

/-- A cycle passes for the waits of a facet's slots: those outlasting felim end with WAIT_LIMIT (R77). -/
def State.ageSlot (s : State) (f n : Nat) : State :=
  let sl := s.slot f n
  match sl.owner with
  | none => s
  | some (c, seq) =>
    if s.pausedEntry c seq then s
    else
      let s := match sl.park with
        | some p =>
          if p.kind.limited then
            let s := s.setSlot f n { sl with park := some { p with elapsed := p.elapsed + 1 } }
            if sl.felim ≠ 0 ∧ sl.felim.toNat < (s.parkedCycles f n).getD 0 then s.pushDue (.waitLimit (.slot f n)) else s
          else s
        | none => s
      s.reqs.foldl
        (fun s (id, r) =>
          if r.who = .slot f n then
            if s.felimRuns r then
              let s := s.setReq id { r with elapsed := r.elapsed + 1 }
              if sl.felim ≠ 0 ∧ sl.felim.toNat < r.elapsed + 1 + s.carried r.who id then s.pushDue (.waitLimit (.req id)) else s
            else s
          else s) s |>.ageFlights f n sl.felim.toNat

/-- The oldest record of a facet's trace unit reaches its buffer in HBM (R429). -/
def State.traceOut (s : State) (f : Nat) : State :=
  let t := (s.facet f).trace
  match t.unit with
  | [] => s
  | r :: rs =>
    let rest := if r.length ≤ 32 then rs else r.drop 32 :: rs
    let size := t.size.toNat * 4096
    let keep := fun (t : Trace) (s : State) => s.modFacet f fun x => { x with trace := t }
    if t.woff.toNat + 32 ≤ size then
      let pa := t.base.toNat * 4096 + t.woff.toNat
      let woff := t.woff + 32
      let full := woff.toNat + 32 > size
      let t' := { t with unit := rest, woff := if full && t.wrap then 0 else woff, en := t.en && (!full || t.wrap) }
      if s.mayTouch s.apSec pa then keep t' (s.hbmWrite pa (r.take 32)) else keep { t' with lost := t.lost + 1 } s
    else keep { t with unit := rest, lost := t.lost + 1, en := false } s

/-- A prism holds work for a free slot: an interval or a continuation. -/
def Prism.hasWork (p : Prism) : Bool := !p.ranges.isEmpty || !p.conts.isEmpty

/-- An entry has FIXT (R62). -/
def State.isFixt (s : State) (c seq : Nat) : Bool := ((s.entry c seq).map (·.hdr.fixt)).getD false

/-- A prism holds FIXT work (R380). -/
def State.holdsFixt (s : State) (p : Nat) : Bool :=
  (s.prism p).ranges.any (fun r => s.isFixt r.c r.seq) || (s.prism p).conts.any (fun k => s.isFixt k.c k.seq) ||
    (List.range 8).any fun i => (s.facet (p * 8 + i)).slots.any fun (_, sl) =>
      match sl.heldFor with | some (c, seq) => s.isFixt c seq | none => false

/-- Some slot of a facet holds a remainder that another slot may split (R54). -/
def Facet.splittable (x : Facet) : Bool := x.slots.any fun (_, sl) => match sl.rem with | some (a, b) => a < b | none => false

/-- Free slots of a prism may receive work at a rotation boundary (R373). -/
def State.wantsWork (s : State) (p : Nat) : Bool :=
  (s.prism p).hasWork || (List.range 8).any fun i => (s.facet (p * 8 + i)).splittable

/-- What a facet's vector sequencer and streams do in a cycle becomes due: results that land, a start, and transfers. -/
def State.vectorCycle (s : State) (f : Nat) : State :=
  let x := s.facet f
  let landing := x.inflight.filter fun r => decide (r.lands ≤ x.cyc)
  let s : State := landing.foldl (fun s r => s.pushDue (.sequencerResult f r.id)) s
  let s := if x.seqQ.isEmpty then s else s.pushDue (.sequencerStart f)
  x.streams.foldl (fun s (k, _) => s.pushDue (.streamTransfer f k)) s

/-- What a facet's matrix queues do in a cycle becomes due, mq0 first (R300). -/
def State.matrixCycle (s : State) (f : Nat) : State :=
  let x := s.facet f
  let qs := (if x.mq0.entries.isEmpty then [] else [false]) ++ (if x.mq1.entries.isEmpty then [] else [true])
  let s : State := qs.foldl (fun s q => s.pushDue (.matrixCompletion f q)) s
  let s : State := qs.foldl (fun s q => s.pushDue (.matrixComputeBegin f q)) s
  qs.foldl (fun s q => s.pushDue (.matrixReadsBegin f q)) s

/-- Slot 15 takes the oldest entry of its mailbox whenever it runs no handler and is not halted (R314): a user handler's start becomes
due. -/
def State.serviceDue (s : State) (f : Nat) : State :=
  let sl := s.slot f 15
  match sl.job, sl.trap, sl.mbox with
  | .vacant, none, m :: _ => if (s.facet f).save = .draining ∨ m.op.isSome then s else s.pushDue (.handlerStart f)
  | _, _, _ => s

/-- A collection window ends with the cycle before a multiple of 64 of the facet's cyc; where a slot has trapped in it, its close is due
(R354). -/
def State.windowEnd (s : State) (f : Nat) : State :=
  if (s.facet f).cyc % 64 = 0 ∧ !(s.facet f).winFpx.isEmpty then s.pushFirst (.collectionWindowClose f) else s

/-- A new cycle: in it no exceptions have been ORed into rnd or come from matrix operations yet (R156), and neither shared registers nor, by the engine port, local store
has been written (R125, R262). -/
def Facet.newCycle (x : Facet) : Facet :=
  { x with cyc := x.cyc + 1, wNow := [], lsOld := [],
           slots := x.slots.map fun (kn : Nat × Slot) => (kn.1, { kn.2 with orNow := 0, mxNow0 := 0, mxNow1 := 0 }) }

/-- The copies of a facet that still move bytes go on in a cycle. -/
def State.copyCycle (s : State) (f : Nat) : State :=
  s.copies.foldl (fun s (id, c) => if c.f = f ∧ !c.finished then s.pushDue (.copyPiece id noAnswer) else s) s

/-- A cycle of a facet has passed: cyc, the waits of its slots, the rotation boundary, the trace unit. -/
def State.facetCycle (s : State) (f : Nat) : State :=
  let s := (s.modFacet f Facet.newCycle).windowEnd f
  let s : State := (List.range 16).foldl (fun s n => s.ageSlot f n) s
  let s := (((((s.settleGated f).traceOut f).vectorCycle f).matrixCycle f).copyCycle f).serviceDue f
  let s := if (s.facet f).save = .draining then s.pushDue (.saveDrainEnd f) else s
  if (s.facet f).cyc % 16 = 0 then
    let p := prismOf f
    let s := if s.holdsFixt p != (s.prism p).pin then s.pushDue (.clockChange p) else s
    let s := if (s.prism p).state = .draining then s.pushDue (.drainIdle p) else s
    if s.wantsWork p then s.pushDue (.askForWork p) else s
  else s

/-- The cycle of a facet ends: a write-back that an instruction waits for is asked for, the cycle is counted, and time passes. -/
def State.endCycle (s : State) (f o : Nat) (cl : Option Nat) (ready : Nat) : State :=
  let waits := fun (c : Option Nat) => c == some clFENCE || c == some clACCEPT
  let issued := match s.stalled, s.turn with | none, .slot _ n => some n | _, _ => none
  let s := if waits cl || waits s.stalled then s.askStuck (prismOf f) else s
  ({ (s.account f o (cl.getD 0) issued ready).facetCycle f with stalled := none }).tickOn

/-- One turn of a facet: the slot whose turn it is issues, or another in fill rotation, and the cycle passes. -/
def facetTurn (runWord : BitVec 32 → State → Option Out) (s : State) (f : Nat) : Out :=
  let o := (s.facet f).cyc % 16
  let ready := if (s.facet f).saEn then (s.readySlots runWord f).length else 0
  match issueTurn runWord { s with turn := .slot f o, stalled := some (s.waitClass f o) } f [o] with
  | .next t =>
    if t.stalled.isNone then .next (t.endCycle f o none ready)
    else match issueTurn runWord t f ((s.turnOrder f).drop 1) with
      | .next u => .next (u.endCycle f o t.stalled ready)
      | r => r
  | r => r

/-- One turn of a control core. -/
def coreTurn (runWord : BitVec 32 → State → Option Out) (s : State) (k : Nat) : Out :=
  match issueCore runWord { s with stalled := none } k with
  | .next t => .next ({ t.modCore k fun c => { c with cyc := c.cyc + 1 } with stalled := none }).tickOn
  | o => o

/-- One tick of a clock. -/
def clockTurn (runWord : BitVec 32 → State → Option Out) (s : State) : Clock → Out
  | .core k => coreTurn runWord s k
  | .facet f => facetTurn runWord s f

end Sys2Proof.Machine
end

