-- ==== Sys2Proof/Machine/Control.lean ====
section
/-! DEFINITION. Control flow, control registers, system and privileged instructions, the format prefix and WAIT (R187, R191 to R195,
R215 to R222, R343 to R347). -/

namespace Sys2Proof.Machine

/-! Branches and jumps (R215 to R217). -/

/-- A branch on two registers. -/
def branchOp (σ : State) (i : BitVec 12) (b a : BitVec 5) (taken : Word → Word → Bool) : Out :=
  issue σ { reads := [a, b] } fun t => if taken (t.rx a) (t.rx b) then jump σ t (branchTarget t.pc i) else retire σ t

/-- A branch on a predicate. -/
def branchPred (σ : State) (i : BitVec 12) (a : BitVec 3) (on : Bool) : Out :=
  issue σ { preads := [a] } fun t => if t.rp a = on then jump σ t (branchTarget t.pc i) else retire σ t

/-- BEQ, R215. -/
def execBeq (i : BitVec 12) (b a : BitVec 5) (σ : State) : Out := branchOp σ i b a (· == ·)
/-- BNE, R215. -/
def execBne (i : BitVec 12) (b a : BitVec 5) (σ : State) : Out := branchOp σ i b a (· != ·)
/-- BLT, R215. -/
def execBlt (i : BitVec 12) (b a : BitVec 5) (σ : State) : Out := branchOp σ i b a (lessThan false)
/-- BGE, R215. -/
def execBge (i : BitVec 12) (b a : BitVec 5) (σ : State) : Out := branchOp σ i b a fun x y => !lessThan false x y
/-- BLTU, R215. -/
def execBltu (i : BitVec 12) (b a : BitVec 5) (σ : State) : Out := branchOp σ i b a (lessThan true)
/-- BGEU, R215. -/
def execBgeu (i : BitVec 12) (b a : BitVec 5) (σ : State) : Out := branchOp σ i b a fun x y => !lessThan true x y
/-- BP, R215. -/
def execBp (i : BitVec 12) (a : BitVec 3) (σ : State) : Out := branchPred σ i a true
/-- BNP, R215. -/
def execBnp (i : BitVec 12) (a : BitVec 3) (σ : State) : Out := branchPred σ i a false
/-- JAL, R216. -/
def execJal (i : BitVec 20) (d : BitVec 5) (σ : State) : Out :=
  issue σ { writes := [d] } fun t => jump σ (t.wx d (t.pc + 4) false) (jumpTarget t.pc i)
/-- JALR, R216. -/
def execJalr (i : BitVec 12) (a d : BitVec 5) (σ : State) : Out :=
  issue σ { reads := [a], writes := [d] } fun t =>
    let target := t.rx a + imm12 i
    if target.toNat % 4 ≠ 0 then faultOut σ cALIGN target else jump σ (t.wx d (t.pc + 4) false) target

/-! Control registers (R192 to R195, R346, R347). -/

/-- cnt (R195). -/
def Counts.packed (c : Counts) : Word :=
  BitVec.ofNat 64 (c.ld + c.st * 2 ^ 8 + c.cp * 2 ^ 16 + c.mx * 2 ^ 24 + c.vg * 2 ^ 32)

/-- The user control registers of a slot (R192); none for a reserved number. -/
def State.slotCsr (s : State) (f n c : Nat) : Option (Word × Bool) :=
  let sl := s.slot f n
  match c with
  | 0x000 => some (zext64 sl.th.rnd, false)
  | 0x001 => some (zext64 sl.th.stat, false)
  | 0x002 => some (zext64 sl.slim, false)
  | 0x003 => some (zext64 sl.felim, false)
  | 0x004 => some (zext64 sl.bap, false)
  | 0x005 => some (zext64 sl.cpt, false)
  | 0x006 => some (sl.mcm, false)
  | 0x007 => some (zext64 sl.mcb, false)
  | 0x008 => some (zext64 sl.ord, false)
  | 0x009 => some (sl.wid, false)
  | 0x00A => some (BitVec.ofNat 64 (s.facet f).cyc, !(s.prism (prismOf f)).pin)
  | 0x00B => some (BitVec.ofNat 64 (s.facet f).grant, false)
  | 0x00C => some (zext64 sl.vl, false)
  | 0x00D => some (sl.th.rkey, false)
  | 0x00E => some (sl.th.rctr, false)
  | 0x00F => some (zext64 sl.msrc, sl.msrcT)
  | 0x010 => some (sl.cnt.packed, false)
  | _ => none

/-- smode (R347). -/
def Core.smode (c : Core) : Word := zext64 (bit c.wld ++ bit c.pie ++ bit c.ie ++ bit c.pl)

/-- The control registers of a control core (R192, R346). -/
def Core.csr (x : Core) (c : Nat) : Option (Word × Bool) :=
  match c with
  | 0x000 => some (zext64 x.th.rnd, false)
  | 0x001 => some (zext64 x.th.stat, false)
  | 0x00A => some (BitVec.ofNat 64 x.cyc, true)
  | 0x00D => some (x.th.rkey, false)
  | 0x00E => some (x.th.rctr, false)
  | 0x800 => some (x.smode, false)
  | 0x801 => some (x.stvec, false)
  | 0x802 => some (x.sepc, false)
  | 0x803 => some (x.scause, false)
  | 0x804 => some (x.staddr, false)
  | 0x805 => some (x.sscratch, false)
  | 0x806 => some (zext64 x.sctx, false)
  | 0x807 => some (zext64 x.sip, false)
  | 0x808 => some (zext64 x.sie, false)
  | 0x809 => some (x.stimer, false)
  | 0x80A => some (zext64 x.sfqb <<< 12, false)
  | 0x80B => some (zext64 (x.sfqTail ++ 0#3 ++ x.sfqHead), false)
  | 0x80C => some (0, false)
  | 0x80D => some (zext64 x.spsel, false)
  | 0x80E => some (0, false)
  | _ => none

/-- A register an agent names, or the cause (R192, R219, R346). -/
def State.readCsr (s : State) (c : Nat) : Except (BitVec 8) (Word × Bool) :=
  match s.turn with
  | .slot f n => if 0x800 ≤ c then .error cPRIV else match s.slotCsr f n c with | some v => .ok v | none => .error cILLEGAL
  | .core k =>
    let x := s.core k
    if 0x800 ≤ c ∧ x.level = 0 then .error cPRIV else match x.csr c with | some v => .ok v | none => .error cILLEGAL
  | .peer _ => .error cILLEGAL

/-- vl as stored (R195). -/
def vlStored (v : Word) : BitVec 9 := let x := v.setWidth 9; if 256#9 < x then 256#9 else x

/-- cpt as stored: KIND 3 stores 0 (R194). -/
def cptStored (v : Word) : BitVec 31 :=
  let x := v.setWidth 31 &&& 0x7FFFFF03#31
  if x.extractLsb' 0 2 = 3#2 then x &&& ~~~3#31 else x

/-- A write of a user control register of a slot: RO registers keep their value (R192 to R195). -/
def Slot.setCsr (sl : Slot) (c : Nat) (v : Word) : Slot :=
  match c with
  | 0x000 => { sl with th := { sl.th with rnd := rndStored (v.setWidth 32) } }
  | 0x002 => { sl with slim := v.setWidth 18 }
  | 0x003 => { sl with felim := v.setWidth 32 }
  | 0x004 => { sl with bap := v.setWidth 21 }
  | 0x005 => { sl with cpt := cptStored v }
  | 0x006 => { sl with mcm := v }
  | 0x007 => { sl with mcb := v.setWidth 11 &&& 0x7C0#11 }
  | 0x00C => { sl with vl := vlStored v }
  | 0x00D => { sl with th := { sl.th with rkey := v } }
  | 0x00E => { sl with th := { sl.th with rctr := v } }
  | _ => sl

/-- scause as stored: KIND 3 stores 0, and a reserved cause of a fault reads back as 0x01 (R17, R347). -/
def scauseStored (v : Word) : Word :=
  let v := v &&& 0x30FFF#64
  let v := if v.extractLsb' 16 2 = 3#2 then v &&& 0xFFF#64 else v
  if v.extractLsb' 16 2 = 0#2 then
    (if v.toNat % 4096 < 256 then zext64 (causeStored (v.setWidth 8)) else 1)
  else v

/-- A write of a control register of a control core (R347). -/
def Core.setCsr (x : Core) (c : Nat) (v : Word) : Core :=
  match c with
  | 0x000 => { x with th := { x.th with rnd := rndStored (v.setWidth 32) } }
  | 0x00D => { x with th := { x.th with rkey := v } }
  | 0x00E => { x with th := { x.th with rctr := v } }
  | 0x800 => { x with pie := bitAt v 2, ie := bitAt v 1, pl := bitAt v 0 }
  | 0x801 => { x with stvec := v &&& ~~~3#64 }
  | 0x802 => { x with sepc := v &&& ~~~3#64 }
  | 0x803 => { x with scause := scauseStored v }
  | 0x804 => { x with staddr := v }
  | 0x805 => { x with sscratch := v }
  | 0x806 => { x with sctx := v.setWidth 6 }
  | 0x807 =>
    { x with sipMgmt := x.sipMgmt && !bitAt v 5, sipPre := x.sipPre && !bitAt v 4, sipNotify := x.sipNotify && !bitAt v 3,
             sipStrm := x.sipStrm && !bitAt v 1 }
  | 0x808 => { x with sie := v.setWidth 6 }
  | 0x809 => { x with stimer := v }
  | 0x80A => { x with sfqb := v.extractLsb' 12 32 }
  | 0x80B => { x with sfqHead := v.setWidth 5 }
  | 0x80D => { x with spsel := v.setWidth 11 }
  | _ => x

/-- The step that a write of sfrply makes due (R357): none for VERDICT 3. -/
def replyStep (k : Nat) (v : Word) : Option Instr :=
  match fieldAt v 32 2 with
  | 0 => some (.sfrplyRetry k (fieldAt v 0 32))
  | 1 => some (.sfrplyNomap k (fieldAt v 0 32))
  | 2 => some (.sfrplyAccess k (fieldAt v 0 32))
  | _ => none

/-- The exceptions that a slot's instructions complete with in a cycle are ORed into rnd after a CSR write of that cycle (R156). -/
def Slot.orFlags (sl : Slot) : Slot := { sl with th := { sl.th with rnd := rndOr sl.th.rnd sl.orNow } }

/-- A write of rnd by a slot: flags of matrix operations that no MXFENCE has shown stay where the write leaves a set flag set, and those of one
that completes in this cycle come after it (R156). -/
def Slot.setRnd (sl : Slot) (v keep : Word) : Slot :=
  let k := keep.extractLsb' 8 5
  let sl := (sl.setCsr 0 v).orFlags
  { sl with mxf0 := (sl.mxf0 &&& k) ||| sl.mxNow0, mxf1 := (sl.mxf1 &&& k) ||| sl.mxNow1 }

/-- A write of a control register by the executing agent, with what it starts: an answer (R357), a save or a resume (R358). `keep` has
the bits that the write leaves as they are. -/
def State.writeCsr (s : State) (c : Nat) (v keep : Word) : State :=
  match s.turn with
  | .slot f n => s.modSlot f n fun x => if c = 0 then x.setRnd v keep else x.setCsr c v
  | .core k =>
    let s := s.modCore k fun x => x.setCsr c v
    if c = 0x80C then (match replyStep k v with | some i => s.pushFirst i | none => s)
    else if c = 0x80E then
      let f := (s.core k).spsel.toNat
      s.pushFirst (if bitAt v 0 then .spreResume k f (fieldAt v 12 32 * 4096) else .spreSave k f (fieldAt v 12 32 * 4096))
    else s
  | .peer _ => s

/-- A CSR access waits: a read of rnd for the slot's vector instructions (R156, R162), a write of sfrply for its release (R357). -/
def State.csrWaits (s : State) (c : Nat) (reads writes : Bool) : Bool :=
  match s.turn with
  | .slot f n => (c == 0 && reads && (s.facet f).vecBusy n) || (c == 0xE && s.drawsPending s.turn)
  | a => c == 0x80C && writes && (s.release a true).isNone

/-- CSRRW, CSRRS, CSRRC (R219). A CSRRW that discards what it reads only writes (log 49). -/
def csrOp (σ : State) (c : BitVec 12) (a d : BitVec 5) (always : Bool) (f : Word → Word → Word) : Out :=
  let refuse := match σ.readCsr c.toNat with | .error cause => some cause | .ok _ => none
  issue σ { refuse, reads := [a], writes := [d] } fun t =>
    match σ.readCsr c.toNat with
    | .error cause => faultOut σ cause
    | .ok (old, taint) =>
      let writes := always || a != 0
      if σ.csrWaits c.toNat (!always || d != 0) writes then stall σ clVSEQ
      else
        let x := t.rx a
        let σ' := if writes then σ.writeCsr c.toNat (f old x) (f (BitVec.allOnes 64) x &&& ~~~(f 0 x)) else σ
        retire σ' ((σ'.thread σ'.turn).wx d old taint)

/-- CSRRW, R219. -/
def execCsrrw (c : BitVec 12) (a d : BitVec 5) (σ : State) : Out := csrOp σ c a d true fun _ x => x
/-- CSRRS, R219. -/
def execCsrrs (c : BitVec 12) (a d : BitVec 5) (σ : State) : Out := csrOp σ c a d false fun old x => old ||| x
/-- CSRRC, R219. -/
def execCsrrc (c : BitVec 12) (a d : BitVec 5) (σ : State) : Out := csrOp σ c a d false fun old x => old &&& ~~~x

/-! System instructions (R220 to R222). -/

/-- SVC, R220. -/
def execSvc (i : BitVec 12) (σ : State) : Out :=
  issue σ { facet := false, handler := false } fun t =>
    match σ.turn with
    | .core k => .next (σ.setCore k ((σ.core k).trap kSvc i (t.pc + 4) 0))
    | _ => faultOut σ cILLEGAL

/-- BRK, R221. The record's PC is the BRK's address, its INFO the code and its ADDR the resume address (log 22). -/
def execBrk (i : BitVec 12) (σ : State) : Out :=
  issue σ {} fun t =>
    match σ.turn with
    | .slot f n =>
      .next (((σ.setSlot f n { σ.slot f n with th := t.next, sdc := { (σ.slot f n).sdc with skip := false } })).takeFault σ.turn
        { cause := cBREAK, pc := some t.pc, addr := t.pc + 4, info := zext64 i })
    | _ => faultOut σ cBREAK

/-- FRAME, R222. No stack is allocated to a user handler, where a positive size faults (R314); it has no allocation either, and
LB + LSIZE is taken as 0 there (log 50). -/
def execFrame (i : BitVec 12) (d : BitVec 5) (σ : State) : Out :=
  issue σ { core := false, reads := [2], writes := [2, d] } fun t =>
    onSlot σ fun _ _ sl =>
      let n : Int := i.toInt * 16
      let old := t.rx 2
      let new : Int := old.toNat - n
      if old.toNat % 16 ≠ 0 then faultOut σ cALIGN old
      else if 0 < n ∧ (σ.inHandler σ.turn ∨ new < sl.slim.toNat) then faultOut σ cSTACK 0 (BitVec.ofInt 64 new)
      else if n < 0 ∧ (sl.lb + sl.lsize : Int) < new then faultOut σ cLSRANGE (BitVec.ofInt 64 new)
      else retire σ ((t.wx d old (t.tx 2)).wx 2 (BitVec.ofInt 64 new) (t.tx 2))

/-! Privileged instructions (R343 to R345). -/

/-- A privileged instruction: PRIV on a facet and at level 0 (R343). -/
def privileged (σ : State) (k : Nat → Core → Thread → Out) : Out :=
  let allowed := match σ.turn with | .core n => (σ.core n).level == 1 | _ => false
  issue σ { handler := false, refuse := if allowed then none else some cPRIV } fun t =>
    match σ.turn with
    | .core n => k n (σ.core n) t
    | _ => faultOut σ cPRIV

/-- A core has entered level 0 with a context's stream: the stream continues where an answer of its service core had it go (R357), and a
fault of it that waits may be delivered (R350). -/
def State.entersStream (s : State) (k c : Nat) : State :=
  let s : State := match (s.ctx c).goAt with
    | some a => (s.modCtx c fun x => { x with goAt := none }).modCore k fun y => { y with th := { y.th with pc := a } }
    | none => s
  match (s.ctx c).phase with
  | .waiting _ _ _ _ => s.pushDue (.faultDelivery c)
  | _ => s

/-- TRET, R345: at level 0 the core runs the stream of SCTX.CTX. -/
def execTret (σ : State) : Out :=
  privileged σ fun k c _ =>
    let σ := σ.setCore k { c with level := if c.pl then 1 else 0, ie := c.pie, pie := true, th := { c.th with pc := c.sepc },
                                  stream := if c.pl then c.stream else c.sctx }
    .next (if c.pl then σ else σ.entersStream k c.sctx.toNat)

/-- WAITI, R344. -/
def execWaiti (σ : State) : Out :=
  privileged σ fun k c t =>
    if (c.sip &&& c.sie) != 0 then retire (σ.setCore k { c with park := none }) t
    else .next (σ.setCore k { c with park := some { kind := .waitCnt } })

/-- The monitor call of a function number (R448). -/
def callOf (n : Nat) (who : Caller) : Option Instr :=
  match n with
  | 1 => some (.part who) | 2 => some (.region who) | 3 => some (.attest who) | 4 => some (.update who) | 5 => some (.service who)
  | 6 => some (.link who) | 7 => some (.extend who) | 8 => some (.log who) | 9 => some (.apcfg who)
  | _ => none

/-- A step is a monitor call. -/
def isCall : Instr → Bool
  | .part _ | .region _ | .attest _ | .update _ | .service _ | .link _ | .extend _ | .log _ | .apcfg _ => true
  | _ => false

/-- The oldest call that waits for the monitor or is being served (R448). -/
def State.oldestCall (s : State) : Option Instr := s.due.find? isCall

/-- The monitor's reply to an SMC (R344, R448): a0 and a1 are written untainted, and the SMC retires. -/
def State.smcReply (s : State) (k : Nat) (a0 a1 : Word) : State :=
  let c := s.core k
  (s.setCore k { c with run := .running }).retireAs (.core k) ((c.th.wx 5 a0 false).wx 6 a1 false)

/-- SMC, R344. A number that names no call is refused in its turn, after the calls that came before it (R448). -/
def execSmc (σ : State) : Out :=
  privileged σ fun k c _ =>
    match σ.release (.core k) true with
    | none => stall (σ.setCore k { c with park := some { kind := .smc } }) clFENCE
    | some σ =>
      match callOf (c.th.rx 5).toNat (.core k) with
      | some i => .next ((σ.setCore k { c with run := .smc, park := none }).pushDue i)
      | none =>
        if σ.oldestCall.isSome then stall (σ.setCore k { c with park := some { kind := .smc } }) clFENCE
        else .next (σ.smcReply k (BitVec.allOnes 64) 1)

/-! The format prefix and WAIT (R187, R191). -/

/-- FMTP, R187: ILLEGAL while a prefix is pending, be it for an instruction elsewhere. -/
def execFmtp (a b d : Option Fmt) (r : Option RMode) (s : Option Bool) (σ : State) : Out :=
  issue σ { refuse := if (σ.thread σ.turn).pp then some cILLEGAL else none } fun t =>
    let st : BitVec 21 := pfmtCode d ++ pfmtCode b ++ pfmtCode a ++ prmCode r ++ psatCode s ++ 1#1
    .next ((σ.setThread σ.turn { t with pc := t.pc + 4, stat := st, ppc := t.pc + 4 }).afterRetire σ.turn)

/-- A count meets its limit: 31 is no limit (R191). -/
def meets (limit : BitVec 5) (n : Nat) : Bool := limit == 31 || n ≤ limit.toNat

/-- WAIT, R191. -/
def execWait (l s c m v : BitVec 5) (σ : State) : Out :=
  issue σ { core := false, handler := false } fun t =>
    onSlot σ fun _ _ sl =>
      if meets l sl.cnt.ld && meets s sl.cnt.st && meets c sl.cnt.cp && meets m sl.cnt.mx && meets v sl.cnt.vg then retire σ t
      else stallAs σ .waitCnt clCOUNT

end Sys2Proof.Machine
end

