-- ==== Sys2Proof/Machine/VecOps.lean ====
section
/-! DEFINITION. Vector registers and elements (R154, R255, R258), what each vector instruction reads, writes and needs (R259, R260,
R268 to R278), and the results of the instructions of VOP and VFX on elements. -/

namespace Sys2Proof.Machine

/-! Registers and elements. -/

/-- The key of register r of a slot: v0–v15 are the slot's, w0–w15 the facet's. -/
def vkey (slot r : Nat) : Nat := if r < 16 then 16 * slot + r else 240 + r
def Facet.vreg (x : Facet) (slot r : Nat) : VReg := kget {} x.v (vkey slot r)

/-- Element e of width w (R258). -/
def VReg.elem (v : VReg) (w e : Nat) : Nat := (v.bits.extractLsb' (w * e) w).toNat

/-- The lanes that element e of width w touches, and the OR of their taint. -/
def lanesOf (w e : Nat) : List Nat := upto (w * e / 32) ((w * e + w - 1) / 32 + 1)
def VReg.tainted (v : VReg) (w e : Nat) : Bool := (lanesOf w e).any fun l => v.taint.getLsbD l

/-- Lanes that n elements of width w need (R259). -/
def lanesFor (w n : Nat) : Nat := if w = 64 then 2 * n else (n * w + 31) / 32

/-- The bound stream of register r: w12–w15 are numbers 28–31. -/
def Facet.streamOf (x : Facet) (r : Nat) : Option Stream := if 28 ≤ r then kfind (r - 28) x.streams else none

/-- The elements of a source: a register's, or a fill stream's next ones (R267). -/
def Facet.source (x : Facet) (slot r w e : Nat) : Nat × Bool :=
  match x.streamOf r with
  | some st =>
    if st.drain then (0, false)
    else match st.buf.find? fun b => b.1 == st.pos + e with
      | some (_, v, t) => (v.toNat % 2 ^ w, t)
      | none => (0, false)
  | none => ((x.vreg slot r).elem w e, (x.vreg slot r).tainted w e)

/-- Element values with their numbers and taint. -/
abbrev Elems := List (Nat × Nat × Bool)

/-- The write of elements of width w: a word is cleared of its taint where it is written whole (R78, R258), unless `orOld`. -/
def vwrite (key w : Nat) (es : Elems) (orOld : Bool := false) : VWrite :=
  let mask := BitVec.ofNat 8192 (es.foldl (fun m (e, _, _) => m + (2 ^ w - 1) * 2 ^ (w * e)) 0)
  { reg := key, bits := BitVec.ofNat 8192 (es.foldl (fun m (e, v, _) => m + v % 2 ^ w * 2 ^ (w * e)) 0), mask := mask,
    taint := es.foldl (fun m (e, _, t) => if t then (lanesOf w e).foldl (fun m l => setBit m l true) m else m) 0,
    lanes := if orOld then 0 else (List.range 256).foldl (fun m l => setBit m l (mask.extractLsb' (32 * l) 32 == BitVec.allOnes 32)) 0 }

/-- A write applied to a register. -/
def VReg.apply (v : VReg) (u : VWrite) : VReg :=
  { bits := (v.bits &&& ~~~u.mask) ||| (u.bits &&& u.mask), taint := (v.taint &&& ~~~u.lanes) ||| u.taint }

/-- The lanes that some bits of a register lie in. -/
def lanesIn (m : BitVec 8192) : BitVec 256 := (List.range 256).foldl (fun v l => setBit v l (m.extractLsb' (32 * l) 32 != 0)) 0

/-- A write without the lanes at and above a grant, which do not exist (R256). -/
def VWrite.within (u : VWrite) (h : Nat) : VWrite :=
  { u with mask := u.mask &&& BitVec.ofNat 8192 (2 ^ (32 * h) - 1), taint := u.taint &&& BitVec.ofNat 256 (2 ^ h - 1) }

/-- A slot's instruction writes a register. Of two slots that write one element of a shared register in one cycle the lower-numbered one's
value stays, and every element that either writes in that cycle is tainted (R262). -/
def Facet.putV (x : Facet) (slot : Nat) (u : VWrite) : Facet :=
  let u := u.within x.grant
  let put := fun (u : VWrite) (t : BitVec 256) =>
    kmod {} u.reg (fun v => let w := v.apply u; { w with taint := w.taint ||| t }) x.v
  if u.reg < 256 ∨ u.mask = 0 then { x with v := put u 0 }
  else
    let others := x.wNow.filter fun w => w.1 != slot && w.2.1 == u.reg
    let lower := (others.filter fun w => decide (w.1 < slot)).foldl (fun m w => m ||| w.2.2) 0
    let ties : BitVec 256 := if others.isEmpty then 0 else others.foldl (fun m w => m ||| lanesIn w.2.2) (lanesIn u.mask)
    { x with v := put { u with mask := u.mask &&& ~~~lower } ties, wNow := x.wNow ++ [(slot, u.reg, u.mask)] }

/-! What an instruction reads and writes. -/

/-- Registers with element widths, scalar registers, lanes, prefix and class of a vector instruction. -/
structure VInfo where
  m : Bool := false
  dsts : List (Nat × Nat) := []
  srcs : List (Nat × Nat) := []
  ra : BitVec 5 := 0
  rb : BitVec 5 := 0
  xd : BitVec 5 := 0
  widths : List Nat := []
  /-- Prefixable, and whether it accepts the formats of the prefix (R188). -/
  pre : Bool := false
  accepts : Prefix → Bool := fun p => p.fa.isNone && p.fb.isNone && p.fd.isNone
  fp : Bool := false
  latency : Nat := 4
  /-- A reduction: 2 × ⌈log2 lanes⌉ cycles more. -/
  tree : Bool := false

/-- The bits of the width codes. -/
def iBits : VIWidth → Nat
  | .w8 => 8 | .w16 => 16 | .w32 => 32 | .w64 => 64
def sBits : VSWidth → Nat
  | .w16 => 16 | .w32 => 32 | .w64 => 64
def cBits : VCWidth → Nat
  | .w4 => 4 | .w8 => 8 | .w16 => 16 | .w32 => 32 | .w64 => 64

/-- The format of a float class (R269). -/
def vfFmt : VFTyp → Fmt
  | .f32 => .f32 | .f16 => .f16 | .f64 => .f64 | .bf16 => .bf16

/-- The default formats of a source width: VCVT.F and VCVT.I (R272), special functions (R275). -/
def cvtFloat : VWidth → Fmt
  | .w32 => .f32 | .w16 => .bf16 | .w8 => .e4m3 | .w6 => .e2m3 | .w4 => .e2m1 | .w64 => .f64
def cvtInt : VWidth → Fmt
  | .w32 => .i32 | .w16 => .i16 | .w8 => .i8 | .w6 => .i4 | .w4 => .i4 | .w64 => .i64
def specialFmt : VSWidth → Fmt
  | .w32 => .f32 | .w16 => .f16 | .w64 => .f64

/-- Integer, logic and compare forms. -/
def infoInt (m : Bool) (b a : BitVec 5) (w : Nat) (d : BitVec 5) (cmp : Bool) : VInfo :=
  { m := m, dsts := [(d.toNat, if cmp then 1 else w)], srcs := [(a.toNat, w), (b.toNat, w)], widths := [w] }

/-- Float forms with their sources. -/
def infoFloat (m : Bool) (w : Nat) (srcs : List (BitVec 5)) (d : BitVec 5) (pre : Bool) (dw lat : Nat) : VInfo :=
  { m := m, dsts := [(d.toNat, dw)], srcs := srcs.map fun r => (r.toNat, w), widths := [w], pre := pre, fp := true,
    latency := lat }

/-- Conversion. -/
def infoCvt (m : Bool) (b : Fmt) (a : BitVec 5) (w : VWidth) (d : BitVec 5) (fd : Option Fmt) : VInfo :=
  let dw := (fd.getD b).width
  { m := m, dsts := [(d.toNat, dw)], srcs := [(a.toNat, w.bits)], widths := [w.bits, dw], pre := true,
    accepts := fun p => p.fb.isNone && (p.fa.map (·.width == w.bits)).getD true, fp := true, latency := 6 }

/-- Quantising and its inverse. -/
def infoQnt (m : Bool) (b : Fmt) (a d : BitVec 5) : VInfo :=
  { m := m, dsts := [(d.toNat, b.width), (d.toNat + 1, 32)], srcs := [(a.toNat, 32)], widths := [32, b.width], pre := true, fp := true,
    latency := 6 }
def infoDqnt (m : Bool) (b : Fmt) (a d : BitVec 5) : VInfo :=
  { m := m, dsts := [(d.toNat, 32)], srcs := [(a.toNat, b.width), (a.toNat + 1, 32)], widths := [32, b.width], pre := true, fp := true,
    latency := 6 }

/-- Special functions. -/
def infoSpecial (m : Bool) (a : BitVec 5) (w : VSWidth) (d : BitVec 5) : VInfo :=
  { m := m, dsts := [(d.toNat, sBits w)], srcs := [(a.toNat, sBits w)], widths := [sBits w], pre := true,
    accepts := fun p => p.fb.isNone && ((p.fa.isNone && p.fd.isNone) || (p.fa == some .bf16 && p.fd == some .bf16 && w == .w16)),
    fp := true, latency := 12 }

/-- One source and one destination of a width. -/
def infoMove (m : Bool) (srcs : List (BitVec 5)) (ra rb : BitVec 5) (w : Nat) (d : BitVec 5) : VInfo :=
  { m := m, dsts := [(d.toNat, w)], srcs := srcs.map fun r => (r.toNat, w), ra := ra, rb := rb, widths := [w] }

/-- Reductions and the scan. -/
def infoReduce (m : Bool) (b : Fmt) (a : BitVec 5) (w : VWidth) (d : BitVec 5) (pre : Bool) : VInfo :=
  { m := m, dsts := [(d.toNat, w.bits)], srcs := [(a.toNat, w.bits)], widths := [w.bits], pre := pre, fp := b.isFloat, latency := 6, tree := true }

/-- Loads and stores. -/
def infoLoad (m : Bool) (ra rb : BitVec 5) (w : Nat) (d : BitVec 5) : VInfo :=
  { m := m, dsts := [(d.toNat, w)], ra := ra, rb := rb, widths := [w], latency := 8 }
def infoStore (m : Bool) (ra rb : BitVec 5) (w : Nat) (d : BitVec 5) : VInfo :=
  { m := m, srcs := [(d.toNat, w)], ra := ra, rb := rb, widths := [w] }

/-- What a vector instruction reads, writes and needs, under the destination format of its prefix. -/
def vinfo (i : Instr) (fd : Option Fmt) : VInfo :=
  match i with
  | .vldl m a w d | .vld m a w d => infoLoad m a 0 w.bits d
  | .vldls m b a w d => infoLoad m a b (iBits w) d
  | .vstl m a w d | .vst m a w d => infoStore m a 0 w.bits d
  | .vstls m b a w d => infoStore m a b (iBits w) d
  | .vadd _ m b a w d | .vsub _ m b a w d | .vmul _ m b a w d | .vmulh _ m b a w d | .vmin _ m b a w d | .vmax _ m b a w d
  | .vand _ m b a w d | .vor _ m b a w d | .vxor _ m b a w d | .vshl _ m b a w d | .vshr _ m b a w d | .vadds _ m b a w d
  | .vsubs _ m b a w d => infoInt m b a (iBits w) d false
  | .vcmpeq _ m b a w d | .vcmplt _ m b a w d | .vcmple _ m b a w d => infoInt m b a (iBits w) d true
  | .vfadd t m b a d | .vfsub t m b a d | .vfmul t m b a d | .vfmin t m b a d | .vfmax t m b a d =>
    infoFloat m (vfFmt t).width [a, b] d true (vfFmt t).width 6
  | .vfdiv t m b a d => infoFloat m (vfFmt t).width [a, b] d true (vfFmt t).width (if t = .f64 then 36 else 20)
  | .vfma t m b a d | .vfnma t m b a d => infoFloat m (vfFmt t).width [a, b, d] d true (vfFmt t).width 6
  | .vfsqrt t m a d => infoFloat m (vfFmt t).width [a] d true (vfFmt t).width (if t = .f64 then 36 else 20)
  | .vfsgnj t m b a d | .vfsgnjn t m b a d | .vfsgnjx t m b a d => infoFloat m (vfFmt t).width [a, b] d false (vfFmt t).width 6
  | .vfcmpun t m b a d | .vfcmpeq t m b a d | .vfcmplt t m b a d | .vfcmple t m b a d =>
    infoFloat m (vfFmt t).width [a, b] d false 1 6
  | .vcvtF m b a w d | .vcvtI m b a w d => infoCvt m b a w d fd
  | .vqnt32 m b a d | .vqnt128 m b a d | .vqnt256 m b a d => infoQnt m b a d
  | .vdqnt32 m b a d | .vdqnt128 m b a d | .vdqnt256 m b a d => infoDqnt m b a d
  | .vexp2 m a w d | .vlog2 m a w d | .vrcp m a w d | .vrsqrt m a w d => infoSpecial m a w d
  | .vclz m a w d | .vctz m a w d | .vffs m a w d | .vpopc m a w d => infoMove m [a] 0 0 (cBits w) d
  | .vbcast m a w d => infoMove m [] a 0 w.bits d
  | .vext m b a w d => { m := m, srcs := [(a.toNat, iBits w)], rb := b, xd := d, widths := [iBits w] }
  | .vins m b a w d => infoMove m [] a b (iBits w) d
  | .vperm m b a w d => infoMove m [a, b] 0 0 (iBits w) d
  | .vslup m b a w d | .vsldn m b a w d => infoMove m [a] 0 b w.bits d
  | .viota m w d => infoMove m [] 0 0 (iBits w) d
  | .vmv m a w d => infoMove m [a] 0 0 w.bits d
  | .vrsum m b a w d | .vscan m b a w d => infoReduce m b a w d true
  | .vrmax m b a w d | .vrmin m b a w d => infoReduce m b a w d false
  | _ => {}

/-! Results on elements. -/

/-- What a vector instruction makes: writes, a scalar result, exceptions, and how many draws it consumes in mode SR. -/
structure VOut where
  writes : List (Nat × Nat × Elems) := []
  /-- Its word keeps its taint beside the new (compares). -/
  orOld : Bool := false
  scalar : Option (Word × Bool) := none
  flags : Exc := 0
  draws : Nat := 0

/-- What an instruction works on: its elements, which are active, and its rounding by rank. -/
structure VArgs where
  vl : Nat
  active : Nat → Bool
  src : Nat → Nat → Nat → Nat × Bool
  rnd : Nat → Rounding
  fa : Option Fmt
  fd : Option Fmt
  xa : Word
  xb : Word
  xat : Bool

/-- The active elements in ascending order with their rank. -/
def VArgs.ranks (g : VArgs) : List (Nat × Nat) := ((List.range g.vl).filter g.active).zipIdx

/-- A result for each active element from its number and rank. -/
def VArgs.each (g : VArgs) (d w : Nat) (f : Nat → Nat → Nat × Bool × Exc) : VOut :=
  let rs := g.ranks.map fun (e, k) => (e, f e k)
  { writes := [(d, w, rs.map fun (e, v, t, _) => (e, v, t))], flags := rs.foldl (fun x (_, _, _, y) => x ||| y) 0 }

/-- An integer operation on two sources (R269). -/
def VArgs.int2 (g : VArgs) (w : Nat) (b a d : BitVec 5) (f : Nat → Nat → Nat) : VOut :=
  g.each d.toNat w fun e _ =>
    let (x, tx) := g.src a.toNat w e
    let (y, ty) := g.src b.toNat w e
    (f x y, tx || ty, 0)

/-- The integer of w bits, signed where U is 0. -/
def intOf (u : Bool) (w v : Nat) : Int := if !u ∧ 2 ^ (w - 1) ≤ v then (v : Int) - 2 ^ w else v

/-- An integer as w bits, wrapped or clamped to its type. -/
def wrapInt (w : Nat) (v : Int) : Nat := (v % 2 ^ w).toNat
def clampInt (u : Bool) (w : Nat) (v : Int) : Nat :=
  wrapInt w (if u then max 0 (min (2 ^ w - 1) v) else max (-(2 ^ (w - 1))) (min (2 ^ (w - 1) - 1) v))

/-- An integer operation on exact values, wrapped to the width (R269). -/
def VArgs.intZ (g : VArgs) (u : Bool) (w : Nat) (b a d : BitVec 5) (f : Int → Int → Int) : VOut :=
  g.int2 w b a d fun x y => wrapInt w (f (intOf u w x) (intOf u w y))

/-- A compare of integers: mask bits (R270). -/
def VArgs.intCmp (g : VArgs) (u : Bool) (w : Nat) (b a d : BitVec 5) (f : Int → Int → Bool) : VOut :=
  let r := g.each d.toNat 1 fun e _ =>
    let (x, tx) := g.src a.toNat w e
    let (y, ty) := g.src b.toNat w e
    ((f (intOf u w x) (intOf u w y)).toNat, tx || ty, 0)
  { r with orOld := true }

/-- A floating operation on two sources that rounds each element once (R270). -/
def VArgs.float (g : VArgs) (f : Fmt) (srcs : List (BitVec 5)) (d : BitVec 5) (op : (Nat → FVal) → RMode → FRes) : VOut :=
  let r := g.each d.toNat f.width fun e k =>
    let vs := srcs.map fun r => g.src r.toNat f.width e
    let (v, x) := deliver f (g.rnd k) (op (fun j => decodeFloat f ((vs[j]?).getD (0, false)).1) (g.rnd k).mode)
    (v, vs.any Prod.snd, x)
  { r with draws := g.ranks.length }

/-- A floating operation on encodings, which rounds nothing: minimum, maximum, sign (R208, R209). In mode SR it draws nothing, minimum and
maximum too (log 77). -/
def VArgs.float2 (g : VArgs) (f : Fmt) (b a d : BitVec 5) (op : Nat → Nat → Nat × Exc) : VOut :=
  g.each d.toNat f.width fun e _ =>
    let (x, tx) := g.src a.toNat f.width e
    let (y, ty) := g.src b.toNat f.width e
    let (v, c) := op x y
    (v, tx || ty, c)

/-- The magnitude of x with a sign made of both signs (R209). -/
def signPut (f : Fmt) (s : Bool → Bool → Bool) (x y : Nat) : Nat × Exc :=
  (withSign f (s (x.testBit (f.width - 1)) (y.testBit (f.width - 1))) (x % 2 ^ (f.width - 1)), 0)

/-- A floating compare: mask bits (R214, R270). -/
def VArgs.floatCmp (g : VArgs) (f : Fmt) (b a d : BitVec 5) (onNan loud : Bool) (op : FVal → FVal → Bool) : VOut :=
  let r := g.each d.toNat 1 fun e _ =>
    let (x, tx) := g.src a.toNat f.width e
    let (y, ty) := g.src b.toNat f.width e
    let u := decodeFloat f x
    let v := decodeFloat f y
    let nan := u.isNan || v.isNan
    ((if nan then onNan else op u v).toNat, tx || ty, if u.isSnan || v.isSnan || (loud && nan) then xNV else 0)
  { r with orOld := true }

/-- VCVT (R272): a conversion between integer formats rounds nothing (R162, R167). -/
def VArgs.cvt (g : VArgs) (src dst : Fmt) (w : Nat) (a d : BitVec 5) : VOut :=
  let r := g.each d.toNat dst.width fun e k =>
    let (x, t) := g.src a.toNat w e
    let (v, c) := convert src dst (g.rnd k) x
    (v, t, c)
  { r with draws := if src.isFloat || dst.isFloat then g.ranks.length else 0 }

/-- The power-of-two scale exponent k of R172 from the FP32 values of a row or block and the largest magnitude F of the target:
the least k with m ≤ F × 2^k, clamped. -/
def scaleExp (vs : List FVal) (f : Fmt) : Int :=
  let isInf := fun (v : FVal) => match v with | .inf _ => true | _ => false
  let top : Nat × Int := if f.isFloat then
      (match decodeFloat f (floatFmt f).maxEnc with | .fin _ m e => (m, e) | _ => (1, 0)) else ((maxInt f).toNat, 0)
  if vs.any isInf then 127
  else if vs.any FVal.isNan then 0
  else
    -- the least k with every magnitude m × 2^e at most top × 2^k
    let fits := fun (k : Int) (v : FVal) => match v with
      | .fin _ m e => let lo := min e (top.2 + k); decide (m * 2 ^ (e - lo).toNat ≤ top.1 * 2 ^ (top.2 + k - lo).toNat)
      | _ => true
    if vs.all (fun v => match v with | .fin _ _ _ => false | _ => true) then 0
    else
      let ks : List Int := (List.range 254).map fun (i : Nat) => (i : Int) - 126
      (ks.find? fun k => vs.all (fits k)).getD 127

/-- A value divided by 2^k. -/
def FVal.scaleDown (k : Int) : FVal → FVal
  | .fin n m e => .fin n m (e - k)
  | v => v

/-- A value rounded to a floating or integer format. -/
def deliverAny (f : Fmt) (r : Rounding) (v : FVal) : Nat × Exc := if f.isFloat then deliver f r (fCvt v) else toInt f r (fCvt v)

/-- The encoding of a scale 2^k: FP32 for 8-bit targets, E8M0 otherwise (R172, R273). -/
def scaleEnc (f : Fmt) (k : Int) : Nat := if f.width = 8 then (k + 127).toNat * 2 ^ 23 else (k + 127).toNat

/-- VQNT (R273). -/
def VArgs.qnt (g : VArgs) (q : Fmt) (blk : Nat) (a d : BitVec 5) : VOut :=
  let ranks := g.ranks
  let parts := (List.range ((g.vl + blk - 1) / blk)).map fun j =>
    let mine := ranks.filter fun (e, _) => e / blk == j
    let vs := mine.map fun (e, k) => (e, k, decodeFloat .f32 (g.src a.toNat 32 e).1)
    let t := mine.any fun (e, _) => (g.src a.toNat 32 e).2
    let k := scaleExp (vs.map fun (_, _, v) => v) q
    let out := vs.map fun (e, rank, v) => (e, deliverAny q (g.rnd rank) (v.scaleDown k))
    (out.map fun (e, v, _) => (e, v, t), if mine.isEmpty then [] else [(j, scaleEnc q k, t)], out.foldl (fun x (_, _, y) => x ||| y) 0)
  { writes := [(d.toNat, q.width, parts.flatMap fun p => p.1), (d.toNat + 1, 32, parts.flatMap fun p => p.2.1)],
    flags := parts.foldl (fun x p => x ||| p.2.2) 0, draws := ranks.length }

/-- VDQNT (R274). -/
def VArgs.dqnt (g : VArgs) (q : Fmt) (blk : Nat) (a d : BitVec 5) : VOut :=
  let r := g.each d.toNat 32 fun e k =>
    let (x, tx) := g.src a.toNat q.width e
    let (s, ts) := g.src (a.toNat + 1) 32 (e / blk)
    let sv := if q.width = 8 then decodeFloat .f32 s else decodeFloat .e8m0 (s % 256)
    let xv := if q.isFloat then decodeFloat q x else ofInt (decodeInt q x)
    let (v, c) := if sv.isNan then (canonNan .f32, xNV) else deliver .f32 (g.rnd k) (fMul xv sv)
    (v, tx || ts, c)
  { r with draws := g.ranks.length }

/-- An operation on one source's bits (R276). -/
def VArgs.bits1 (g : VArgs) (w : Nat) (a d : BitVec 5) (f : Nat → Nat) : VOut :=
  g.each d.toNat w fun e _ => let (x, t) := g.src a.toNat w e; (f x, t, 0)

/-! Reductions (R173, R277). -/

/-- Two values of a format added, rounded by the mode: integers wrap. -/
def addFmt (f : Fmt) (r : Rounding) (x y : Nat) : Nat × Exc :=
  if f.isFloat then deliver f r (fAdd (r.mode = .rdn) (decodeFloat f x) (decodeFloat f y)) else ((x + y) % 2 ^ f.width, 0)

/-- The canonical NaN for a NaN, and NV for a signalling one. -/
def quiet (f : Fmt) (x : Nat) : Nat × Exc :=
  if f.isFloat ∧ (decodeFloat f x).isNan then (canonNan f, if (decodeFloat f x).isSnan then xNV else 0) else (x, 0)

/-- A node with its two children: an inner node of mode SR rounds RNE. -/
def joinNode (f : Fmt) (r : Rounding) : Option (Nat × Exc) → Option (Nat × Exc) → Option (Nat × Exc)
  | some (x, c), some (y, d) => let (v, k) := addFmt f r x y; some (v, c ||| d ||| k)
  | some (x, c), none => let (v, k) := quiet f x; some (v, c ||| k)
  | none, some (y, d) => let (v, k) := quiet f y; some (v, d ||| k)
  | none, none => none

/-- The tree of R173 over the 2^k leaves from lo. -/
def sumTree (f : Fmt) (r : Rounding) (leaf : Nat → Option Nat) : Nat → Nat → Option (Nat × Exc)
  | 0, lo => (leaf lo).map fun v => (v, 0)
  | k + 1, lo => joinNode f r (sumTree f r leaf k lo) (sumTree f r leaf k (lo + 2 ^ k))

/-- The rounding of inner nodes. -/
def Rounding.inner (r : Rounding) : Rounding := if r.mode = .sr then { mode := .rne, sat := r.sat } else r

/-- The sum of R173 over vl leaves: only the root rounds stochastically. -/
def sumOf (f : Fmt) (r : Rounding) (leaf : Nat → Option Nat) (vl : Nat) : Option (Nat × Exc) :=
  let k := if vl ≤ 1 then 0 else (vl - 1).log2 + 1
  match k with
  | 0 => (leaf 0).map (quiet f)
  | j + 1 => joinNode f r (sumTree f r.inner leaf j 0) (sumTree f r.inner leaf j (2 ^ j))

/-- VRSUM. -/
def VArgs.rsum (g : VArgs) (f : Fmt) (a d : BitVec 5) : VOut :=
  let act := g.ranks
  let leaf := fun e => if e < g.vl ∧ g.active e then some (g.src a.toNat f.width e).1 else none
  let t := act.any fun (e, _) => (g.src a.toNat f.width e).2
  let (v, c) := (sumOf f (g.rnd 0) leaf g.vl).getD (0, 0)
  if g.vl = 0 then {} else { writes := [(d.toNat, f.width, [(0, v, t)])], flags := c, draws := if act.isEmpty then 0 else 1 }

/-- The neutral element of VRMAX and VRMIN. -/
def extreme (f : Fmt) (max : Bool) : Nat :=
  if f.isFloat then (deliverInf f rne max).1 else encodeInt f (if max then minInt f else maxInt f)

/-- The larger or smaller of two values that are not NaNs. -/
def pick (f : Fmt) (max : Bool) (x y : Nat) : Nat :=
  if f.isFloat then (fMinMax max f x y).1
  else if max then (if decodeInt f x < decodeInt f y then y else x) else (if decodeInt f y < decodeInt f x then y else x)

/-- VRMAX and VRMIN. -/
def VArgs.rext (g : VArgs) (f : Fmt) (max : Bool) (a d : BitVec 5) : VOut :=
  let xs := g.ranks.map fun (e, _) => g.src a.toNat f.width e
  let vs := xs.map Prod.fst
  let nan := fun x => f.isFloat && (decodeFloat f x).isNan
  let good := vs.filter fun x => !nan x
  let v := match good with
    | [] => if vs.isEmpty then extreme f max else canonNan f
    | x :: ys => ys.foldl (pick f max) x
  if g.vl = 0 then {}
  else { writes := [(d.toNat, f.width, [(0, v, xs.any Prod.snd)])],
         flags := if f.isFloat ∧ vs.any (fun x => (decodeFloat f x).isSnan) then xNV else 0 }

/-- The running sums of VSCAN: so far the sum, its taint and what has been written. -/
def scanGo (f : Fmt) (rnd : Nat → Rounding) (src : Nat → Nat × Bool) :
    List (Nat × Nat) → Option (Nat × Bool) → Elems × Exc
  | [], _ => ([], 0)
  | (e, k) :: es, acc =>
    let (x, t) := src e
    let (v, t', c) := match acc with
      | none => let (v, c) := quiet f x; (v, t, c)
      | some (s, ts) => let (v, c) := addFmt f (rnd k) s x; (v, ts || t, c)
    let (out, c') := scanGo f rnd src es (some (v, t'))
    ((e, v, t') :: out, c ||| c')

/-- VSCAN. -/
def VArgs.scan (g : VArgs) (f : Fmt) (a d : BitVec 5) : VOut :=
  let (es, c) := scanGo f g.rnd (g.src a.toNat f.width) g.ranks none
  { writes := [(d.toNat, f.width, es)], flags := c, draws := g.ranks.length }

/-! The bits of an element (R202, R276). -/

def vclzOf (w v : Nat) : Nat := if v = 0 then w else w - 1 - v.log2
def vctzOf (w v : Nat) : Nat := ((List.range w).find? fun i => v.testBit i).getD w
def vpopOf (w v : Nat) : Nat := ((List.range w).filter fun i => v.testBit i).length

/-- The result of a VOP or VFX instruction (R269 to R277). -/
def vresult (g : VArgs) (i : Instr) : VOut :=
  match i with
  | .vadd u _ b a w d => g.intZ u (iBits w) b a d (· + ·)
  | .vsub u _ b a w d => g.intZ u (iBits w) b a d (· - ·)
  | .vmul u _ b a w d => g.intZ u (iBits w) b a d (· * ·)
  | .vmulh u _ b a w d => g.intZ u (iBits w) b a d fun x y => x * y / 2 ^ (iBits w)
  | .vmin u _ b a w d => g.intZ u (iBits w) b a d min
  | .vmax u _ b a w d => g.intZ u (iBits w) b a d max
  | .vand _ _ b a w d => g.int2 (iBits w) b a d (· &&& ·)
  | .vor _ _ b a w d => g.int2 (iBits w) b a d (· ||| ·)
  | .vxor _ _ b a w d => g.int2 (iBits w) b a d (· ^^^ ·)
  | .vshl _ _ b a w d => g.int2 (iBits w) b a d fun x y => x * 2 ^ (y % (iBits w))
  | .vshr u _ b a w d => g.int2 (iBits w) b a d fun x y => wrapInt (iBits w) (intOf u (iBits w) x / 2 ^ (y % (iBits w)))
  | .vadds u _ b a w d => g.int2 (iBits w) b a d fun x y => clampInt u (iBits w) (intOf u (iBits w) x + intOf u (iBits w) y)
  | .vsubs u _ b a w d => g.int2 (iBits w) b a d fun x y => clampInt u (iBits w) (intOf u (iBits w) x - intOf u (iBits w) y)
  | .vcmpeq u _ b a w d => g.intCmp u (iBits w) b a d fun x y => x == y
  | .vcmplt u _ b a w d => g.intCmp u (iBits w) b a d fun x y => x < y
  | .vcmple u _ b a w d => g.intCmp u (iBits w) b a d fun x y => x ≤ y
  | .vfadd t _ b a d => g.float (vfFmt t) [a, b] d fun x m => fAdd (m = .rdn) (x 0) (x 1)
  | .vfsub t _ b a d => g.float (vfFmt t) [a, b] d fun x m => fAdd (m = .rdn) (x 0) (x 1).neg
  | .vfmul t _ b a d => g.float (vfFmt t) [a, b] d fun x _ => fMul (x 0) (x 1)
  | .vfdiv t _ b a d => g.float (vfFmt t) [a, b] d fun x _ => fDiv (x 0) (x 1)
  | .vfmin t _ b a d => g.float2 (vfFmt t) b a d (fMinMax false (vfFmt t))
  | .vfmax t _ b a d => g.float2 (vfFmt t) b a d (fMinMax true (vfFmt t))
  | .vfma t _ b a d => g.float (vfFmt t) [a, b, d] d fun x m => fFma (m = .rdn) (x 0) (x 1) (x 2)
  | .vfnma t _ b a d => g.float (vfFmt t) [a, b, d] d fun x m => fFma (m = .rdn) (x 0).neg (x 1) (x 2)
  | .vfsqrt t _ a d => g.float (vfFmt t) [a] d fun x _ => fSqrt (x 0)
  | .vfsgnj t _ b a d => g.float2 (vfFmt t) b a d (signPut (vfFmt t) fun _ y => y)
  | .vfsgnjn t _ b a d => g.float2 (vfFmt t) b a d (signPut (vfFmt t) fun _ y => !y)
  | .vfsgnjx t _ b a d => g.float2 (vfFmt t) b a d (signPut (vfFmt t) fun x y => x != y)
  | .vfcmpun t _ b a d => g.floatCmp (vfFmt t) b a d true false fun _ _ => false
  | .vfcmpeq t _ b a d => g.floatCmp (vfFmt t) b a d false false fEqual
  | .vfcmplt t _ b a d => g.floatCmp (vfFmt t) b a d false true fLess
  | .vfcmple t _ b a d => g.floatCmp (vfFmt t) b a d false true fun x y => !fLess y x
  | .vcvtF _ b a w d => g.cvt (g.fa.getD (cvtFloat w)) (g.fd.getD b) w.bits a d
  | .vcvtI _ b a w d => g.cvt (g.fa.getD (cvtInt w)) (g.fd.getD b) w.bits a d
  | .vqnt32 _ b a d => g.qnt b 32 a d
  | .vqnt128 _ b a d => g.qnt b 128 a d
  | .vqnt256 _ b a d => g.qnt b 256 a d
  | .vdqnt32 _ b a d => g.dqnt b 32 a d
  | .vdqnt128 _ b a d => g.dqnt b 128 a d
  | .vdqnt256 _ b a d => g.dqnt b 256 a d
  | .vexp2 _ a w d => g.float (g.fa.getD (specialFmt w)) [a] d fun x _ => fExp2 (x 0)
  | .vlog2 _ a w d => g.float (g.fa.getD (specialFmt w)) [a] d fun x _ => fLog2 (x 0)
  | .vrcp _ a w d => g.float (g.fa.getD (specialFmt w)) [a] d fun x _ => fRcp (x 0)
  | .vrsqrt _ a w d => g.float (g.fa.getD (specialFmt w)) [a] d fun x _ => fRsqrt (x 0)
  | .vclz _ a w d => g.bits1 (cBits w) a d (vclzOf (cBits w))
  | .vctz _ a w d => g.bits1 (cBits w) a d (vctzOf (cBits w))
  | .vffs _ a w d => g.bits1 (cBits w) a d fun v => if v = 0 then 0 else vctzOf (cBits w) v + 1
  | .vpopc _ a w d => g.bits1 (cBits w) a d (vpopOf (cBits w))
  | .vbcast _ _ w d => g.each d.toNat w.bits fun _ _ => (g.xa.toNat, g.xat, 0)
  | .vext _ _ a w _ =>
    let e := g.xb.toNat
    { scalar := some (if e < g.vl then let (v, t) := g.src a.toNat (iBits w) e; (BitVec.ofNat 64 v, t) else (0, false)) }
  | .vins _ _ _ w d =>
    if g.xb.toNat < g.vl then { writes := [(d.toNat, (iBits w), [(g.xb.toNat, g.xa.toNat, g.xat)])] } else {}
  | .vperm _ b a w d =>
    g.each d.toNat (iBits w) fun e _ =>
      let j := (g.src b.toNat (iBits w) e).1
      if j < g.vl then let (v, t) := g.src a.toNat (iBits w) j; (v, t, 0) else (0, false, 0)
  | .vslup _ _ a w d =>
    let r := g.each d.toNat w.bits fun e _ => let (v, t) := g.src a.toNat w.bits (e - g.xb.toNat); (v, t, 0)
    { r with writes := r.writes.map fun (d, w, es) => (d, w, es.filter fun (e, _, _) => decide (g.xb.toNat ≤ e)) }
  | .vsldn _ _ a w d =>
    g.each d.toNat w.bits fun e _ =>
      if e + g.xb.toNat < g.vl then let (v, t) := g.src a.toNat w.bits (e + g.xb.toNat); (v, t, 0) else (0, false, 0)
  | .viota _ w d => g.each d.toNat (iBits w) fun e _ => (e, false, 0)
  | .vmv _ a w d => g.bits1 w.bits a d id
  | .vrsum _ b a _ d => g.rsum b a d
  | .vrmax _ b a _ d => g.rext b true a d
  | .vrmin _ b a _ d => g.rext b false a d
  | .vscan _ b a _ d => g.scan b a d
  | _ => {}

end Sys2Proof.Machine
end

