-- ==== Sys2Proof/Machine/Matrix.lean ====
section
/-! DEFINITION. Matrix queues, bindings and instructions (R280 to R301): enqueue with its checks, the cycles of R300, and the results
at completion (R170 to R173, R293 to R297). -/

namespace Sys2Proof.Machine

/-! Geometry (R284 to R288). -/

/-- The depth K of one multiplication, by class. -/
def mDepth : MClass → Nat
  | .w => 16 | .h => 64 | .e => 128 | .q6 => 256 | .q4 => 256

/-- A matrix format as a format of R149. -/
def mFmt (f : MFmt) : Fmt := (Fmt.ofCode f.code).getD .f32

/-- Bytes of a vector of A or B, and of a row of an accumulator image. -/
def mVecBytes (f : MFmt) : Nat := mDepth f.cls * (mFmt f).width / 8
def mRowBytes (f : MFmt) : Nat := 64 * (mFmt f).width / 8

/-- One class, Q6 and Q4 being class Q. -/
def mSameClass (f g : MFmt) : Bool := f.cls == g.cls || ((f.cls == .q6 || f.cls == .q4) && (g.cls == .q6 || g.cls == .q4))

/-- A class uses scales. -/
def mScaled (f : MFmt) : Bool := match f.cls with | .w | .h => false | .e | .q6 | .q4 => true

/-- The fields of an operand descriptor (R285); PITCH 0 is the packed size. -/
def dData (d : Word) : Nat := fieldAt d 0 18
def dScale (d : Word) : Nat := fieldAt d 20 18
def dPitch (d : Word) (size : Nat) : Nat := if fieldAt d 40 16 = 0 then size else fieldAt d 40 16

/-- DATA and PITCH of an operand of 64 vectors of a size are aligned (R286, R291). -/
def dAligned (d : Word) (f : MFmt) (size : Nat) : Bool :=
  let p := fieldAt d 40 16
  dData d % 64 == 0 && (p == 0 || (decide (size ≤ p) && p % 16 == 0 && (f.cls != .q6 || p % 3 == 0)))

/-- The address that a failing check of an operand's alignment concerns: DATA for itself and PITCH, else SCALE where it is in use (log 71). -/
def dAskew (d : Word) (f : MFmt) (size : Nat) (scaled : Bool) : Option Nat :=
  if !dAligned d f size then some (dData d) else if scaled && dScale d % 64 != 0 then some (dScale d) else none

/-- The bytes of 64 vectors, from the first to the last. -/
def dRange (d : Word) (size : Nat) : Nat × Nat := (dData d, 63 * dPitch d size + size)

/-- The bytes of the scales of A and of B. -/
def aScaleBytes (f : MFmt) : Nat := if f.cls = .e then 256 else 64
def bScaleBytes (f : MFmt) : Nat := if f.cls = .e then 4 else 64

/-! What an entry does. -/

/-- The kinds of an entry. -/
inductive MxKind where
  | mul (z chained : Bool) (a : BitVec 5) | zero | ld | st (scaled : Bool) | add (j : Nat) | tr (j : Nat) | rel
  deriving DecidableEq, Repr

/-- The kind of a matrix instruction with its accumulator. -/
def mxKind : Instr → MxKind × Nat
  | .mxmul s _ a _ c _ => (.mul false s a, c.toNat)
  | .mxmulz s _ a _ c _ => (.mul true s a, c.toNat)
  | .mxzero _ c => (.zero, c.toNat)
  | .mxld _ _ c _ => (.ld, c.toNat)
  | .mxst s _ _ c _ => (.st s, c.toNat)
  | .mxadd j _ c => (.add j.toNat, c.toNat)
  | .mxtr j _ c => (.tr j.toNat, c.toNat)
  | _ => (.rel, 0)

/-- rd and wr of R300. -/
def MxEntry.rd (e : MxEntry) : Nat :=
  match (mxKind e.ins).1 with
  | .mul _ c _ => (64 * ((if c then 0 else mVecBytes e.fa) + mVecBytes e.fb) + 127) / 128
  | .ld => (64 * mRowBytes e.fa + 127) / 128
  | _ => 0
def MxEntry.wr (e : MxEntry) : Nat :=
  match (mxKind e.ins).1 with
  | .st _ => (64 * mRowBytes e.fa + 127) / 128
  | _ => 0

/-- The local-store ranges an entry reads. -/
def MxEntry.readRanges (e : MxEntry) : List (Nat × Nat) :=
  match (mxKind e.ins).1 with
  | .mul _ c _ =>
    (if c then [] else dRange e.da (mVecBytes e.fa) :: (if mScaled e.fa then [(dScale e.da, aScaleBytes e.fa)] else [])) ++
      dRange e.db (mVecBytes e.fb) :: (if mScaled e.fb then [(dScale e.db, bScaleBytes e.fb)] else [])
  | .ld => [dRange e.da (mRowBytes e.fa)]
  | _ => []

/-! Queues (R280 to R282). -/

def Facet.mq (x : Facet) (q : Bool) : MQueue := if q then x.mq1 else x.mq0
def Facet.setMq (x : Facet) (q : Bool) (m : MQueue) : Facet := if q then { x with mq1 := m } else { x with mq0 := m }

/-- A queue that holds an entry and is not bound waits, from this tick on. -/
def State.mxWaits (s : State) (f : Nat) (q : Bool) : State :=
  let m := (s.facet f).mq q
  let head := match m.entries with | e :: _ => (mxKind e.ins).1 != .rel | [] => false
  if m.bind.isNone && head then
    (s.modFacet f fun x => x.setMq q { m with waiting := some (m.waiting.getD s.tick) }).pushDue (.queueBinding (prismOf f))
  else s.modFacet f fun x => x.setMq q { m with waiting := none }

/-- A facet holds a tile task of a context, or a slot that is about to start its next one (R54). -/
def Facet.holdsCtx (x : Facet) (c : Nat) : Bool := x.slots.any fun (_, sl) => (sl.heldFor.map Prod.fst) == some c

/-- An engine of a prism has become free: a waiting queue of any of its facets may take it (R281). -/
def State.engineFreed (s : State) (p : Nat) : State :=
  if (List.range 8).any fun i => let x := s.facet (p * 8 + i); x.mq0.waiting.isSome || x.mq1.waiting.isSome then
    s.pushDue (.queueBinding p) else s

/-- A binding ends when the facet holds no task of its context and the queue no entry of it (R282). -/
def State.endBinding (s : State) (f : Nat) (q : Bool) : State :=
  let x := s.facet f
  let m := x.mq q
  match m.bind with
  | some b =>
    if x.holdsCtx b.ctx || m.entries.any (·.ctx == b.ctx) then s
    else ((s.setFacet f (x.setMq q { m with bind := none })).mxWaits f q).engineFreed (prismOf f)
  | none => s
def State.endBindings (s : State) (f : Nat) : State := ((s.endBinding f false).endBinding f true).engineFreed (prismOf f)

/-- The engines of a prism that are bound. -/
def State.enginesUsed (s : State) (p : Nat) : List Nat :=
  (List.range 8).flatMap fun i =>
    let x := s.facet (p * 8 + i)
    [x.mq0, x.mq1].filterMap fun m => m.bind.map (·.engine)

/-- The waiting queues of a prism: tick, facet, queue. -/
def State.mxWaiting (s : State) (p : Nat) : List (Nat × Nat × Bool) :=
  (List.range 8).flatMap fun i =>
    [false, true].filterMap fun q => (((s.facet (p * 8 + i)).mq q).waiting).map fun t => (t, p * 8 + i, q)

/-- QUEUE_BINDING: the queue that has waited longest takes a free engine; its accumulators are +0 (R281). -/
def State.bindQueue (s : State) (p : Nat) : State :=
  let best := (s.mxWaiting p).foldl (fun b w => match b with
    | none => some w
    | some (u : Nat × Nat × Bool) => if w.1 < u.1 then some w else b) none
  match best, (List.range 4).find? fun e => !(s.enginesUsed p).contains e with
  | some (_, f, q), some e =>
    let m := (s.facet f).mq q
    let c := match m.entries with | x :: _ => x.ctx | [] => 0
    let s := s.modFacet f fun x =>
      x.setMq q { m with bind := some { engine := e, ctx := c }, waiting := none, boundAt := x.cyc }
    if (s.mxWaiting p).isEmpty then s else s.pushDue (.queueBinding p)
  | _, _ => s

/-- QUEUE_BINDING, R281. -/
def execQueueBinding (p : Nat) (σ : State) : Out := .next ((σ.done (.queueBinding p)).bindQueue p)

/-- The unread entries of a slot leave their queues (R292, R358). -/
def State.dropMx (s : State) (f n : Nat) : State :=
  [false, true].foldl
    (fun s q =>
      let m := (s.facet f).mq q
      let gone := fun (e : MxEntry) => e.slot == n && e.stage == .queued
      let s := s.modFacet f fun x => x.setMq q { m with entries := m.entries.filter fun e => !gone e }
      let s := s.modCnt (.slot f n) fun c => { c with mx := c.mx - (m.entries.filter gone).length }
      s.mxWaits f q) s

/-! Enqueue (R289 to R292). -/

/-- A matrix instruction enters its queue and joins MX; rctr advances by what it will round (R162), and it retires. -/
def mxEnter (σ : State) (t : Thread) (q : Bool) (e : MxEntry) (rounds : Nat) : Out :=
  onSlot σ fun f n sl =>
    let m := (σ.facet f).mq q
    let sr := e.rm == .sr && rounds != 0
    if 16 ≤ m.entries.length then stall σ clQFULL
    else if 63 ≤ sl.cnt.mx then stall σ clQFULL
    else if sr ∧ σ.drawsPending σ.turn then stall σ clVSEQ
    else
      let σ := (({ σ with nextId := σ.nextId + 1 }).modFacet f fun x => x.setMq q { m with entries := m.entries ++ [e] }).mxWaits f q
      let σ := σ.modCnt (.slot f n) Counts.addMx
      retire σ (if sr then { t with rctr := t.rctr + BitVec.ofNat 64 rounds } else t)

/-- An entry as it is at its enqueue. -/
def mxEntry (σ : State) (n : Nat) (sl : Slot) (t : Thread) (i : Instr) (fa fb : MFmt) (da db : Word) : MxEntry :=
  let o := sl.owner.getD (0, 0)
  let cyc := match σ.turn with | .slot f _ => (σ.facet f).cyc | _ => 0
  { id := σ.nextId, slot := n, ctx := o.1, seq := o.2, ins := i, pc := t.pc, fa := fa, fb := fb, rm := t.mode, sat := t.saturates,
    key := t.rkey, ctr := t.rctr, da := da, db := db, enq := cyc }

/-- A matrix format that a prefix names, of the class of the instruction's. -/
def mPrefix (f : MFmt) (p : Option Fmt) : Option MFmt :=
  match p with
  | none => some f
  | some g => match MFmt.ofCode g.code with
    | some h => if mSameClass f h then some h else none
    | none => none

/-- Steps 2 and 3 of R291: the first address that is not aligned, then the first range that is not in the slot's allocation; watchpoints are
checked at the enqueue (R413). -/
def mxChecked (σ : State) (sl : Slot) (askew : Option Nat) (ranges : List (Nat × Nat)) (wr : Bool) (k : State → Out) : Out :=
  onSlot σ fun f _ _ =>
    match askew, ranges.find? (fun (a, n) => !sl.holdsRange a n) with
    | some a, _ => faultOut σ cALIGN (BitVec.ofNat 64 a)
    | none, some (a, _) => faultOut σ cLSRANGE (BitVec.ofNat 64 a)
    | none, none => watched σ (ranges.map fun (a, n) => { local' := true, facet := f, base := a, len := n, rd := !wr, wr := wr }) k

/-- The issue of a matrix instruction: decode refuses a prefix whose formats it does not take (R290). -/
def mxIssue (σ : State) (pre : Bool) (reads : List (BitVec 5)) (k : Nat → Slot → Thread → Out) (takes : Bool := true) : Out :=
  issue σ { core := false, handler := false, prefixed := pre, refuse := if takes then none else some cILLEGAL, reads := reads } fun t =>
    onSlot σ fun _ n sl => k n sl t

/-- MXMUL and MXMULZ (R290, R291, R294). -/
def mxMultiply (σ : State) (i : Instr) (s : Bool) (b a : BitVec 5) (q : Bool) (f : MFmt) : Out :=
  let p := (σ.thread σ.turn).pre
  let takes := (mPrefix f p.fa).isSome && (mPrefix f p.fb).isSome && p.fd.isNone
  let go := fun (n : Nat) (sl : Slot) (t : Thread) =>
    let fa := (mPrefix f p.fa).getD f
    let fb := (mPrefix f p.fb).getD f
    let da := if s then 0 else t.rx a
    let db := t.rx b
    let e := mxEntry σ n sl t i fa fb da db
    let askew := (if s then none else dAskew da fa (mVecBytes fa) (mScaled fa)).orElse fun _ => dAskew db fb (mVecBytes fb) (mScaled fb)
    mxChecked σ sl askew e.readRanges false fun σ => mxEnter σ t q e (if s ∧ f.cls ≠ .w then 64 * mDepth f.cls else 0)
  mxIssue σ true (if s then [b] else [a, b]) go takes

/-- MXMUL, R293. -/
def execMxmul (s : Bool) (b a : BitVec 5) (q : Bool) (c : BitVec 3) (f : MFmt) (σ : State) : Out :=
  mxMultiply σ (.mxmul s b a q c f) s b a q f
/-- MXMULZ, R293. -/
def execMxmulz (s : Bool) (b a : BitVec 5) (q : Bool) (c : BitVec 3) (f : MFmt) (σ : State) : Out :=
  mxMultiply σ (.mxmulz s b a q c f) s b a q f
/-- MXZERO, R296. -/
def execMxzero (q : Bool) (c : BitVec 3) (σ : State) : Out :=
  mxIssue σ false [] fun n sl t => mxEnter σ t q (mxEntry σ n sl t (.mxzero q c) .f32 .f32 0 0) 0
/-- MXLD, R296. -/
def execMxld (a : BitVec 5) (q : Bool) (c : BitVec 3) (f : MFmt) (σ : State) : Out :=
  mxIssue σ false [a] fun n sl t =>
    mxChecked σ sl (dAskew (t.rx a) f (mRowBytes f) false) [dRange (t.rx a) (mRowBytes f)] false fun σ =>
      mxEnter σ t q (mxEntry σ n sl t (.mxld a q c f) f f (t.rx a) 0) 0

/-- MXST, R296. -/
def execMxst (s : Bool) (a : BitVec 5) (q : Bool) (c : BitVec 3) (f : MFmt) (σ : State) : Out :=
  let p := (σ.thread σ.turn).pre
  let go := fun (n : Nat) (sl : Slot) (t : Thread) =>
    let d := t.rx a
    mxChecked σ sl (dAskew d f (mRowBytes f) s) (dRange d (mRowBytes f) :: (if s then [(dScale d, aScaleBytes f)] else [])) true fun σ =>
      mxEnter σ t q (mxEntry σ n sl t (.mxst s a q c f) f f d 0) 4096
  mxIssue σ true [a] go (p.fa.isNone && p.fb.isNone && p.fd.isNone)

/-- MXADD, R296. -/
def execMxadd (j : BitVec 3) (q : Bool) (c : BitVec 3) (σ : State) : Out :=
  mxIssue σ false [] fun n sl t => mxEnter σ t q (mxEntry σ n sl t (.mxadd j q c) .f32 .f32 0 0) 0
/-- MXTR, R296. -/
def execMxtr (j : BitVec 3) (q : Bool) (c : BitVec 3) (σ : State) : Out :=
  mxIssue σ false [] fun n sl t => mxEnter σ t q (mxEntry σ n sl t (.mxtr j q c) .f32 .f32 0 0) 0
/-- MXREL, R298. -/
def execMxrel (q : Bool) (σ : State) : Out :=
  mxIssue σ false [] fun n sl t =>
    match mxEnter σ t q (mxEntry σ n sl t (.mxrel q) .f32 .f32 0 0) 0, σ.turn with
    | .next σ, .slot f _ => .next (σ.pushDue (.matrixCompletion f q))
    | o, _ => o

/-- The operations of the vector sequencer that have not completed with all their writes to registers and local store (R299). -/
def Facet.seqPending (x : Facet) : List Nat :=
  x.seqQ.flatMap (fun i => i.body.map (·.id)) ++ x.inflight.map (·.id) ++ x.streams.flatMap fun kt => kt.2.owed.map Prod.fst

/-- The copies of a slot that have not completed; one with a mailbox target has when its message has entered the mailbox (R102, R299). -/
def State.copiesPending (s : State) (f n : Nat) : List Nat :=
  (s.copies.filter fun (kc : Nat × Copy) => kc.2.f == f && kc.2.n == n).map Prod.fst ++
    (s.flights.filter fun (kw : Nat × Flight) => kw.2.copy == some (f, n) && !kw.2.entered).map Prod.fst

/-- The exceptions of matrix operations of the queues that a mask names, which an MXFENCE shows in rnd (R156). -/
def Slot.showMx (sl : Slot) (m : BitVec 4) : Slot :=
  let x := (if m.getLsbD 0 then sl.mxf0 else 0) ||| (if m.getLsbD 1 then sl.mxf1 else 0)
  { sl with th := { sl.th with rnd := rndOr sl.th.rnd x }, mxf0 := if m.getLsbD 0 then 0 else sl.mxf0,
            mxf1 := if m.getLsbD 1 then 0 else sl.mxf1, mxNow0 := if m.getLsbD 0 then 0 else sl.mxNow0,
            mxNow1 := if m.getLsbD 1 then 0 else sl.mxNow1 }

/-- MXFENCE, R299. -/
def execMxfence (m : BitVec 4) (σ : State) : Out :=
  mxIssue σ false [] fun n sl _ =>
    match σ.turn with
    | .slot f _ =>
      let x : Facet := σ.facet f
      let named : List Nat :=
        (if m.getLsbD 0 then x.mq0.entries.map (·.id) else []) ++ (if m.getLsbD 1 then x.mq1.entries.map (·.id) else []) ++
          (if m.getLsbD 2 then σ.copiesPending f n else []) ++ (if m.getLsbD 3 then x.seqPending else [])
      let ids : List Nat := (match sl.park with | some p => p.fence | none => none).getD named
      if ids.any named.contains then
        stall (σ.modSlot f n fun x => { x with park := some { kind := .mxfence, fence := some ids } }) clCOUNT
      else
        let σ := σ.modSlot f n fun x => x.showMx m
        retire σ (σ.thread σ.turn)
    | _ => faultOut σ cILLEGAL

/-! Operands read (R286 to R288, R300). -/

/-- Bytes of 64 vectors, packed, and the taint of each vector. -/
def Facet.readVectors (x : Facet) (d : Word) (size : Nat) : List Byte × List Bool :=
  let p := dPitch d size
  ((List.range 64).flatMap fun i => x.lsBytes (dData d + i * p) size, (List.range 64).map fun i => x.lsTaint (dData d + i * p) size)

/-- Scales with the taint of each. -/
def Facet.readScales (x : Facet) (a n k : Nat) : List Byte × List Bool :=
  (x.lsBytes a (n * k), (List.range n).map fun i => x.lsTaint (a + i * k) k)

/-- The operands of an entry as local store holds them now. -/
def MxEntry.load (e : MxEntry) (x : Facet) : MxEntry :=
  match (mxKind e.ins).1 with
  | .mul _ c _ =>
    let (a, at') := if c then ([], []) else x.readVectors e.da (mVecBytes e.fa)
    let (b, bt) := x.readVectors e.db (mVecBytes e.fb)
    let (sa, sat) := if c || !mScaled e.fa then ([], []) else x.readScales (dScale e.da) 64 (aScaleBytes e.fa / 64)
    let (sb, sbt) := if !mScaled e.fb then ([], []) else
      (if e.fb.cls = .e then x.readScales (dScale e.db) 1 4 else x.readScales (dScale e.db) 64 1)
    { e with aBytes := a, aTaint := at', bBytes := b, bTaint := bt, aScale := sa, asTaint := sat, bScale := sb, bsTaint := sbt }
  | .ld =>
    let size := mRowBytes e.fa
    let w := (mFmt e.fa).width
    let p := dPitch e.da size
    { e with aBytes := (x.readVectors e.da size).1,
             aTaint := (List.range 64).flatMap fun r => (List.range 64).map fun c =>
               x.lsTaint (dData e.da + r * p + w * c / 8) ((w * c % 8 + w + 7) / 8) }
  | _ => e

/-- The engine port is not in use by the other queue (R300): a use that begins in this cycle leaves it to mq0. -/
def Facet.portFree (x : Facet) (q : Bool) : Bool :=
  let past := fun (b n : Nat) => decide (b + n ≤ x.cyc) || (b == x.cyc && !q)
  ((x.mq !q).entries).all fun e =>
    (match e.stage with
      | .queued => true
      | .reading => past e.readAt e.rd
      | .computing => past e.readAt e.rd && past e.compAt e.wr)

/-- An engine-port read of an entry is stalled by the scoreboard, but for copies that recorded the entry (R100, R135). -/
def State.mxCovered (s : State) (f : Nat) (e : MxEntry) : Bool :=
  e.readRanges.any fun (a, k) => (s.facet f).sb.any fun b =>
    overlaps b.laddr b.len a k && !b.dir && !((kfind b.op s.copies).map (·.ahead.contains e.id)).getD false

/-- The entry of a queue whose reads come next: every earlier one is computing. -/
def MQueue.nextRead (m : MQueue) : Option MxEntry :=
  match m.entries.find? fun e => e.stage != .computing with
  | some e => if e.stage = .queued ∧ (mxKind e.ins).1 ≠ .rel then some e else none
  | none => none

/-- The local-store ranges that an entry writes. -/
def MxEntry.writeRanges (e : MxEntry) : List (Nat × Nat) :=
  match (mxKind e.ins).1 with
  | .st s => dRange e.da (mRowBytes e.fa) :: (if s then [(dScale e.da, aScaleBytes e.fa)] else [])
  | _ => []

/-- An MXST before an entry in its queue still has to write what the entry reads (R134). -/
def MQueue.unwritten (m : MQueue) (e : MxEntry) : Bool :=
  (m.entries.takeWhile fun o => o.id != e.id).any fun o =>
    o.writeRanges.any fun (a, k) => e.readRanges.any fun (b, j) => overlaps a k b j

/-- MATRIX_READS_BEGIN (R300): all of an entry's operands are read in this one step (log 51), after what entries before it write there
(R134, log 54). -/
def State.mxRead (s : State) (f : Nat) (q : Bool) : State :=
  let x := s.facet f
  let m := x.mq q
  match m.nextRead, m.bind with
  | some e, some b =>
    if b.ctx ≠ e.ctx ∨ x.cyc < e.enq + 4 ∨ x.cyc < m.boundAt + 4 ∨ !x.portFree q ∨ s.mxCovered f e ∨ m.unwritten e then s
    else
      let e' := { e.load x with stage := .reading, readAt := x.cyc }
      let s := s.setFacet f (x.setMq q { m with entries := modFirst (fun (y : MxEntry) => y.id == e.id) (fun _ => e') m.entries })
      if e.rd = 0 then s.pushDue (.matrixComputeBegin f q) else s
  | _, _ => s

/-- MATRIX_READS_BEGIN, R300. -/
def execMatrixReadsBegin (f : Nat) (q : Bool) (σ : State) : Out := .next ((σ.done (.matrixReadsBegin f q)).mxRead f q)

/-- MATRIX_COMPUTE_BEGIN (R300): the head of the queue, its operands read. -/
def State.mxCompute (s : State) (f : Nat) (q : Bool) : State :=
  let x := s.facet f
  let m := x.mq q
  match m.entries with
  | e :: rest =>
    let chained : Bool := match (mxKind e.ins).1 with | .mul _ c _ => c | _ => false
    if e.stage ≠ .reading ∨ x.cyc < e.readAt + e.rd ∨ (chained ∧ x.cyc < m.lastDone + 16) then s
    else (s.setFacet f (x.setMq q { m with entries := { e with stage := .computing, compAt := x.cyc } :: rest })).pushDue
      (.matrixReadsBegin f q)
  | [] => s

/-- MATRIX_COMPUTE_BEGIN, R300. -/
def execMatrixComputeBegin (f : Nat) (q : Bool) (σ : State) : Out :=
  .next ((σ.done (.matrixComputeBegin f q)).mxCompute f q)

/-! Results (R170 to R173, R293 to R297). -/

/-- The elements of an accumulator, row by row, and an accumulator from them. -/
def Acc.elems (a : Acc) : List (Nat × Bool) :=
  (List.range 4096).map fun i => ((a.bits.extractLsb' (32 * i) 32).toNat, a.taint.getLsbD i)
def accOf (l : List (Nat × Bool)) : Acc :=
  { bits := BitVec.ofNat 131072 (l.foldr (fun (v, _) r => v + 2 ^ 32 * r) 0),
    taint := BitVec.ofNat 4096 (l.foldr (fun (_, t) r => t.toNat + 2 * r) 0) }

/-- FP32 values. -/
def f32 (v : Nat) : FVal := decodeFloat .f32 v
/-- Rounded RNE to FP32. -/
def toF32 (r : FRes) : Nat × Exc := deliver .f32 rne r

/-- Vector i of a packed block: its K elements as values. -/
def mVector (f : MFmt) (bytes : List Byte) (i : Nat) : List FVal :=
  let w := (mFmt f).width
  let v := ofBytes ((bytes.drop (i * mVecBytes f)).take (mVecBytes f))
  (List.range (mDepth f.cls)).map fun k =>
    let x := v / 2 ^ (w * k) % 2 ^ w
    if (mFmt f).isFloat then decodeFloat (mFmt f) x else ofInt (decodeInt (mFmt f) x)

/-- A product as a value: an invalid one is a signalling NaN. -/
def prodVal (x y : FVal) : FVal :=
  match fProd x y with
  | .nan nv => .nan nv false
  | .inf n => .inf n
  | .zero n => .zero n
  | .fin n m e => .fin n m e

/-- The balanced tree of R173 over exact products: each node is rounded RNE to FP32. -/
def treeH : Nat → List FVal → FVal × Exc
  | 0, l => ((l[0]?).getD (.zero false), 0)
  | k + 1, l =>
    let (x, a) := treeH k (l.take (2 ^ k))
    let (y, b) := treeH k (l.drop (2 ^ k))
    let (v, c) := toF32 (fAdd false x y)
    (f32 v, a ||| b ||| c)

/-- The exact sum of products of a scaled chunk (R171). -/
structure Chunk where
  nan : Bool := false
  pos : Bool := false
  neg : Bool := false
  s : Int := 0
  e : Int := 0

def Chunk.add (c : Chunk) (x y : FVal) : Chunk :=
  match fProd x y with
  | .nan _ => { c with nan := true }
  | .inf n => if n then { c with neg := true } else { c with pos := true }
  | .zero _ => c
  | .fin n m e => let e0 := min c.e e; { c with s := c.s * 2 ^ (c.e - e0).toNat + signedMant n m e e0, e := e0 }

/-- t of R171 from a chunk and two scales. -/
def chunkTerm (a b : List FVal) (sa sb : FVal) : Nat × Exc :=
  let c := (a.zip b).foldl (fun c (x, y) => c.add x y) ({} : Chunk)
  let (p, px) := toF32 (fMul sa sb)
  if c.nan ∨ (c.pos ∧ c.neg) ∨ sa.isNan ∨ sb.isNan ∨ (f32 p).isNan then (canonNan .f32, px ||| xNV)
  else
    let sum : FVal := if c.pos then .inf false else if c.neg then .inf true else
      if c.s = 0 then .zero false else .fin (c.s < 0) c.s.natAbs c.e
    let (t, tx) := toF32 (fMul sum (f32 p))
    (t, px ||| tx)

/-- One output element of a multiplication from its initial value (R293). -/
def mulElem (cls : MClass) (init : Nat) (a b : List FVal) (sa sb : FVal) : Nat × Exc :=
  match cls with
  | .w => (a.zip b).foldl (fun (acc : Nat × Exc) (x, y) => let (v, e) := toF32 (fFma false x y (f32 acc.1)); (v, acc.2 ||| e)) (init, 0)
  | .h =>
    let (t, e) := treeH 6 ((a.zip b).map fun (x, y) => prodVal x y)
    let (v, e') := toF32 (fAdd false (f32 init) t)
    (v, e ||| e')
  | .e | .q6 | .q4 =>
    let (t, e) := chunkTerm a b sa sb
    let (v, e') := toF32 (fAdd false (f32 init) (f32 t))
    (v, e ||| e')

/-- Row r of a chained A: its values, its scale, its taint and its exceptions (R172, R294). -/
def chainRow (e : MxEntry) (accs : Nat → Acc) (a : BitVec 5) (r : Nat) : List FVal × FVal × Bool × Exc :=
  let j := (a.extractLsb' 0 3).toNat
  let f := mFmt e.fa
  let get := fun (k : Nat) =>
    let (acc, col) := if e.fa.cls = .w then (j, 16 * (a.extractLsb' 3 2).toNat + k) else (j + k / 64, k % 64)
    let x := accs acc
    ((x.bits.extractLsb' (32 * (64 * r + col)) 32).toNat, x.taint.getLsbD (64 * r + col))
  let depth := mDepth e.fa.cls
  let src := (List.range depth).map get
  let t := src.any Prod.snd
  let vs := src.map fun (v, _) => f32 v
  let one : FVal := .fin false 1 0
  let rnd := fun (k : Nat) => ({ mode := e.rm, sat := e.sat, draw := draw e.key e.ctr (depth * r + k) } : Rounding)
  let back := fun (v : Nat) => if f.isFloat then decodeFloat f v else ofInt (decodeInt f v)
  match e.fa.cls with
  | .w => (vs, one, t, 0)
  | .h =>
    let out := vs.zipIdx.map fun (v, k) => deliver f (rnd k) (fCvt v)
    (out.map fun (v, _) => back v, one, t, out.foldl (fun x (_, y) => x ||| y) 0)
  | _ =>
    let k := scaleExp vs f
    let out := vs.zipIdx.map fun (v, i) => deliverAny f (rnd i) (v.scaleDown k)
    (out.map fun (v, _) => back v, .fin false 1 k, t, out.foldl (fun x (_, y) => x ||| y) 0)

/-- The scale of row or column i of an operand read from local store. -/
def readScale (f : MFmt) (bytes : List Byte) (i : Nat) : FVal :=
  match f.cls with
  | .w | .h => .fin false 1 0
  | .e => decodeFloat .f32 (ofBytes ((bytes.drop (4 * i)).take 4))
  | _ => decodeFloat .e8m0 ((bytes[i]?).getD 0).toNat

/-- A multiplication: the new accumulator and the exception set (R293 to R295). One that replaces its element takes over no taint from it
(log 58). -/
def MxEntry.multiply (e : MxEntry) (accs : Nat → Acc) (z chained : Bool) (a : BitVec 5) (d : Nat) : Acc × Exc :=
  let rows := (List.range 64).map fun r =>
    if chained then chainRow e accs a r
    else (mVector e.fa e.aBytes r, readScale e.fa e.aScale r, (e.aTaint[r]?).getD false || (e.asTaint[r]?).getD false, 0)
  let cols := (List.range 64).map fun c =>
    let i := if e.fb.cls = .e then 0 else c
    (mVector e.fb e.bBytes c, readScale e.fb e.bScale i, (e.bTaint[c]?).getD false || (e.bsTaint[i]?).getD false)
  let old := if z then List.replicate 4096 (0, false) else (accs d).elems
  let out := (rows.flatMap fun r => cols.map fun c => (r, c)).zipWith
    (fun (r, c) (o : Nat × Bool) =>
      let (v, x) := mulElem e.fa.cls o.1 r.1 c.1 r.2.1 c.2.1
      (v, o.2 || r.2.2.1 || c.2.2, x)) old
  (accOf (out.map fun (v, t, _) => (v, t)),
    out.foldl (fun x (_, _, y) => x ||| y) (rows.foldl (fun x r => x ||| r.2.2.2) 0))

/-- MXLD: the image converted to FP32 (R296). -/
def MxEntry.loadAcc (e : MxEntry) : Acc × Exc :=
  let f := mFmt e.fa
  let out := (List.range 4096).map fun i =>
    let row := (e.aBytes.drop (i / 64 * mRowBytes e.fa)).take (mRowBytes e.fa)
    let bit := f.width * (i % 64)
    let b := ofBytes ((row.drop (bit / 8)).take ((bit % 8 + f.width + 7) / 8)) / 2 ^ (bit % 8) % 2 ^ f.width
    let (v, x) := convert f .f32 rne b
    (v, (e.aTaint[i]?).getD false, x)
  (accOf (out.map fun (v, t, _) => (v, t)), out.foldl (fun x (_, _, y) => x ||| y) 0)

/-- The image of MXST by rows, its row scales, and the exceptions (R172, R296, R297). -/
def MxEntry.image (e : MxEntry) (acc : Acc) (scaled : Bool) : List (List (Nat × Bool)) × List (Nat × Bool) × Exc :=
  let f := mFmt e.fa
  let els := acc.elems
  let rows := (List.range 64).map fun r =>
    let row := (els.drop (64 * r)).take 64
    let k := if scaled then scaleExp (row.map fun (v, _) => f32 v) f else 0
    let out := row.zipIdx.map fun ((v, t), c) =>
      let rnd : Rounding := { mode := e.rm, sat := e.sat, draw := draw e.key e.ctr (64 * r + c) }
      let (b, x) := if scaled then deliverAny f rnd ((f32 v).scaleDown k) else convert .f32 f rnd v
      (b, t, x)
    (out.map fun (b, t, _) => (b, t), (scaleEnc f k, row.any Prod.snd), out.foldl (fun x (_, _, y) => x ||| y) 0)
  (rows.map fun r => r.1, rows.map fun r => r.2.1, rows.foldl (fun x r => x ||| r.2.2) 0)

/-- Packed elements of a row with taint written to local store. -/
def Facet.putRow (x : Facet) (a w : Nat) (row : List (Nat × Bool)) : Facet :=
  let v := row.foldr (fun (b, _) r => b % 2 ^ w + 2 ^ w * r) 0
  let n := w * row.length / 8
  x.enginePut a (toBytes n v) fun i =>
    row.zipIdx.any fun ((_, t), c) => t && decide (8 * a + w * c < 32 * i + 32) && decide (32 * i < 8 * a + w * c + w)

/-- The effect of an entry at its completion on the facet, with its exceptions; an MXST's image is written in this one step (log 51). -/
def MxEntry.finish (e : MxEntry) (x : Facet) (q : Bool) : Facet × Exc :=
  let m := x.mq q
  match m.bind with
  | none => (x, 0)
  | some b =>
    let accs := fun i => kget {} b.acc i
    let (k, d) := mxKind e.ins
    let put := fun (a : Acc) => x.setMq q { m with bind := some { b with acc := kset d a b.acc } }
    match k with
    | .mul z c a => let (r, fl) := e.multiply accs z c a d; (put r, fl)
    | .zero => (put {}, 0)
    | .ld => let (r, fl) := e.loadAcc; (put r, fl)
    | .st scaled =>
      let w := (mFmt e.fa).width
      let (rows, scales, fl) := e.image (accs d) scaled
      let p := dPitch e.da (mRowBytes e.fa)
      let x := rows.zipIdx.foldl (fun x (row, r) => x.putRow (dData e.da + r * p) w row) x
      (if scaled then x.putRow (dScale e.da) (if e.fa.cls = .e then 32 else 8) scales else x, fl)
    | .add j =>
      let out := ((accs d).elems).zipWith
        (fun (a, s) (b, t) => let (v, fl) := toF32 (fAdd false (f32 a) (f32 b)); (v, s || t, fl)) (accs j).elems
      (put (accOf (out.map fun (v, t, _) => (v, t))), out.foldl (fun x (_, _, y) => x ||| y) 0)
    | .tr j =>
      let src := (accs j).elems
      (put (accOf ((List.range 4096).map fun i => (src[64 * (i % 64) + i / 64]?).getD (0, false))), 0)
    | .rel => (x.setMq q { m with bind := none }, 0)

/-- The head entry of a queue may complete: an MXREL at once, another 128 cycles after its compute began, or wr (R298, R300). -/
def Facet.mxDone (x : Facet) (q : Bool) : Bool :=
  match (x.mq q).entries with
  | [] => false
  | e :: _ => (mxKind e.ins).1 == .rel || (e.stage == .computing && decide (e.compAt + max 128 e.wr ≤ x.cyc))

/-- MATRIX_COMPLETION (R156, R298, R300): the writes of the head entry are done, its flags reach its slot, where a CSR read sees them after
an MXFENCE that names the queue, and it leaves MX. -/
def State.mxComplete (s : State) (f : Nat) (q : Bool) : State :=
  let x := s.facet f
  match (x.mq q).entries with
  | [] => s
  | e :: rest =>
    if !x.mxDone q then s
    else
      let (x, fl) := e.finish x q
      let s := s.setFacet f (x.setMq q { x.mq q with entries := rest, lastDone := x.cyc })
      let mine := (x.slot e.slot).owner == some (e.ctx, e.seq)
      let s := if mine then s.modSlot f e.slot fun sl =>
        { sl with cnt := sl.cnt.subMx, mxf0 := if q then sl.mxf0 else sl.mxf0 ||| fl, mxf1 := if q then sl.mxf1 ||| fl else sl.mxf1,
                  mxNow0 := if q then sl.mxNow0 else fl, mxNow1 := if q then fl else sl.mxNow1 } else s
      let s := (((s.mxWaits f q).endBinding f q).engineFreed (prismOf f)).retest f
      match ((s.facet f).mq q).entries with
      | h :: _ => if (mxKind h.ins).1 = .rel then s.pushDue (.matrixCompletion f q) else s
      | [] => s

/-- MATRIX_COMPLETION, R300. -/
def execMatrixCompletion (f : Nat) (q : Bool) (σ : State) : Out := .next ((σ.done (.matrixCompletion f q)).mxComplete f q)

end Sys2Proof.Machine
end

