-- ==== Sys2Proof/Machine/LocalMemory.lean ====
section
/-! DEFINITION. Local-store instructions: plain, synchronising and bit-field loads and stores (R234 to R236) and byte barriers (R110,
R111, R254). -/

namespace Sys2Proof.Machine

/-! Plain forms (R234). -/

/-- The local address of a base register and an offset. -/
def localAddress (t : Thread) (a : BitVec 5) (o : Word) : Word := t.rx a + o

/-- The state after bytes are stored to local store by a slot: parked accesses are tested again. -/
def State.storeLocal (s : State) (f la : Nat) (b : List Byte) (taint : Bool) : State :=
  (s.setFacet f ((s.facet f).lsPut la b fun _ => taint)).retest f

/-- The load-to-use latency of local store (R29), and of a bit field that straddles two words (R74). -/
def localCycles : Nat := 6
def fieldCycles (ba l : Nat) : Nat := if ba % 32 + l ≤ 32 then localCycles else localCycles + 1

/-- LDL, R234. -/
def execLdl (i : BitVec 12) (a : BitVec 5) (t : LdTyp) (d : BitVec 5) (σ : State) : Out :=
  issue σ { core := false, reads := [a], writes := [d], cycles := localCycles } fun th =>
    localAccess σ (localAddress th a (imm12 i)) (ldBytes t) (ldBytes t) true false fun σ f _ =>
      let la := (localAddress th a (imm12 i)).toNat
      let x := σ.facet f
      retire σ (th.wx d (extendBytes (ldSigned t) (ldBytes t) (ofBytes (x.lsBytes la (ldBytes t)))) (x.lsTaint la (ldBytes t)))

/-- STL, R234. -/
def execStl (i : BitVec 12) (b a : BitVec 5) (t : StTyp) (σ : State) : Out :=
  issue σ { core := false, reads := [a, b] } fun th =>
    localAccess σ (localAddress th a (imm12 i)) (stBytes t) (stBytes t) false true fun σ f _ =>
      retire (σ.storeLocal f (localAddress th a (imm12 i)).toNat (toBytes (stBytes t) (th.rx b).toNat) (th.tx b)) th

/-! Synchronising forms (R76, R77, R141, R235). -/

/-- A synchronising access of a slot after its checks: it is the release or the acquire of R141 and waits for the slot's older
accesses; it is performed where it can proceed, and otherwise the slot parks behind those already parked (R77). -/
def syncAccess (σ : State) (la : Word) (align : Nat) (a : FeAccess) (wr : Bool) : Out :=
  localAccess σ la align a.k (!wr) wr (store := a.kind == .put) fun σ f n =>
    if (if a.kind = .put then σ.unfinished σ.turn else σ.unloaded σ.turn) then stall σ clFENCE
    else if (σ.facet f).proceeds a then .next ((σ.feServe f n a).retest f)
    else .next ((σ.parkAs f n a.kind la none (some a)).modFacet f fun x => { x with parked := x.parked.filter (· != n) ++ [n] })

/-- LDFT and LDFP. -/
def syncLoad (σ : State) (o : BitVec 8) (a d : BitVec 5) (kind : ParkKind) (k : Nat) (signed : Bool) : Out :=
  issue σ { core := false, handler := false, reads := [a], writes := [d], cycles := localCycles } fun t =>
    let la := localAddress t a (sext64 o * 4)
    syncAccess σ la k { kind := kind, la := la.toNat, k := k, signed := signed, d := d } false

/-- STFP. -/
def syncStore (σ : State) (o : BitVec 10) (b a : BitVec 5) (k : Nat) : Out :=
  issue σ { core := false, handler := false, reads := [a, b] } fun t =>
    let la := localAddress t a (sext64 o * 4)
    syncAccess σ la k { kind := .put, la := la.toNat, k := k, data := t.rx b, taint := t.tx b } true

/-- STFF: the forced form, which writes and marks full whatever the bits hold (R76). -/
def forcedStore (σ : State) (o : BitVec 10) (b a : BitVec 5) (k : Nat) : Out :=
  issue σ { core := false, reads := [a, b] } fun t =>
    let la := localAddress t a (sext64 o * 4)
    localAccess σ la k k false true fun σ f _ =>
      if σ.unfinished σ.turn then stall σ clFENCE
      else
        let x := ((σ.facet f).lsPut la.toNat (toBytes k (t.rx b).toNat) fun _ => t.tx b).setEmpty la.toNat k false
        retire ((σ.setFacet f x).retest f) t

/-- LDFT_N32, R235. -/
def execLdftN32 (o : BitVec 8) (a d : BitVec 5) (σ : State) : Out := syncLoad σ o a d .take 4 false
/-- LDFT_I32, R235. -/
def execLdftI32 (o : BitVec 8) (a d : BitVec 5) (σ : State) : Out := syncLoad σ o a d .take 4 true
/-- LDFT_N64, R235. -/
def execLdftN64 (o : BitVec 8) (a d : BitVec 5) (σ : State) : Out := syncLoad σ o a d .take 8 false
/-- LDFP_N32, R235. -/
def execLdfpN32 (o : BitVec 8) (a d : BitVec 5) (σ : State) : Out := syncLoad σ o a d .peek 4 false
/-- LDFP_I32, R235. -/
def execLdfpI32 (o : BitVec 8) (a d : BitVec 5) (σ : State) : Out := syncLoad σ o a d .peek 4 true
/-- LDFP_N64, R235. -/
def execLdfpN64 (o : BitVec 8) (a d : BitVec 5) (σ : State) : Out := syncLoad σ o a d .peek 8 false
/-- STFP_N32, R235. -/
def execStfpN32 (o : BitVec 10) (b a : BitVec 5) (σ : State) : Out := syncStore σ o b a 4
/-- STFP_N64, R235. -/
def execStfpN64 (o : BitVec 10) (b a : BitVec 5) (σ : State) : Out := syncStore σ o b a 8
/-- STFF_N32, R235. -/
def execStffN32 (o : BitVec 10) (b a : BitVec 5) (σ : State) : Out := forcedStore σ o b a 4
/-- STFF_N64, R235. -/
def execStffN64 (o : BitVec 10) (b a : BitVec 5) (σ : State) : Out := forcedStore σ o b a 8

/-- MKE: the words become empty; their data stays (R76). -/
def markEmpty (σ : State) (o : BitVec 10) (a : BitVec 5) (k : Nat) : Out :=
  issue σ { core := false, reads := [a] } fun t =>
    let la := localAddress t a (sext64 o * 4)
    localAccess σ la k k false true fun σ f _ => retire ((σ.setFacet f ((σ.facet f).setEmpty la.toNat k true)).retest f) t

/-- MKE_N32, R235. -/
def execMkeN32 (o : BitVec 10) (a : BitVec 5) (σ : State) : Out := markEmpty σ o a 4
/-- MKE_N64, R235. -/
def execMkeN64 (o : BitVec 10) (a : BitVec 5) (σ : State) : Out := markEmpty σ o a 8

/-! Bit fields (R236). -/

/-- A bit field of l bits at a bit address: the bytes that hold it lie in the allocation; the scoreboard and watchpoints see them. -/
def bitAccess (σ : State) (ba : Word) (l : Nat) (wr : Bool) (go : State → Nat → Nat → Out) : Out :=
  onSlot σ fun f n _ =>
    let a := ba.toNat / 8
    let k := (ba.toNat + l - 1) / 8 + 1 - a
    if 2 ^ 21 ≤ ba.toNat ∨ !σ.mayUse f n a k then faultOut σ cLSRANGE (BitVec.ofNat 64 a)
    else if (σ.facet f).covered a k wr then stall σ clSCORE
    else watched σ [{ local' := true, facet := f, base := a, len := k, rd := !wr, wr := wr }] fun σ => go σ f n

/-- bap moved on by l bits. -/
def State.moveBap (s : State) (f n l : Nat) : State := s.modSlot f n fun x => { x with bap := x.bap + BitVec.ofNat 21 l }

/-- The latency of a bit-field load at bap. -/
def pointerCycles (σ : State) (l : Nat) : Nat :=
  match σ.turn with
  | .slot f n => fieldCycles (σ.slot f n).bap.toNat l
  | _ => localCycles

/-- BLD at a bit address. -/
def bitLoad (σ : State) (t : Thread) (ba : Word) (g : Bool) (l : Nat) (d : BitVec 5) (pointer : Bool) : Out :=
  bitAccess σ ba l false fun σ f n =>
    let x := σ.facet f
    let v := BitVec.ofNat 64 (x.bitGet ba.toNat l)
    let a := ba.toNat / 8
    let taint := x.lsTaint a ((ba.toNat + l - 1) / 8 + 1 - a)
    retire (if pointer then σ.moveBap f n l else σ) (t.wx d (if g then signField v l else v) taint)

/-- BST at a bit address. -/
def bitStore (σ : State) (t : Thread) (ba : Word) (l : Nat) (b : BitVec 5) (pointer : Bool) : Out :=
  bitAccess σ ba l true fun σ f n =>
    let σ := (σ.setFacet f ((σ.facet f).bitPut ba.toNat l (t.rx b).toNat (t.tx b))).retest f
    retire (if pointer then σ.moveBap f n l else σ) t

/-- BLD_POINTER, R236. -/
def execBldPointer (g : Bool) (l d : BitVec 5) (σ : State) : Out :=
  issue σ { core := false, writes := [d], cycles := pointerCycles σ (l.toNat + 1) } fun t =>
    onSlot σ fun _ _ sl => bitLoad σ t (zext64 sl.bap) g (l.toNat + 1) d true

/-- BLD_REGISTER, R236. -/
def execBldRegister (g : Bool) (l a d : BitVec 5) (σ : State) : Out :=
  issue σ { core := false, reads := [a], writes := [d], cycles := fieldCycles ((σ.thread σ.turn).rx a).toNat (l.toNat + 1) } fun t =>
    bitLoad σ t (t.rx a) g (l.toNat + 1) d false

/-- BST_POINTER, R236. -/
def execBstPointer (b l : BitVec 5) (σ : State) : Out :=
  issue σ { core := false, reads := [b] } fun t =>
    onSlot σ fun _ _ sl => bitStore σ t (zext64 sl.bap) (l.toNat + 1) b true

/-- BST_REGISTER, R236. -/
def execBstRegister (b a l : BitVec 5) (σ : State) : Out :=
  issue σ { core := false, reads := [a, b] } fun t => bitStore σ t (t.rx a) (l.toNat + 1) b false

/-! Byte barriers (R110, R111, R254). -/

/-- The word of a barrier, and the facet with it replaced; the words keep their taint beside that of what is credited. -/
def Facet.barrier (x : Facet) (a : Nat) : Word := BitVec.ofNat 64 (ofBytes (x.lsBytes a 8))
def Facet.setBarrier (x : Facet) (a : Nat) (w : Word) (taint : Bool) : Facet :=
  x.lsPut a (toBytes 8 w.toNat) fun i => taint || (x.word i).taint

/-- arm(b, n). -/
def barArm (w : Word) (n : BitVec 32) : Word := w.extractLsb' 48 16 ++ 0#16 ++ n

/-- arrive(b, c). -/
def barArrive (w : Word) (c : Nat) : Word :=
  let pend := (w.extractLsb' 0 32).toNat
  if pend = 0 then setBit w 49 true
  else
    let arr : BitVec 16 := w.extractLsb' 32 16 + 1
    if pend ≤ c then
      setBit (setBit (w.extractLsb' 48 16 ++ arr ++ 0#32) 48 (!w.getLsbD 48)) 49 (w.getLsbD 49 || pend < c)
    else w.extractLsb' 48 16 ++ arr ++ BitVec.ofNat 32 (pend - c)

/-- An arrival at a barrier of a facet, by whoever makes it: waits on it are tested again. -/
def State.arriveAt (s : State) (f a c : Nat) (taint : Bool) : State :=
  (s.setFacet f ((s.facet f).setBarrier a (barArrive ((s.facet f).barrier a) c) taint)).retest f

/-- BARM, R254. -/
def execBarm (b a : BitVec 5) (σ : State) : Out :=
  issue σ { core := false, handler := false, reads := [a, b] } fun t =>
    localAccess σ (t.rx a) 8 8 false true fun σ f _ =>
      let la := (t.rx a).toNat
      retire (σ.setFacet f ((σ.facet f).setBarrier la (barArm ((σ.facet f).barrier la) ((t.rx b).setWidth 32)) (t.tx b))) t

/-- BARR, R254. -/
def execBarr (b a : BitVec 5) (σ : State) : Out :=
  issue σ { core := false, handler := false, reads := [a, b] } fun t =>
    localAccess σ (t.rx a) 8 8 false true fun σ f _ =>
      if σ.unfinished σ.turn then stall σ clFENCE
      else retire (σ.arriveAt f (t.rx a).toNat ((t.rx b).toNat % 2 ^ 32) (t.tx b)) t

/-- BWAIT, R254. -/
def execBwait (b a : BitVec 5) (σ : State) : Out :=
  issue σ { core := false, handler := false, reads := [a, b] } fun t =>
    syncAccess σ (t.rx a) 8 { kind := .bwait, la := (t.rx a).toNat, k := 8, ph := (t.rx b).getLsbD 0 } true

end Sys2Proof.Machine
end

