-- ==== Sys2Proof/Machine/Messages.lean ====
section
/-! DEFINITION. Mailboxes and messages (R308 to R313), handlers on slot 15 (R314, R315), and remote local-store operations (R107 to R109,
R252, R253). -/

namespace Sys2Proof.Machine

/-! Thread identifiers and scopes (R21, R140). -/

def tidDevice (t : Nat) : Nat := t / 32768
def tidFacet (t : Nat) : Nat := t / 16 % 2048
def tidSlot (t : Nat) : Nat := t % 16

/-- A device field of a thread identifier of [26:0] names a device of the domain (R21, R311). -/
def State.deviceKnown (s : State) (t : Nat) : Bool := tidDevice t < 2048 && (tidDevice t == s.dev || s.domain.contains (tidDevice t))

/-- The common scope of two slots is wider than a prism. -/
def State.wideTo (s : State) (f t : Nat) : Bool := tidDevice t != s.dev || prismOf (tidFacet t) != prismOf f

/-! Mailboxes (R308). -/

/-- The entries of a slot's spill queue: SPILL of its task, HSP.N for slot 15 (R377). -/
def State.spillRoom (s : State) (f n : Nat) : Nat :=
  if n = 15 then
    ((s.parts.find? fun (_, p) => p.prisms.contains (prismOf f)).map fun (_, p) => p.hspN.toNat).getD 0
  else (s.slot f n).spillN

/-- A mailbox entry in memory (R308). -/
def Msg.encoded (m : Msg) : List Byte :=
  toBytes 16 m.pay.toNat ++ toBytes 8 m.hnd.toNat ++ toBytes 4 m.src.toNat ++ toBytes 1 m.tag.toNat ++ toBytes 1 m.tnt.toNat ++ toBytes 2 0

/-- The address of entry i of the spill queue of a slot of a facet: in the reservation of its task (R375), for slot 15 in the handler spill
area of its partition (R377). -/
def State.spillBase (s : State) (f n : Nat) (sl : Slot) (i : Nat) : Nat :=
  if n = 15 then
    ((s.parts.find? fun (_, p) => p.prisms.contains (prismOf f)).map fun (_, p) => p.hspB.toNat * 4096 + 32 * (p.hspN.toNat * f + i)).getD 0
  else (s.ctx ((sl.owner.map Prod.fst).getD 0)).d.splB + 32 * (sl.spillAt[i]?).getD 0

/-- A message joins the spill queue of a slot, at the lowest entry in memory that none of its messages holds (log 65). -/
def State.spillPut (s : State) (f n : Nat) (sl : Slot) (m : Msg) : Slot × State :=
  let i := ((List.range (sl.spill.length + 1)).find? fun i => sl.spill.all (·.at' != i)).getD 0
  let m := { m with at' := i }
  let secure := if n = 15 then (s.prism (prismOf f)).world else (s.ctx ((sl.owner.map Prod.fst).getD 0)).d.world
  ({ sl with spill := sl.spill ++ [m] }, s.deviceWrite secure (s.spillBase f n sl i) m.encoded)

/-- A message joins a slot's queue; none where mailbox and spill queue are full. -/
def State.enqueue (s : State) (f n : Nat) (m : Msg) : Option State :=
  let sl := s.slot f n
  if sl.spill.isEmpty ∧ sl.mbox.length < 8 then some (s.setSlot f n { sl with mbox := sl.mbox ++ [m] })
  else if sl.spill.length < s.spillRoom f n then
    let (sl, s) := s.spillPut f n sl m
    some (s.setSlot f n sl)
  else none

/-- The oldest entry leaves the mailbox and the oldest spilled message takes its room. -/
def Slot.dequeue (sl : Slot) : Slot :=
  match sl.spill with
  | m :: rest => { sl with mbox := sl.mbox.drop 1 ++ [m], spill := rest }
  | [] => { sl with mbox := sl.mbox.drop 1 }

/-- A WAITMSG that finds an entry ends (R313). -/
def State.wakeMsg (s : State) (f n : Nat) : State :=
  let sl := s.slot f n
  match sl.park with
  | some p =>
    if p.kind = .waitmsg ∧ !sl.mbox.isEmpty then
      match p.fe with
      | some a => s.retireAs (.slot f n) (sl.th.wx a.d (BitVec.ofNat 64 sl.mbox.length) false)
      | none => s
    else s
  | none => s

/-- Mailbox and spill queue hold entries of more than one sender (R312). -/
def Slot.raced (sl : Slot) : Bool := ((sl.mbox ++ sl.spill).map (·.src)).dedup.length > 1

/-! Sending and delivery (R309, R311). -/

/-- A message of a slot is on its way. -/
def State.launchAs (s : State) (id : Nat) (w : Flight) : State :=
  let s := { s with flights := kset id { w with msg := { w.msg with id := id } } s.flights }
  if tidDevice w.target = s.dev then s.pushDue (.messageDelivery id noAnswer) else s

/-- The same under a new number. -/
def State.launchMsg (s : State) (w : Flight) : Nat × State :=
  let id := s.nextId
  (id, ({ s with nextId := id + 1 }).launchAs id w)

/-- A message of this device has entered its mailbox or is gone: the next of its sender to that mailbox that waits for it is delivered
(R140). -/
def State.nextMsg (s : State) (w : Flight) : State :=
  match s.flights.find? fun (_, v) => v.who == w.who && v.target == w.target && !v.entered && !v.refused with
  | some (j, _) => if tidDevice w.target = s.dev then s.pushDue (.messageDelivery j noAnswer) else s
  | none => s

/-- A message ends with a late report to its sender, which has left ST. -/
def State.lateMsg (s : State) (id : Nat) (cause : BitVec 8) : State :=
  match kfind id s.flights with
  | none => s
  | some w =>
    let s := { s with flights := kdel id s.flights }
    ((s.modCnt w.who Counts.subSt).lateReportTo w.who id { cause := cause, pc := w.pc, addr := w.word }).nextMsg w

/-- The access width of a built-in operation in bytes, and whether it reads. -/
def BuiltOp.bytes : BuiltOp → Nat
  | .load t _ => ldBytes t
  | .store k _ _ | .fullEmpty k _ _ => k
  | .amo _ t _ _ _ => rmBytes t
  | .bits l _ _ => l
  | .arrive _ _ => 8
def BuiltOp.reads : BuiltOp → Bool
  | .load _ _ | .amo _ _ _ _ _ | .arrive _ _ => true
  | _ => false
def BuiltOp.writes : BuiltOp → Bool
  | .load _ _ => false
  | _ => true

/-- The bytes that a built-in operation touches from a bit address. -/
def BuiltOp.range (o : BuiltOp) (ba : Nat) : Nat × Nat :=
  match o with
  | .bits l _ _ => (ba / 8, (ba + l - 1) / 8 + 1 - ba / 8)
  | _ => (ba / 8, o.bytes)

/-- The tile slots of a facet whose messages are diverted (R358): those of the saved state, or of the facet while it drains. -/
def Facet.divertSlots (x : Facet) : KMap Slot :=
  if !x.diverting then [] else if x.save = .draining then x.slots.filter fun (n, _) => n != 15 else x.savedSlots

/-- A message of a context goes to a saved task: to its slot, or to slot 15 where the context has a saved task, whose allocation holds a
built-in operation's word. -/
def Facet.diverts (x : Facet) (n : Nat) (m : Msg) (c : Nat) : Bool :=
  let mine := fun (sl : Slot) => match sl.job with | .task c' _ _ _ => c' == c | _ => false
  let holds := fun (sl : Slot) => match m.op with | some (o, a) => let (la, k) := o.range a; sl.holdsRange la k | none => true
  x.divertSlots.any fun (i, sl) => mine sl && (if n = 15 then holds sl else i == n)

/-- A message joins the handler region of a save area (R359): entry and count are written at once where the area has been. -/
def State.divertHandler (s : State) (f : Nat) (m : Msg) : State :=
  let x := s.facet f
  let w := (s.prism (prismOf f)).world
  let k := x.divMsgs.length
  let s := s.setFacet f { x with divMsgs := x.divMsgs ++ [m] }
  if x.save = .draining then s
  else (s.deviceWrite w (x.saveArea + 0x5000 + 32 * k) m.encoded).deviceWrite w (x.saveArea + 0x10) (toBytes 2 (k + 1))

/-- A message to a saved task joins its spill queue, or the handler region, whose 128 entries may all be in use (R358, R309). -/
def State.divert (s : State) (f n : Nat) (m : Msg) : Option State :=
  let x := s.facet f
  if n = 15 then (if x.divMsgs.length < 128 then some (s.divertHandler f m) else none)
  else
    let add := fun (sl : Slot) => if sl.spill.length < sl.spillN then some (s.spillPut f n sl m) else none
    if x.save = .draining then (add (x.slot n)).map fun (sl, s) => s.setSlot f n sl
    else x.stash.bind fun t => (add (kget {} t.slots n)).map fun (sl, s) =>
      s.modFacet f fun x => { x with stash := some { t with slots := kset n sl t.slots } }

/-- A target accepts a message of a context: a resident task of the context, on slot 15 of any slot of the facet (R311); the report of a
copy only its own task (R102); built-in operations are checked by their handler (R109). -/
def State.targetOk (s : State) (w : Flight) : Bool :=
  let x := s.facet (tidFacet w.target)
  let holds := fun (sl : Slot) => match sl.job with | .task c _ _ _ => c == w.ctx | _ => false
  if w.msg.op.isSome || x.diverts (tidSlot w.target) w.msg w.ctx then true
  else if w.copy.isSome then (x.slot (tidSlot w.target)).owner == some (w.ctx, w.seq)
  else if tidSlot w.target = 15 then (List.range 15).any fun n => holds (x.slot n)
  else holds (x.slot (tidSlot w.target))

/-- An older message of the same sender to the same mailbox has not entered it: on its way or refused (R140, R309), or put on the request
list of the save that goes on (R358). -/
def State.olderMsg (s : State) (id : Nat) (w : Flight) : Bool :=
  let ahead := fun (j : Nat) (v : Flight) => j < id && v.who == w.who && v.target == w.target && !v.entered
  s.flights.any (fun (j, v) => ahead j v) ||
    (match w.who with
      | .slot f _ => (s.facet f).save == .draining && (((s.facet f).stash.map (·.refused)).getD []).any fun (j, v) => ahead j v
      | _ => false)

/-- Some load of an agent has not been performed. -/
def State.loadAhead (s : State) (a : Agent) : Bool := s.olderLoad a s.nextId

/-- The sender of a message of this device has been killed: it is dropped where it would be refused (R309). -/
def State.orphan (s : State) (w : Flight) : Bool :=
  w.copy.isNone && (match w.who with | .peer t => tidDevice t == s.dev | _ => false)

/-- A message arrives at its mailbox on this device: discarded, entered, or refused and to be sent again after 64 cycles. One that an older
message of its sender is ahead of waits for it; its delivery is an acquire for the receiving slot, and waits for that slot's older loads
(R140). -/
def State.arriveMsg (s : State) (id : Nat) : State :=
  match kfind id s.flights with
  | none => s
  | some w =>
    let f := tidFacet w.target
    let n := tidSlot w.target
    let refuse :=
      if s.orphan w then ({ s with flights := kdel id s.flights }).nextMsg w
      else ({ s with flights := kset id { w with refused := true } s.flights }).inTicks 64 (.messageResend id)
    if w.entered then s
    else if s.olderMsg id w then s
    else if s.loadAhead (.slot f n) then s.inTicks 1 (.messageDelivery id noAnswer)
    else if !s.targetOk w then s.lateMsg id cACCESS
    else match (if (s.facet f).diverts n w.msg w.ctx then s.divert f n w.msg else s.enqueue f n w.msg) with
      | none => refuse
      | some s =>
        let wide := match w.who with | .slot g _ => prismOf g != prismOf f | _ => true
        let s := ((s.refresh (.slot f n) wide).wakeMsg f n).serviceDue f
        if n = 15 then ({ s with flights := kset id { w with entered := true, refused := false } s.flights }).nextMsg w
        else
          (match w.who with
            | .slot _ _ => ({ s with flights := kdel id s.flights }).modCnt w.who Counts.subSt
            | _ => { s with flights := kdel id s.flights }).nextMsg w

/-- MSEND and AMSG. -/
def sendMsg (σ : State) (b a d : BitVec 5) (user : Bool) : Out :=
  issue σ { core := false, reads := [a, a + 1, b] ++ (if user then [d] else []) } fun t =>
    onSlot σ fun f n sl =>
      let word := t.rx b
      let tid := fieldAt word 0 27
      let target := if user then tid / 16 * 16 + 15 else tid
      if !σ.deviceKnown tid then faultOut σ cNOMAP word
      else if !user && tidSlot tid == 15 then faultOut σ cACCESS word
      else if user && (t.rx d).toNat % 4 != 0 then faultOut σ cALIGN (t.rx d)
      else counted σ sl.cnt.st <| match σ.release σ.turn (σ.wideTo f tid) with
        | none => stall σ clFENCE
        | some σ =>
          let (c, seq) := sl.owner.getD (0, 0)
          let taint := fun (r : BitVec 5) => t.tx r
          let m : Msg := { pay := t.rx (a + 1) ++ t.rx a, hnd := if user then t.rx d else 0, src := BitVec.ofNat 28 (σ.tid f n),
                           tag := word.extractLsb' 32 8,
                           tnt := bit (taint (a + 1)) ++ bit (taint (a + 1)) ++ bit (taint a) ++ bit (taint a), ctx := c, seq := seq }
          let w : Flight := { who := .slot f n, ctx := c, seq := seq, pc := t.pc, word := word, target := target, user := user, msg := m }
          let σ := ((σ.modCnt (.slot f n) Counts.addSt).launchMsg w).2
          retire (σ.traceEvent f n 5 target t.pc word) t

/-- MSEND, R311. -/
def execMsend (b a : BitVec 5) (σ : State) : Out := sendMsg σ b a 0 false
/-- AMSG, R311. -/
def execAmsg (b a d : BitVec 5) (σ : State) : Out := sendMsg σ b a d true

/-- MRECV, R312. -/
def execMrecv (a d : BitVec 5) (σ : State) : Out :=
  issue σ { core := false, handler := false, writes := [d, d + 1, a] } fun t =>
    onSlot σ fun f n sl =>
      if d = a ∨ d + 1 = a then faultOut σ cILLEGAL
      else match sl.mbox with
        | [] => retire σ (t.wx a 0 false)
        | m :: _ =>
          let det := (sl.owner.map fun o => σ.isDet o.1 o.2).getD false
          let race := !det && sl.raced
          let t' := ((t.wx d (m.pay.extractLsb' 0 64) (race || m.tnt.extractLsb' 0 2 != 0)).wx (d + 1) (m.pay.extractLsb' 64 64)
            (race || m.tnt.extractLsb' 2 2 != 0)).wx a (0x100 + zext64 m.tag) false
          let σ' := (σ.setSlot f n { sl.dequeue with msrc := m.src, msrcT := race }).traceEvent f n 6 (m.src.toNat % 2 ^ 27) t.pc (zext64 m.tag)
          retire σ' t'

/-- WAITMSG, R313. -/
def execWaitmsg (d : BitVec 5) (σ : State) : Out :=
  issue σ { core := false, handler := false, writes := [d] } fun t =>
    onSlot σ fun f n sl =>
      if sl.mbox.isEmpty then
        .next (σ.parkAs f n .waitmsg 0 none (some { kind := .waitmsg, la := 0, k := 0, d := d }))
      else retire σ (t.wx d (BitVec.ofNat 64 sl.mbox.length) false)

/-! Remote local-store operations (R252, R253). -/

/-- A remote operation at issue: its checks, watchpoints, the release at the common scope; the slot waits for the reply. -/
def remoteOp (σ : State) (rs ws : List (BitVec 5)) (a : BitVec 5) (op : Thread → BuiltOp) : Out :=
  issue σ { core := false, handler := false, reads := rs, writes := ws } fun t =>
    onSlot σ fun f n sl =>
      let word := t.rx a
      let o := op t
      let ba := fieldAt word 32 21
      let tid := fieldAt word 0 27
      let (la, k) := o.range ba
      let misaligned := match o with
        | .bits _ _ _ => false
        | .arrive _ _ => ba % 64 != 0
        | _ => ba % 8 != 0 || la % k != 0
      if misaligned then faultOut σ cALIGN word
      else if !σ.deviceKnown tid then faultOut σ cNOMAP word
      else counted σ (o.count sl.cnt) <|
        watched σ [{ local' := true, facet := tidFacet tid, base := la, len := k, rd := o.reads, wr := o.writes }] fun σ =>
          match σ.release σ.turn (σ.wideTo f tid) with
          | none => stall σ clFENCE
          | some σ =>
            let (c, seq) := sl.owner.getD (0, 0)
            let m : Msg := { src := BitVec.ofNat 28 (σ.tid f n), ctx := c, seq := seq, op := some (o, ba) }
            let w : Flight := { who := .slot f n, ctx := c, seq := seq, pc := t.pc, word := word, target := tid / 16 * 16 + 15,
                                user := false, msg := m }
            let (id, σ) := (σ.modCnt (.slot f n) o.joinCnt).launchMsg w
            .next (σ.parkAs f n .accept word (some id) none)

/-- RLD, R253. -/
def execRld (a : BitVec 5) (t : LdTyp) (d : BitVec 5) (σ : State) : Out := remoteOp σ [a] [d] a fun _ => .load t d
/-- RST, R253. -/
def execRst (b a : BitVec 5) (t : StTyp) (σ : State) : Out :=
  remoteOp σ [a, b] [] a fun th => .store (stBytes t) (th.rx b) (th.tx b)
/-- RSTF, R253. -/
def execRstf (b a : BitVec 5) (w : Bool) (σ : State) : Out :=
  remoteOp σ [a, b] [] a fun t => .fullEmpty (if w then 8 else 4) (t.rx b) (t.tx b)
/-- RARR, R253. -/
def execRarr (b a : BitVec 5) (σ : State) : Out := remoteOp σ [a, b] [] a fun t => .arrive ((t.rx b).toNat % 2 ^ 32) (t.tx b)
/-- RAMSWAP, R253. -/
def execRamswap (b a : BitVec 5) (t : RmTyp) (d : BitVec 5) (σ : State) : Out :=
  remoteOp σ [a, b] [d] a fun th => .amo opSwap t (th.rx b) (th.tx b) d
/-- RAMADD, R253. -/
def execRamadd (b a : BitVec 5) (t : RmTyp) (d : BitVec 5) (σ : State) : Out :=
  remoteOp σ [a, b] [d] a fun th => .amo opAdd t (th.rx b) (th.tx b) d
/-- RAMAND, R253. -/
def execRamand (b a : BitVec 5) (t : RmTyp) (d : BitVec 5) (σ : State) : Out :=
  remoteOp σ [a, b] [d] a fun th => .amo opAnd t (th.rx b) (th.tx b) d
/-- RAMOR, R253. -/
def execRamor (b a : BitVec 5) (t : RmTyp) (d : BitVec 5) (σ : State) : Out :=
  remoteOp σ [a, b] [d] a fun th => .amo opOr t (th.rx b) (th.tx b) d
/-- RAMXOR, R253. -/
def execRamxor (b a : BitVec 5) (t : RmTyp) (d : BitVec 5) (σ : State) : Out :=
  remoteOp σ [a, b] [d] a fun th => .amo opXor t (th.rx b) (th.tx b) d
/-- RAMMIN, R253. -/
def execRammin (b a : BitVec 5) (t : RmTyp) (d : BitVec 5) (σ : State) : Out :=
  remoteOp σ [a, b] [d] a fun th => .amo opMin t (th.rx b) (th.tx b) d
/-- RAMMAX, R253. -/
def execRammax (b a : BitVec 5) (t : RmTyp) (d : BitVec 5) (σ : State) : Out :=
  remoteOp σ [a, b] [d] a fun th => .amo opMax t (th.rx b) (th.tx b) d
/-- RBST, R253. -/
def execRbst (l b a : BitVec 5) (σ : State) : Out := remoteOp σ [a, b] [] a fun t => .bits (l.toNat + 1) (t.rx b) (t.tx b)

/-- The reply of a remote operation reaches its sender: the instruction retires, with a result where it has one. -/
def State.replyOk (s : State) (w : Flight) (o : BuiltOp) (v : Nat) (taint : Bool) : State :=
  let s := { s with flights := kdel w.msg.id s.flights }
  match w.who with
  | .slot f n =>
    let s := (s.modCnt w.who o.leaveCnt).unpark w.who w.msg.id
    let t := (s.slot f n).th
    s.retireAs w.who (match o with
      | .load ty d => t.wx d (extendBytes (ldSigned ty) (ldBytes ty) v) taint
      | .amo _ ty _ _ d => t.wx d (extendBytes (rmSigned ty) (rmBytes ty) v) taint
      | _ => t)
  | _ => s

/-- The reply faults the sender's instruction (R109, R252). -/
def State.replyFault (s : State) (w : Flight) (o : BuiltOp) (cause : BitVec 8) : State :=
  let s := { s with flights := kdel w.msg.id s.flights }
  match w.who with
  | .slot _ _ => ((s.modCnt w.who o.leaveCnt).unpark w.who w.msg.id).takeFault w.who { cause := cause, addr := w.word, pc := some w.pc }
  | _ => s

/-- The reply tells the sender of an RSTF that its word was full: the store is sent again after 64 cycles (R108). -/
def State.replyFull (s : State) (w : Flight) : State :=
  match w.who with
  | .slot f n =>
    let s := { s with flights := kset w.msg.id { w with entered := false, refused := false, reply := none } s.flights }
    (s.parkAs f n .resend w.word (some w.msg.id) none).inTicks 64 (.rstfResend f n)
  | _ => { s with flights := kdel w.msg.id s.flights }

/-- RSTF_RESEND, R108. -/
def execRstfResend (f n : Nat) (σ : State) : Out :=
  let due := (σ.later.any fun l => l.2 == .rstfResend f n) || σ.due.contains (.rstfResend f n)
  .next (let σ := σ.done (.rstfResend f n)
    match due, (σ.slot f n).park with
    | true, some p =>
      (match p.kind, p.req.bind fun id => (kfind id σ.flights).map fun w => (id, w) with
        | .resend, some (id, w) =>
          if tidDevice w.target = σ.dev then σ.pushDue (.messageDelivery id noAnswer) else σ
        | _, _ => σ)
    | _, _ => σ)

/-- A built-in operation at its owner (R107, R253): the facet after it, and the value and taint of the reply. Built-in operations set no
taint of their own; a RAMSWAP's word takes that of its operand alone. -/
def BuiltOp.perform (o : BuiltOp) (x : Facet) (ba : Nat) : Facet × Nat × Bool :=
  let (la, k) := o.range ba
  match o with
  | .load _ _ => (x, ofBytes (x.lsBytes la k), x.lsTaint la k)
  | .store _ v t => (x.lsPut la (toBytes k v.toNat) fun _ => t, 0, false)
  | .fullEmpty _ v t => ((x.lsPut la (toBytes k v.toNat) fun _ => t).setEmpty la k false, 0, false)
  | .amo op ty v vt _ =>
    let old := ofBytes (x.lsBytes la k)
    let t := x.lsTaint la k
    (x.lsPut la (toBytes k (intNew op (rmSigned ty) k old v.toNat)) fun _ => vt || (op != opSwap && t), old, t)
  | .bits l v t => (x.bitPut ba l v.toNat t, 0, false)
  | .arrive c t => (x.setBarrier la (barArrive (x.barrier la) c) t, 0, false)

/-- The reply to a built-in operation is on its way to the sender (R253). -/
def State.answerMsg (s : State) (id : Nat) (r : Reply) : State :=
  match kfind id s.flights with
  | some w => ({ s with flights := kset id { w with reply := some r } s.flights }).pushDue (.messageDelivery id noAnswer)
  | none => s

/-- The reply to a remote operation reaches the sender. -/
def State.takeReply (s : State) (w : Flight) (r : Reply) : State :=
  match w.msg.op, r with
  | some (o, _), .ok v t => s.replyOk w o v t
  | some (o, _), .fault cause => s.replyFault w o cause
  | some _, .full => s.replyFull w
  | none, _ => s

/-- BUILT_IN_OPERATION: slot 15 performs the operation at the head of its mailbox, or holds it while a scoreboard entry covers it. -/
def State.builtIn (s : State) (f : Nat) : State :=
  let sl := s.slot f 15
  match sl.job, sl.trap, sl.mbox with
  | .vacant, none, m :: _ =>
    match m.op with
    | none => s
    | some (o, ba) =>
      let x := s.facet f
      let (la, k) := o.range ba
      let take := fun (s : State) => s.setSlot f 15 (s.slot f 15).dequeue
      if !x.residentRange m.ctx la k then ((take s).answerMsg m.id (.fault cLSRANGE)).serviceDue f
      else if x.covered la k o.writes then s
      else
        let full := match o with | .fullEmpty _ _ _ => !x.allEmpty la k true | _ => false
        if full then ((take s).answerMsg m.id .full).serviceDue f
        else
          let (x, v, t) := o.perform x ba
          (((take ((s.setFacet f x).retest f)).answerMsg m.id (.ok v t))).serviceDue f
  | _, _, _ => s

/-- BUILT_IN_OPERATION, R253. -/
def execBuiltInOperation (f : Nat) (σ : State) : Out := .next ((σ.done (.builtInOperation f)).builtIn f)

/-- MESSAGE_DELIVERY: a message reaches its mailbox, or a reply its sender. A message to another device is answered from there: an ACCESS late report, the entry into the mailbox, the end of an
AMSG's handler, or the reply of a remote operation (a failed RSTF answers with data). -/
def State.deliverMsg (s : State) (id : Nat) (ans : Answer) : State :=
  match kfind id s.flights with
  | none => s
  | some w =>
    if tidDevice w.target = s.dev then (match w.reply with | some r => s.takeReply w r | none => s.arriveMsg id)
    else match w.msg.op with
      | some (o, _) =>
        (match ans.cause, o with
          | some c, _ => s.replyFault w o c
          | none, .fullEmpty _ _ _ => if ans.data.isEmpty then s.replyOk w o 0 false else s.replyFull w
          | none, _ => s.replyOk w o (ofBytes ans.data) ans.taint)
      | none =>
        match ans.cause with
        | some c => s.lateMsg id c
        | none =>
          if w.user ∧ !w.entered then { s with flights := kset id { w with entered := true } s.flights }
          else ({ s with flights := kdel id s.flights }).modCnt w.who Counts.subSt

/-- MESSAGE_DELIVERY, R311. -/
def execMessageDelivery (id : Nat) (ans : Answer) (σ : State) : Out :=
  .next ((σ.done (.messageDelivery id noAnswer)).deliverMsg id ans)

/-- MESSAGE_RESEND, R309. -/
def execMessageResend (id : Nat) (σ : State) : Out :=
  .next (let σ := σ.done (.messageResend id)
    match kfind id σ.flights with
    | some w => if w.refused ∧ !w.entered then σ.arriveMsg id else σ
    | none => σ)

/-- HANDLER_START (R314): slot 15 runs the user handler of the oldest entry of its mailbox. -/
def State.startHandler (s : State) (f : Nat) : State :=
  let sl := s.slot f 15
  match sl.job, sl.trap, sl.mbox with
  | .vacant, none, m :: _ =>
    if m.op.isSome then s
    else
      let race := !s.isDet m.ctx m.seq && sl.raced
      let th : Thread := { pc := m.hnd }
      let th := ((th.wx 5 (m.pay.extractLsb' 0 64) (race || m.tnt.extractLsb' 0 2 != 0)).wx 6 (m.pay.extractLsb' 64 64)
        (race || m.tnt.extractLsb' 2 2 != 0)).wx 7 (zext64 m.tag) false
      let q := sl.dequeue
      let new : Slot := { th := th, job := .handler m.ctx m.seq m.id, msrc := m.src, msrcT := race, mbox := q.mbox, spill := q.spill,
                          stalls := sl.stalls, sdc := sl.sdc }
      (s.setSlot f 15 new).traceEvent f 15 6 (m.src.toNat % 2 ^ 27) m.hnd (zext64 m.tag)
  | _, _, _ => s

/-- HANDLER_START, R314. -/
def execHandlerStart (f : Nat) (σ : State) : Out := .next ((σ.done (.handlerStart f)).startHandler f)

end Sys2Proof.Machine
end

