-- ==== Sys2Proof/Machine/Vector.lean ====
section
/-! DEFINITION. Lanes, the vector sequencer and vector instructions: grants (R255 to R257), entry and start (R261 to R263), loops and
streams (R264 to R267), vector memory (R268), and pair-merge (R278, R279). -/

namespace Sys2Proof.Machine

/-! Grants (R255 to R257). -/

/-- The lanes of a prism that facets with DET tasks have taken, 32 each whatever their grants are now (R376), and those granted to other
facets or reserved for them. -/
def State.lanesKept (s : State) (p : Nat) : Nat := 32 * ((List.range 8).filter fun i => (s.facet (p * 8 + i)).kept).length
def State.lanesElastic (s : State) (p : Nat) : Nat :=
  (List.range 8).foldl (fun n i =>
    let x := s.facet (p * 8 + i)
    n + x.reserved + (if x.kept then 0 else x.grant)) 0

/-- Lanes of a prism that are neither kept for DET tasks, granted nor reserved: a DETL below the lanes that DET facets hold takes effect
as these are freed (R380). -/
def State.lanesFree (s : State) (p : Nat) : Nat := 256 - max (s.prism p).detl.toNat (s.lanesKept p) - s.lanesElastic p

/-- The lanes kept for DET tasks that no facet holds: a DETL above what others leave takes effect as their lanes are freed (R255). -/
def State.keptFree (s : State) (p : Nat) : Nat := min (s.prism p).detl.toNat (256 - s.lanesElastic p) - s.lanesKept p

/-- A facet's grant changes: contents of lanes at and above a smaller grant are lost, and read as zero when granted again. -/
def Facet.regrant (x : Facet) (h : Nat) : Facet :=
  if x.grant ≤ h then { x with grant := h }
  else
    let keep := fun (v : VReg) =>
      ({ bits := v.bits &&& BitVec.ofNat 8192 (2 ^ (32 * h) - 1), taint := v.taint &&& BitVec.ofNat 256 (2 ^ h - 1) } : VReg)
    { x with grant := h, v := x.v.map fun (k, v) => (k, keep v) }

/-- Lanes freed by a cut are reserved in ascending facet order for facets with unmet claims. -/
def State.reserveGo (s : State) : List Nat → Nat → State
  | [], _ => s
  | f :: fs, n =>
    let x := s.facet f
    let k := min n x.unmet
    (s.setFacet f { x with reserved := x.reserved + k, unmet := x.unmet - k }).reserveGo fs (n - k)

/-- A re-negotiation point of a facet that holds more than 32 lanes while another facet of its prism has an unmet claim: its grant
falls to 32 first (R257). -/
def State.cutForUnmet (s : State) (f : Nat) : State :=
  let p := prismOf f
  let others := ((List.range 8).map fun i => p * 8 + i).filter fun g => g != f && (s.facet g).unmet != 0
  let x := s.facet f
  if x.kept || x.grant ≤ 32 || others.isEmpty then s
  else (s.setFacet f (x.regrant 32)).reserveGo others (x.grant - 32)

/-- n′ of a claim. -/
def lanesAsked (v : Word) : Nat := (min v.toNat 256 + 7) / 8 * 8

/-- VCLAIM's new grant (R257). -/
def State.claim (s : State) (f : Nat) (n : Nat) : State :=
  let s := s.cutForUnmet f
  let x := s.facet f
  if x.kept then s.setFacet f (x.regrant (min n 32))
  else
    let h := if n ≤ x.grant then n else x.grant + min (n - x.grant) (s.lanesFree (prismOf f) + x.reserved)
    s.setFacet f { x.regrant h with reserved := 0, unmet := min n 32 - h }

/-- A facet holds a task of a DET entry; it holds a tile task. -/
def State.holdsDet (s : State) (f : Nat) : Bool := s.fixedRotation f
def Facet.holdsTask (x : Facet) : Bool := x.slots.any fun (_, sl) => match sl.job with | .task _ _ _ _ => true | _ => false

/-- The grant at a task start, before the slot holds the task (R256). -/
def State.grantAtStart (s : State) (f : Nat) (det : Bool) : State :=
  let s := s.cutForUnmet f
  let x := s.facet f
  if det then (if x.kept then s else s.setFacet f { x.regrant 32 with kept := true, reserved := 0, unmet := 0 })
  else if x.holdsTask then s
  else s.setFacet f (x.regrant (min 32 (x.grant + s.lanesFree (prismOf f))))

/-- The grant at a task end, after the slot is vacant (R256). Lanes reserved for a facet, and its unmet claim, go with its last task or when
it comes to hold a DET task: the reference says nothing of them then (log 72). -/
def State.grantAtEnd (s : State) (f : Nat) : State :=
  let s := s.cutForUnmet f
  let x := s.facet f
  if !x.holdsTask then s.setFacet f { x.regrant 0 with kept := false, reserved := 0, unmet := 0 }
  else if x.kept && !s.holdsDet f then
    let free := (s.setFacet f { x with kept := false, grant := 0 }).lanesFree (prismOf f)
    s.setFacet f { x.regrant (if x.grant ≤ free then x.grant else free / 8 * 8) with kept := false }
  else s

/-! Entering the sequencer (R259 to R263). -/

/-- How w(12 + k) will be bound when what is in the sequencer has started: direction and element width. -/
def Facet.boundAs (x : Facet) (k : Nat) : Option (Bool × Nat) :=
  (x.seqQ.flatMap fun i => i.body).foldl
    (fun b v => match v.ins, v.desc with
      | .vbind _ k' _, some st => if k'.toNat = k then some (st.drain, st.esz.bits) else b
      | .vunbind k', _ => if k'.toNat = k then none else b
      | _, _ => b)
    ((kfind k x.streams).map fun st => (st.drain, st.esz.bits))

/-- A bound register is read as a fill stream and written as a drain stream, at its own element width (R267). -/
def Facet.streamsOk (x : Facet) (i : VInfo) : Bool :=
  let ok := fun (drain : Bool) (r, w) =>
    if 28 ≤ r then (match x.boundAs (r - 28) with | some (d, e) => d == drain && e == w | none => true) else true
  i.srcs.all (ok false) && i.dsts.all (ok true)

/-- Entries of a facet's sequencer in use: those of a body being entered and of accesses awaiting acceptance count. -/
def State.seqUsed (s : State) (f : Nat) : Nat :=
  let x := s.facet f
  (x.seqQ.map fun i => i.body.length).sum + (x.slots.map fun (_, sl) => sl.loopLeft).sum +
    (s.reqs.filter fun (_, r) => match r.who, r.op, r.stage with
      | .slot g _, .vload _ _ _, st | .slot g _, .vstore _ _, st => g == f && st != .returning
      | _, _, _ => false).length

/-- An entry joins the sequencer: the body its slot is entering, or the end. -/
def Facet.enter (x : Facet) (v : VIns) : Facet :=
  let sl := x.slot v.slot
  if sl.loopLeft = 0 then { x with seqQ := x.seqQ ++ [{ body := [v], slot := v.slot }] }
  else
    let more := decide (1 < sl.loopLeft)
    let x := x.setSlot v.slot { sl with loopLeft := sl.loopLeft - 1 }
    let join := fun (i : SeqItem) => { i with body := i.body ++ [v], filling := more }
    { x with seqQ := modFirst (fun (i : SeqItem) => i.filling && i.slot == v.slot) join x.seqQ }

/-- A vector instruction as it is at its issue. -/
def State.vins (s : State) (n : Nat) (sl : Slot) (i : Instr) (info : VInfo) : VIns :=
  let t := sl.th
  let p := t.pre
  { id := s.nextId, slot := n, ins := i, pc := t.pc, vl := sl.vl.toNat, rm := if info.fp then t.mode else .rne, sat := t.saturates,
    fa := p.fa, fd := p.fd, key := t.rkey, traps := if info.fp then rndTraps t.rnd else 0,
    xa := t.rx info.ra, xb := t.rx info.rb, xat := t.tx info.ra, xbt := t.tx info.rb }

/-- The slot's instruction retires into the sequencer; its scalar destination awaits the result (R263). -/
def State.enterVec (s : State) (f : Nat) (v : VIns) (xd : BitVec 5) : State :=
  let s := ({ s with nextId := max s.nextId (v.id + 1) }).setFacet f ((s.facet f).enter v)
  let s := s.pushDue (.sequencerStart f)
  s.retireAs (.slot f v.slot) ((s.slot f v.slot).th.await xd true)

/-- Issue of a vector instruction: decode refuses the formats of a prefix (R188); streams and lanes are checked, then what `chk` adds,
and it enters unless the sequencer is full. -/
def vecIssue (σ : State) (i : Instr) (chk : State → VIns → (State → Out) → Out := fun s _ k => k s) : Out :=
  let need := vinfo i none
  let p := (σ.thread σ.turn).pre
  let refuse := if (vinfo i p.fd).accepts p then none else some cILLEGAL
  issue σ { core := false, handler := false, body := true, prefixed := need.pre, refuse, reads := [need.ra, need.rb],
            writes := [need.xd] } fun t =>
    onSlot σ fun f n sl =>
      let info := vinfo i t.pre.fd
      let v := σ.vins n sl i info
      let x := σ.facet f
      if !x.streamsOk info then faultOut σ cILLEGAL
      else if info.widths.any fun w => x.grant < lanesFor w v.vl then faultOut σ cLANES
      else if sl.loopLeft = 0 ∧ 16 ≤ σ.seqUsed f then stall σ clQFULL
      else chk σ v fun σ => .next (σ.enterVec f v info.xd)

/-! Vector memory (R268). -/

/-- The bit address of element e of an access: unit-stride elements are packed. -/
def vecBit (strided : Bool) (w : Nat) (v : VIns) (e : Nat) : Nat :=
  if strided then 8 * (v.xa + BitVec.ofNat 64 e * v.xb).toNat else 8 * v.xa.toNat + w * e

/-- The byte ranges of an access over all vl elements. -/
def vecRanges (strided : Bool) (w : Nat) (v : VIns) : List (Nat × Nat) :=
  if strided then (List.range v.vl).map fun e => (vecBit true w v e / 8, w / 8)
  else if v.vl = 0 then [] else [(v.xa.toNat, (v.vl * w + 7) / 8)]

/-- The address of the first element that is not aligned. -/
def vecAskew (strided : Bool) (w : Nat) (v : VIns) : Option Nat :=
  let k := if w = 6 then 3 else if w = 4 then 1 else w / 8
  if strided then ((List.range v.vl).map fun e => vecBit true w v e / 8).find? fun a => a % k != 0
  else if v.vl ≠ 0 ∧ v.xa.toNat % k ≠ 0 then some v.xa.toNat else none

/-- The byte ranges that watchpoints see: those of the active elements, by v15 as it stands at the issue (R413, log 76). -/
def State.vecTouched (s : State) (f : Nat) (strided : Bool) (w : Nat) (v : VIns) : List (Nat × Nat) :=
  if !(vinfo v.ins v.fd).m then vecRanges strided w v
  else
    let mask := (kget {} (s.facet f).v (16 * v.slot + 15)).bits
    ((List.range v.vl).filter mask.getLsbD).map fun e => let b := vecBit strided w v e; (b / 8, (b % 8 + w + 7) / 8)

/-- The checks of a local form: ALIGN, LSRANGE, watchpoints. -/
def vecLocal (σ : State) (strided : Bool) (w : Nat) (wr : Bool) (v : VIns) (k : State → Out) : Out :=
  onSlot σ fun f n sl =>
    let rs := vecRanges strided w v
    match vecAskew strided w v, rs.find? (fun (a, l) => !sl.holdsRange a l) with
    | some a, _ => faultOut σ cALIGN (BitVec.ofNat 64 a)
    | none, some (a, _) => faultOut σ cLSRANGE (BitVec.ofNat 64 a)
    | none, none => watched σ ((σ.vecTouched f strided w v).map fun (a, l) => { local' := true, facet := f, base := a, len := l, rd := !wr, wr := wr })
        fun σ => if (σ.slot f n).job = .vacant then .next σ else k σ

/-- Bytes [va, va + n) of a prism's cache over bytes fetched earlier. -/
def State.overlay (s : State) (p c : Nat) (va : Word) (got : List (Byte × Bool × Bool)) : List (Byte × Bool × Bool) :=
  got.zipIdx.map fun (g, i) =>
    match s.prismRead p c (va + BitVec.ofNat 64 i) 1 with
    | some r => ((r.bytes[0]?).getD 0, r.taint, r.poison)
    | none => g

/-- Every byte of a range is valid in a prism's cache, in lines whose read or write permission is recorded (R228). -/
def State.cached (s : State) (p c : Nat) (va : Word) (n : Nat) (wr : Bool) : Bool :=
  (piecesOf va.toNat n).all fun (a, k) =>
    let l := s.prismLine p (s.lineKey c (BitVec.ofNat 64 a))
    if wr then l.wr else l.rd && l.has (a % 512) k

/-- The checks of a global form: ALIGN, watchpoints, acceptance of every line it touches where the prism cache does not hold the
permission (R228, R229). -/
def vecGlobal (σ : State) (w : Nat) (wr : Bool) (v : VIns) (k : State → Out) : Out :=
  onSlot σ fun f n sl =>
    let len := (v.vl * w + 7) / 8
    let c := (sl.owner.map Prod.fst).getD 0
    let p := prismOf f
    if (vecAskew false w v).isSome then faultOut σ cALIGN v.xa
    else if len = 0 then k σ
    else if (if wr then 63 ≤ sl.cnt.st else 63 ≤ sl.cnt.ld) then stall σ clQFULL
    else if σ.reqs.any fun (_, r) => r.who == σ.turn && r.op.isSc then stall σ clFENCE
    else if σ.ownOver σ.turn v.xa len (sl.loopLeft != 0) then stall σ clFENCE
    else if (piecesOf v.xa.toNat len).any fun (a, _) => σ.whereIs (BitVec.ofNat 64 a) = .nowhere then faultOut σ cNOMAP v.xa
    else watched σ ((σ.vecTouched f false w v).map fun (a, l) => { local' := false, base := a, len := l, rd := !wr, wr := wr }) fun σ =>
      let a : Agent := .slot f n
      let σ := σ.modCnt a (if wr then Counts.addSt else Counts.addLd)
      let (id, σ) := σ.newReq a c v.xa v.pc (if wr then .vstore v len else .vload { v with late := sl.loopLeft != 0 } len [])
      let v := { v with req := some id, id := id, late := !wr && sl.loopLeft != 0 }
      if σ.cached p c v.xa len wr then
        let σ := σ.done (.acceptance id noAnswer)
        match σ.req id with
        | none => .next σ
        | some r =>
          let op : ReqOp := if wr then .vstore v len else .vload v len (σ.overlay p c v.xa (List.replicate len (0, false, false)))
          .next ((σ.setReq id { r with op := op, stage := .returning }).enterVec f v 0)
      else .next (σ.parkFor a .accept v.xa id)

/-- VLDL, R268. -/
def execVldl (m : Bool) (a : BitVec 5) (w : VWidth) (d : BitVec 5) (σ : State) : Out :=
  vecIssue σ (.vldl m a w d) fun s v k => vecLocal s false w.bits false v k
/-- VSTL, R268. -/
def execVstl (m : Bool) (a : BitVec 5) (w : VWidth) (d : BitVec 5) (σ : State) : Out :=
  vecIssue σ (.vstl m a w d) fun s v k => vecLocal s false w.bits true v k
/-- VLDLS, R268. -/
def execVldls (m : Bool) (b a : BitVec 5) (w : VIWidth) (d : BitVec 5) (σ : State) : Out :=
  vecIssue σ (.vldls m b a w d) fun s v k => vecLocal s true (iBits w) false v k
/-- VSTLS, R268. -/
def execVstls (m : Bool) (b a : BitVec 5) (w : VIWidth) (d : BitVec 5) (σ : State) : Out :=
  vecIssue σ (.vstls m b a w d) fun s v k => vecLocal s true (iBits w) true v k
/-- VLD, R268. -/
def execVld (m : Bool) (a : BitVec 5) (w : VWidth) (d : BitVec 5) (σ : State) : Out :=
  vecIssue σ (.vld m a w d) fun s v k => vecGlobal s w.bits false v k
/-- VST, R268. -/
def execVst (m : Bool) (a : BitVec 5) (w : VWidth) (d : BitVec 5) (σ : State) : Out :=
  vecIssue σ (.vst m a w d) fun s v k => vecGlobal s w.bits true v k

/-! VOP and VFX (R269 to R277). -/

/-- VADD, R269. -/
def execVadd (u m : Bool) (b a : BitVec 5) (w : VIWidth) (d : BitVec 5) (σ : State) : Out := vecIssue σ (.vadd u m b a w d)
/-- VSUB, R269. -/
def execVsub (u m : Bool) (b a : BitVec 5) (w : VIWidth) (d : BitVec 5) (σ : State) : Out := vecIssue σ (.vsub u m b a w d)
/-- VMUL, R269. -/
def execVmul (u m : Bool) (b a : BitVec 5) (w : VIWidth) (d : BitVec 5) (σ : State) : Out := vecIssue σ (.vmul u m b a w d)
/-- VMULH, R269. -/
def execVmulh (u m : Bool) (b a : BitVec 5) (w : VIWidth) (d : BitVec 5) (σ : State) : Out :=
  vecIssue σ (.vmulh u m b a w d)
/-- VMIN, R269. -/
def execVmin (u m : Bool) (b a : BitVec 5) (w : VIWidth) (d : BitVec 5) (σ : State) : Out := vecIssue σ (.vmin u m b a w d)
/-- VMAX, R269. -/
def execVmax (u m : Bool) (b a : BitVec 5) (w : VIWidth) (d : BitVec 5) (σ : State) : Out := vecIssue σ (.vmax u m b a w d)
/-- VAND, R269. -/
def execVand (u m : Bool) (b a : BitVec 5) (w : VIWidth) (d : BitVec 5) (σ : State) : Out := vecIssue σ (.vand u m b a w d)
/-- VOR, R269. -/
def execVor (u m : Bool) (b a : BitVec 5) (w : VIWidth) (d : BitVec 5) (σ : State) : Out := vecIssue σ (.vor u m b a w d)
/-- VXOR, R269. -/
def execVxor (u m : Bool) (b a : BitVec 5) (w : VIWidth) (d : BitVec 5) (σ : State) : Out := vecIssue σ (.vxor u m b a w d)
/-- VSHL, R269. -/
def execVshl (u m : Bool) (b a : BitVec 5) (w : VIWidth) (d : BitVec 5) (σ : State) : Out := vecIssue σ (.vshl u m b a w d)
/-- VSHR, R269. -/
def execVshr (u m : Bool) (b a : BitVec 5) (w : VIWidth) (d : BitVec 5) (σ : State) : Out := vecIssue σ (.vshr u m b a w d)
/-- VADDS, R269. -/
def execVadds (u m : Bool) (b a : BitVec 5) (w : VIWidth) (d : BitVec 5) (σ : State) : Out :=
  vecIssue σ (.vadds u m b a w d)
/-- VSUBS, R269. -/
def execVsubs (u m : Bool) (b a : BitVec 5) (w : VIWidth) (d : BitVec 5) (σ : State) : Out :=
  vecIssue σ (.vsubs u m b a w d)
/-- VCMPEQ, R270. -/
def execVcmpeq (u m : Bool) (b a : BitVec 5) (w : VIWidth) (d : BitVec 5) (σ : State) : Out :=
  vecIssue σ (.vcmpeq u m b a w d)
/-- VCMPLT, R270. -/
def execVcmplt (u m : Bool) (b a : BitVec 5) (w : VIWidth) (d : BitVec 5) (σ : State) : Out :=
  vecIssue σ (.vcmplt u m b a w d)
/-- VCMPLE, R270. -/
def execVcmple (u m : Bool) (b a : BitVec 5) (w : VIWidth) (d : BitVec 5) (σ : State) : Out :=
  vecIssue σ (.vcmple u m b a w d)
/-- VFADD, R270. -/
def execVfadd (t : VFTyp) (m : Bool) (b a d : BitVec 5) (σ : State) : Out := vecIssue σ (.vfadd t m b a d)
/-- VFSUB, R270. -/
def execVfsub (t : VFTyp) (m : Bool) (b a d : BitVec 5) (σ : State) : Out := vecIssue σ (.vfsub t m b a d)
/-- VFMUL, R270. -/
def execVfmul (t : VFTyp) (m : Bool) (b a d : BitVec 5) (σ : State) : Out := vecIssue σ (.vfmul t m b a d)
/-- VFDIV, R270. -/
def execVfdiv (t : VFTyp) (m : Bool) (b a d : BitVec 5) (σ : State) : Out := vecIssue σ (.vfdiv t m b a d)
/-- VFMIN, R269. -/
def execVfmin (t : VFTyp) (m : Bool) (b a d : BitVec 5) (σ : State) : Out := vecIssue σ (.vfmin t m b a d)
/-- VFMAX, R269. -/
def execVfmax (t : VFTyp) (m : Bool) (b a d : BitVec 5) (σ : State) : Out := vecIssue σ (.vfmax t m b a d)
/-- VFMA, R270. -/
def execVfma (t : VFTyp) (m : Bool) (b a d : BitVec 5) (σ : State) : Out := vecIssue σ (.vfma t m b a d)
/-- VFNMA, R270. -/
def execVfnma (t : VFTyp) (m : Bool) (b a d : BitVec 5) (σ : State) : Out := vecIssue σ (.vfnma t m b a d)
/-- VFCMPUN, R269. -/
def execVfcmpun (t : VFTyp) (m : Bool) (b a d : BitVec 5) (σ : State) : Out := vecIssue σ (.vfcmpun t m b a d)
/-- VFSQRT, R270. -/
def execVfsqrt (t : VFTyp) (m : Bool) (a d : BitVec 5) (σ : State) : Out := vecIssue σ (.vfsqrt t m a d)
/-- VFSGNJ, R269. -/
def execVfsgnj (t : VFTyp) (m : Bool) (b a d : BitVec 5) (σ : State) : Out := vecIssue σ (.vfsgnj t m b a d)
/-- VFSGNJN, R269. -/
def execVfsgnjn (t : VFTyp) (m : Bool) (b a d : BitVec 5) (σ : State) : Out := vecIssue σ (.vfsgnjn t m b a d)
/-- VFSGNJX, R269. -/
def execVfsgnjx (t : VFTyp) (m : Bool) (b a d : BitVec 5) (σ : State) : Out := vecIssue σ (.vfsgnjx t m b a d)
/-- VFCMPEQ, R269. -/
def execVfcmpeq (t : VFTyp) (m : Bool) (b a d : BitVec 5) (σ : State) : Out := vecIssue σ (.vfcmpeq t m b a d)
/-- VFCMPLT, R269. -/
def execVfcmplt (t : VFTyp) (m : Bool) (b a d : BitVec 5) (σ : State) : Out := vecIssue σ (.vfcmplt t m b a d)
/-- VFCMPLE, R269. -/
def execVfcmple (t : VFTyp) (m : Bool) (b a d : BitVec 5) (σ : State) : Out := vecIssue σ (.vfcmple t m b a d)
/-- VCVT_F, R272. -/
def execVcvtF (m : Bool) (b : Fmt) (a : BitVec 5) (w : VWidth) (d : BitVec 5) (σ : State) : Out :=
  vecIssue σ (.vcvtF m b a w d)
/-- VCVT_I, R272. -/
def execVcvtI (m : Bool) (b : Fmt) (a : BitVec 5) (w : VWidth) (d : BitVec 5) (σ : State) : Out :=
  vecIssue σ (.vcvtI m b a w d)
/-- VQNT32, R273. -/
def execVqnt32 (m : Bool) (b : Fmt) (a d : BitVec 5) (σ : State) : Out := vecIssue σ (.vqnt32 m b a d)
/-- VQNT128, R273. -/
def execVqnt128 (m : Bool) (b : Fmt) (a d : BitVec 5) (σ : State) : Out := vecIssue σ (.vqnt128 m b a d)
/-- VQNT256, R273. -/
def execVqnt256 (m : Bool) (b : Fmt) (a d : BitVec 5) (σ : State) : Out := vecIssue σ (.vqnt256 m b a d)
/-- VDQNT32, R274. -/
def execVdqnt32 (m : Bool) (b : Fmt) (a d : BitVec 5) (σ : State) : Out := vecIssue σ (.vdqnt32 m b a d)
/-- VDQNT128, R274. -/
def execVdqnt128 (m : Bool) (b : Fmt) (a d : BitVec 5) (σ : State) : Out := vecIssue σ (.vdqnt128 m b a d)
/-- VDQNT256, R274. -/
def execVdqnt256 (m : Bool) (b : Fmt) (a d : BitVec 5) (σ : State) : Out := vecIssue σ (.vdqnt256 m b a d)
/-- VEXP2, R275. -/
def execVexp2 (m : Bool) (a : BitVec 5) (w : VSWidth) (d : BitVec 5) (σ : State) : Out := vecIssue σ (.vexp2 m a w d)
/-- VLOG2, R275. -/
def execVlog2 (m : Bool) (a : BitVec 5) (w : VSWidth) (d : BitVec 5) (σ : State) : Out := vecIssue σ (.vlog2 m a w d)
/-- VRCP, R275. -/
def execVrcp (m : Bool) (a : BitVec 5) (w : VSWidth) (d : BitVec 5) (σ : State) : Out := vecIssue σ (.vrcp m a w d)
/-- VRSQRT, R275. -/
def execVrsqrt (m : Bool) (a : BitVec 5) (w : VSWidth) (d : BitVec 5) (σ : State) : Out := vecIssue σ (.vrsqrt m a w d)
/-- VCLZ, R276. -/
def execVclz (m : Bool) (a : BitVec 5) (w : VCWidth) (d : BitVec 5) (σ : State) : Out := vecIssue σ (.vclz m a w d)
/-- VCTZ, R276. -/
def execVctz (m : Bool) (a : BitVec 5) (w : VCWidth) (d : BitVec 5) (σ : State) : Out := vecIssue σ (.vctz m a w d)
/-- VFFS, R276. -/
def execVffs (m : Bool) (a : BitVec 5) (w : VCWidth) (d : BitVec 5) (σ : State) : Out := vecIssue σ (.vffs m a w d)
/-- VPOPC, R276. -/
def execVpopc (m : Bool) (a : BitVec 5) (w : VCWidth) (d : BitVec 5) (σ : State) : Out := vecIssue σ (.vpopc m a w d)
/-- VBCAST, R276. -/
def execVbcast (m : Bool) (a : BitVec 5) (w : VWidth) (d : BitVec 5) (σ : State) : Out := vecIssue σ (.vbcast m a w d)
/-- VEXT, R276. -/
def execVext (m : Bool) (b a : BitVec 5) (w : VIWidth) (d : BitVec 5) (σ : State) : Out := vecIssue σ (.vext m b a w d)
/-- VINS, R276. -/
def execVins (m : Bool) (b a : BitVec 5) (w : VIWidth) (d : BitVec 5) (σ : State) : Out := vecIssue σ (.vins m b a w d)
/-- VPERM, R276. -/
def execVperm (m : Bool) (b a : BitVec 5) (w : VIWidth) (d : BitVec 5) (σ : State) : Out := vecIssue σ (.vperm m b a w d)
/-- VSLUP, R276. -/
def execVslup (m : Bool) (b a : BitVec 5) (w : VWidth) (d : BitVec 5) (σ : State) : Out := vecIssue σ (.vslup m b a w d)
/-- VSLDN, R276. -/
def execVsldn (m : Bool) (b a : BitVec 5) (w : VWidth) (d : BitVec 5) (σ : State) : Out := vecIssue σ (.vsldn m b a w d)
/-- VIOTA, R276. -/
def execViota (m : Bool) (w : VIWidth) (d : BitVec 5) (σ : State) : Out := vecIssue σ (.viota m w d)
/-- VMV, R276. -/
def execVmv (m : Bool) (a : BitVec 5) (w : VWidth) (d : BitVec 5) (σ : State) : Out := vecIssue σ (.vmv m a w d)
/-- VRSUM, R277. -/
def execVrsum (m : Bool) (b : Fmt) (a : BitVec 5) (w : VWidth) (d : BitVec 5) (σ : State) : Out :=
  vecIssue σ (.vrsum m b a w d)
/-- VRMAX, R277. -/
def execVrmax (m : Bool) (b : Fmt) (a : BitVec 5) (w : VWidth) (d : BitVec 5) (σ : State) : Out :=
  vecIssue σ (.vrmax m b a w d)
/-- VRMIN, R277. -/
def execVrmin (m : Bool) (b : Fmt) (a : BitVec 5) (w : VWidth) (d : BitVec 5) (σ : State) : Out :=
  vecIssue σ (.vrmin m b a w d)
/-- VSCAN, R277. -/
def execVscan (m : Bool) (b : Fmt) (a : BitVec 5) (w : VWidth) (d : BitVec 5) (σ : State) : Out :=
  vecIssue σ (.vscan m b a w d)

/-! Streams (R266, R267). -/

/-- The number of elements of a stream, and the address of element e. -/
def Stream.total (st : Stream) : Nat := st.n.foldl (· * ·) 1
def Stream.address (st : Stream) (e : Nat) : Int :=
  ((st.n.zip st.s).foldl (fun (a, r) (n, k) => (a + (r % n : Nat) * k, r / n)) ((st.base : Int), e)).1

/-- The lowest and the highest element address. -/
def Stream.bounds (st : Stream) : Int × Int :=
  (st.n.zip st.s).foldl (fun (lo, hi) (n, k) => (lo + min 0 (((n : Int) - 1) * k), hi + max 0 (((n : Int) - 1) * k)))
    ((st.base : Int), (st.base : Int))

/-- A drain buffer holds at most 256 elements (log 5). -/
def streamRoom : Nat := 256

/-- The streams that an instruction reads or writes. -/
def VInfo.fills (i : VInfo) (x : Facet) : List Nat :=
  ((i.srcs.filter fun (r, _) => ((x.streamOf r).map (!·.drain)).getD false).map fun (r, _) => r - 28).dedup
def VInfo.drains (i : VInfo) (x : Facet) : List Nat :=
  ((i.dsts.filter fun (r, _) => ((x.streamOf r).map (·.drain)).getD false).map fun (r, _) => r - 28).dedup

/-- An instruction that started before the n-th start gives elements to a drain that are not yet written: accesses of the sequencer to local
store take place in entry order (R134). -/
def Facet.draining (x : Facet) (n : Nat) : Bool :=
  (x.streams.any fun (_, st) => st.owed.any fun o => decide (o.2.2 < n)) ||
    x.inflight.any fun r => decide (r.start < n) && r.drains.any fun d => !d.2.2.isEmpty

/-- The instruction whose element a drain writes next, and the number of its start. -/
def Stream.owner (st : Stream) : Nat × Nat := (st.owed.head?.map fun o => (o.1, o.2.2)).getD (0, 0)

/-- The instruction that the sequencer starts next. -/
def Facet.seqHead (x : Facet) : Option VIns :=
  match x.seqQ with
  | i :: _ => if i.filling then none else i.body[i.pos]?
  | [] => none

/-- A local access of a sequencer entry stalls: a copy that recorded it as older does not stall it (R100, R135). -/
def State.seqCovered (s : State) (f : Nat) (id a k : Nat) (wr : Bool) : Bool :=
  (s.facet f).sb.any fun e =>
    overlaps e.laddr e.len a k && (!e.dir || wr) && !((kfind e.op s.copies).map (·.ahead.contains id)).getD false

/-- Whether the transfer unit of a stream can move its next element: the scoreboard does not cover it. Elements are fetched for the
instruction that starts next, after what older instructions write there (R134, log 52). -/
def State.streamMoves (s : State) (f k : Nat) (st : Stream) : Bool :=
  let x := s.facet f
  let w := st.esz.bits / 8
  if st.drain then
    match st.buf with
    | [] => false
    | (e, _, _) :: _ => !s.seqCovered f st.owner.1 (st.address e).toNat w true && !x.draining st.owner.2
  else match x.seqHead with
    | none => false
    | some v =>
      let a := (st.address st.fetched).toNat
      ((vinfo v.ins v.fd).fills x).contains k && decide (st.fetched < st.total) && decide (st.fetched < st.pos + v.vl) &&
        !s.seqCovered f v.id a w false && !x.draining x.starts

/-- A drain's first element is written (R267). -/
def Stream.written (st : Stream) (rest : List (Nat × BitVec 64 × Bool)) : Stream :=
  { st with buf := rest, owed := st.owed.filter fun o => rest.any fun b => decide (b.1 < o.2.1) }

/-- STREAM_TRANSFER: the transfer unit of w(12 + k) moves one element between local store and the stream. -/
def State.streamStep (s : State) (f k : Nat) : State :=
  let x := s.facet f
  match kfind k x.streams with
  | none => s
  | some st =>
    if !s.streamMoves f k st then s
    else
      let w := st.esz.bits / 8
      let s : State :=
        if st.drain then
          match st.buf with
          | [] => s
          | (e, v, t) :: rest =>
            let x := x.enginePut (st.address e).toNat (toBytes w v.toNat) fun _ => t
            (s.setFacet f { x with streams := kset k (st.written rest) x.streams }).retest f
        else
          let a := (st.address st.fetched).toNat
          let b : Nat × BitVec 64 × Bool := (st.fetched, BitVec.ofNat 64 (ofBytes (x.lsBytes a w)), x.lsTaint a w)
          s.setFacet f { x with streams := kset k { st with buf := st.buf ++ [b], fetched := st.fetched + 1 } x.streams }
      let x := s.facet f
      let s := if ((kfind k x.streams).map (s.streamMoves f k)).getD false then s.pushDue (.streamTransfer f k) else s
      if x.seqQ.isEmpty then s else s.pushDue (.sequencerStart f)

/-- STREAM_TRANSFER, R267. -/
def execStreamTransfer (f k : Nat) (σ : State) : Out := .next ((σ.done (.streamTransfer f k)).streamStep f k)

/-- The streams of an instruction have what it needs: vl fetched elements, or room for vl. -/
def Facet.streamsReady (x : Facet) (i : VInfo) (vl : Nat) : Bool :=
  ((i.fills x).all fun k => match kfind k x.streams with
    | some st => decide (min vl (st.total - st.pos) ≤ (st.buf.filter fun b => st.pos ≤ b.1).length)
    | none => true) &&
  ((i.drains x).all fun k => match kfind k x.streams with
    | some st => st.buf.isEmpty || decide (st.buf.length + vl ≤ streamRoom)
    | none => true)

/-! Start (R261, R262). -/

/-- The arguments of a vector instruction that starts, with the draws of its slot's counter. -/
def Facet.vargs (x : Facet) (v : VIns) (m : Bool) : VArgs :=
  let mask := (x.vreg v.slot 15).bits
  let ctr := (x.slot v.slot).th.rctr
  { vl := v.vl, active := fun e => e < v.vl && (!m || mask.getLsbD e), src := x.source v.slot,
    rnd := fun i => { mode := v.rm, sat := v.sat, draw := draw v.key ctr i }, fa := v.fa, fd := v.fd, xa := v.xa, xb := v.xb, xat := v.xat }

/-- Older instructions have written what an instruction reads, and its own slot's what it writes; those that give elements to a drain it
writes have given them (R134). -/
def Facet.settled (x : Facet) (v : VIns) (i : VInfo) : Bool :=
  let reads := ((if i.m then [15] else []) ++ i.srcs.map Prod.fst).map (vkey v.slot)
  let writes := i.dsts.map fun (r, _) => vkey v.slot r
  x.inflight.all fun r =>
    !(r.writes.any fun u => reads.contains u.reg) && !(r.slot == v.slot && r.writes.any fun u => writes.contains u.reg) &&
      !(r.drains.any fun d => (i.drains x).contains d.1)

/-- Elements read from n bytes of memory at a bit offset each. -/
def elemAt (b : List (Byte × Bool × Bool)) (bit w : Nat) : Nat × Bool :=
  let k := (bit % 8 + w + 7) / 8
  let bs := (b.drop (bit / 8)).take k
  (ofBytes (bs.map Prod.fst) / 2 ^ (bit % 8) % 2 ^ w, bs.any fun c => c.2.1)

/-- The bytes that a store of active elements writes, with their taint: whole elements, or for packed elements under a byte whole
bytes of the register's stream (R268). -/
def vecBytes (g : VArgs) (strided : Bool) (w : Nat) (v : VIns) (d : BitVec 5) : List (Nat × Byte × Bool) :=
  if 8 ≤ w then
    (g.ranks.map Prod.fst).flatMap fun e =>
      let (x, t) := g.src d.toNat w e
      (toBytes (w / 8) x).zipIdx.map fun (b, i) => (vecBit strided w v e / 8 + i, b, t)
  else
    (List.range ((v.vl * w + 7) / 8)).filterMap fun j =>
      if (g.ranks.map Prod.fst).any fun e => w * e < 8 * j + 8 && 8 * j < w * e + w then
        let (x, t) := g.src d.toNat 8 j
        some (v.xa.toNat + j, BitVec.ofNat 8 x, t)
      else none

/-- Scattered bytes stored to local store: a word written whole takes its data's taint (R78). -/
def Facet.lsScatter (x : Facet) (l : List (Nat × Byte × Bool)) : Facet :=
  ((l.map fun (a, _, _) => a / 4).dedup).foldl
    (fun x i =>
      let mine := l.filter fun (a, _, _) => a / 4 == i
      let w := x.word i
      let d := mine.foldl (fun (d : BitVec 32) (a, b, _) =>
        (d &&& ~~~(0xFF#32 <<< (8 * (a % 4)))) ||| (b.setWidth 32 <<< (8 * (a % 4)))) w.data
      let whole := (mine.map fun (a, _, _) => a % 4).dedup.length == 4
      x.setWord i { w with data := d, taint := (mine.any fun c => c.2.2) || (!whole && w.taint) })
    x

/-- Scattered bytes stored into a prism's cache, line by line (R80, R83). -/
def State.prismScatter (s : State) (f c : Nat) : List Nat → List (Nat × Byte × Bool) → Option State
  | [], _ => some s
  | ln :: lns, l =>
    let mine := l.filter fun (a, _, _) => a / 512 == ln
    let m := mine.foldl (fun m (a, _, _) => setBit m (a % 512) true) (0 : BitVec 512)
    let data := BitVec.ofNat 4096 (mine.foldl (fun n (a, b, _) => n ||| (b.toNat * 2 ^ (8 * (a % 512)))) 0)
    let t := mine.foldl (fun (t : BitVec 16) (a, _, u) => if u then setBit t (a % 512 / 32) true else t) 0
    (s.prismMerge f c (BitVec.ofNat 64 (ln * 512)) data m t).bind fun s => s.prismScatter f c lns l

/-- What a start makes: the new state, and the result still to be written. -/
abbrev Started := Option (State × Option (VOut × VIns))

/-- The start of a load's elements from bytes at offset 0. -/
def VArgs.fromBytes (g : VArgs) (d : BitVec 5) (w : Nat) (at' : Nat → Nat × Bool) : VOut :=
  { writes := [(d.toNat, w, g.ranks.map fun (e, _) => (e, at' e))] }

/-- A local-store load starts. -/
def State.startLdl (s : State) (f : Nat) (v : VIns) (strided m : Bool) (w : Nat) (d : BitVec 5) : Started :=
  let x := s.facet f
  if (vecRanges strided w v).any fun (a, k) => s.seqCovered f v.id a k false || x.draining x.starts then none
  else
    let get := fun e =>
      let bit := vecBit strided w v e
      let k := (bit % 8 + w + 7) / 8
      (ofBytes (x.lsBytes (bit / 8) k) / 2 ^ (bit % 8) % 2 ^ w, x.lsTaint (bit / 8) k)
    some (s, some ((x.vargs v m).fromBytes d w get, v))

/-- A local-store store starts: its bytes are written in this cycle. -/
def State.startStl (s : State) (f : Nat) (v : VIns) (strided m : Bool) (w : Nat) (d : BitVec 5) : Started :=
  let x := s.facet f
  if (vecRanges strided w v).any fun (a, k) => s.seqCovered f v.id a k true || x.draining x.starts then none
  else some ((s.setFacet f (x.lsScatter (vecBytes (x.vargs v m) strided w v d))).retest f, some ({}, v))

/-- A VLD starts once its data is there; poison in an active element ends it without a result, with a late report (R268). One of a loop
body is performed now: it finds what the body has stored meanwhile, in the prism's cache or at the home slice (R127). -/
def State.startLd (s : State) (f : Nat) (v : VIns) (m last : Bool) (w : Nat) (d : BitVec 5) : Started :=
  match v.req.bind s.req with
  | none => some (s, some ({}, v))
  | some r =>
    match r.op with
    | .vload _ n got =>
      if got.length < n then none
      else
        let (now, s) := if v.late then s.regather r.ctx v.xa n got else (got, s)
        let b := if v.late then s.overlay (prismOf f) r.ctx v.xa now else got
        let g := (s.facet f).vargs v m
        let bad := g.ranks.any fun (e, _) => ((b.drop (w * e / 8)).take ((w * e % 8 + w + 7) / 8)).any fun c => c.2.2
        if bad then
          let s := s.lateReportTo (.slot f v.slot) v.id { cause := cPOISON, pc := v.pc, addr := v.xa }
          some (if last then s.endReq (v.req.getD 0) else s, some ({}, { v with req := none }))
        else some (s, some (g.fromBytes d w fun e => elemAt b (w * e) w, v))
    | _ => some (s, some ({}, v))

/-- A VST starts: its bytes enter the prism cache; it waits while a write-back has to. -/
def State.startSt (s : State) (f : Nat) (v : VIns) (m last : Bool) (w : Nat) (d : BitVec 5) : Started :=
  match v.req.bind s.req with
  | none => some (s, some ({}, v))
  | some r =>
    let l := vecBytes ((s.facet f).vargs v m) false w v d
    (s.prismScatter f r.ctx ((l.map fun (a, _, _) => a / 512).dedup) l).map fun s =>
      (if last then s.endReq (v.req.getD 0) else s, some ({}, { v with req := none }))

/-- A binding ends: none while a drain has elements to write. -/
def State.unbind (s : State) (f k : Nat) : Option State :=
  let x := s.facet f
  match kfind k x.streams with
  | none => some s
  | some st =>
    if st.drain ∧ (st.buf ≠ [] ∨ x.inflight.any fun r => r.drains.any fun d => d.1 == k) then none
    else some (s.setFacet f { x with streams := kdel k x.streams })

/-- What the start of an entry does; none where it has to wait. -/
def State.startOf (s : State) (f : Nat) (v : VIns) (last : Bool) : Started :=
  match v.ins with
  | .vldl m _ w d => s.startLdl f v false m w.bits d
  | .vldls m _ _ w d => s.startLdl f v true m (iBits w) d
  | .vstl m _ w d => s.startStl f v false m w.bits d
  | .vstls m _ _ w d => s.startStl f v true m (iBits w) d
  | .vld m _ w d => s.startLd f v m last w.bits d
  | .vst m _ w d => s.startSt f v m last w.bits d
  | .vbind _ k _ =>
    (s.unbind f k.toNat).map fun s =>
      match v.desc with
      | some st => ((s.modFacet f fun x => { x with streams := kset k.toNat st x.streams }).pushDue (.streamTransfer f k.toNat), none)
      | none => (s, none)
  | .vunbind k => (s.unbind f k.toNat).map fun s => (s, none)
  | i => some (s, some (vresult ((s.facet f).vargs v (vinfo i v.fd).m) i, v))

/-- The elements that an instruction gives to drain k. -/
def drainElems (st : Stream) (vl : Nat) (w : Nat) (es : Elems) : List (Nat × BitVec 64 × Bool) :=
  (es.filter fun (e, _, _) => decide (e < vl) && decide (st.pos + e < st.total)).map fun (e, v, t) => (st.pos + e, BitVec.ofNat 64 (v % 2 ^ w), t)

/-- A started instruction is in flight until its latency has passed; streams have moved on, and rctr where it draws (R162). -/
def State.launch (s : State) (f : Nat) (v : VIns) (o : VOut) (rep : Nat) (last : Bool) : State :=
  let x := s.facet f
  let i := vinfo v.ins v.fd
  let lanes := (i.widths.map fun w => lanesFor w v.vl).foldl max 0
  let lat := i.latency + (if i.tree then 2 * (if lanes ≤ 1 then 0 else (lanes - 1).log2 + 1) else 0)
  let fills := i.fills x
  let drains := i.drains x
  let st := fun k => (kfind k x.streams).getD { slot := 0, drain := false, base := 0, esz := .w32, n := [], s := [] }
  let isDrain := fun (r : Nat) => drains.contains (r - 28) && decide (28 ≤ r)
  let res : SeqRes :=
    { id := v.id, slot := v.slot, pc := v.pc, lands := x.cyc + lat, rep := rep, last := last, start := x.starts,
      writes := (o.writes.filter fun (r, _, _) => !isDrain r).map fun (r, w, es) => vwrite (vkey v.slot r) w es o.orOld,
      scalar := o.scalar.map fun (w, t) => (i.xd, w, t), flags := o.flags, traps := v.traps,
      fills := fills.map fun k => (k, (st k).pos), req := v.req,
      drains := drains.map fun k => (k, (st k).pos, (o.writes.filter fun (r, _, _) => r == k + 28).flatMap fun (_, w, es) =>
        drainElems (st k) v.vl w es) }
  let move := fun (m : KMap Stream) (k : Nat) =>
    kset k { st k with pos := (st k).pos + v.vl, ended := (st k).ended || decide ((st k).total < (st k).pos + v.vl) } m
  let x := { x with inflight := x.inflight ++ [res], starts := x.starts + 1, streams := (fills ++ drains).foldl move x.streams }
  let s := s.setFacet f x
  if v.rm = .sr then s.modThread (.slot f v.slot) fun t => { t with rctr := t.rctr + BitVec.ofNat 64 o.draws } else s

/-- The queue after its head item has started one instruction. -/
def SeqItem.advance (i : SeqItem) : Option SeqItem :=
  if i.pos + 1 < i.body.length then some { i with pos := i.pos + 1 }
  else if i.rep + 1 < i.count then some { i with pos := 0, rep := i.rep + 1 }
  else none

/-- An instruction of a slot that may still end with FPX has not completed: what the slot entered after it does not start before (R160,
R263, log 53). -/
def Facet.mayTrap (x : Facet) (slot : Nat) : Bool := x.inflight.any fun r => r.slot == slot && r.traps != 0

/-- The sequencer starts its oldest instruction, one in a cycle, or none where it has to wait (R261). -/
def State.seqStart (s : State) (f : Nat) : Option State :=
  match (s.facet f).seqQ with
  | [] => none
  | i :: rest =>
    if i.filling then none
    else match i.body[i.pos]? with
      | none => some (s.modFacet f fun x => { x with seqQ := rest })
      | some v =>
        let x := s.facet f
        let info := vinfo v.ins v.fd
        let last := i.rep + 1 == i.count
        if x.cyc < x.seqFree || !x.settled v info || x.mayTrap v.slot || !x.streamsReady info v.vl then none
        else (s.startOf f v last).map fun (s, o) =>
          let s := s.modFacet f fun x => { x with seqQ := i.advance.toList ++ rest, seqFree := x.cyc + 1 }
          match o with
          | some (o, v) => s.launch f (if last then v else { v with req := none }) o i.rep last
          | none => s

/-- SEQUENCER_START, R261. -/
def execSequencerStart (f : Nat) (σ : State) : Out :=
  let s := σ.done (.sequencerStart f)
  .next ((s.seqStart f).getD s)

/-! Results (R156, R160, R262). -/

/-- The exceptions of a completed vector instruction are ORed into its slot's flags, after a CSR write of rnd in this cycle (R156). -/
def State.orFlags (s : State) (f n : Nat) (x : Exc) : State :=
  s.modSlot f n fun sl => { sl with orNow := sl.orNow ||| x, th := { sl.th with rnd := rndOr sl.th.rnd x } }

/-- The results of one instruction are written: registers, its scalar, drains, consumed stream elements, flags. The scalar of a loop body is
interlocked until the last repetition has written it (R263). -/
def State.landOk (s : State) (f : Nat) (r : SeqRes) : State :=
  let x := r.writes.foldl (fun x u => x.putV r.slot u) (s.facet f)
  let st := r.fills.foldl (fun m (k, _) => match kfind k m with
    | some st => kset k { st with buf := st.buf.filter fun b => decide (st.pos ≤ b.1) } m
    | none => m) x.streams
  let st := r.drains.foldl (fun m (k, _, es) => match kfind k m with
    | some st =>
      let owed := match es.getLast? with | some (e, _, _) => st.owed ++ [(r.id, e + 1, r.start)] | none => st.owed
      kset k { st with buf := st.buf ++ es, owed := owed } m
    | none => m) st
  let s := s.setFacet f { x with streams := st }
  let a : Agent := .slot f r.slot
  let s := s.orFlags f r.slot r.flags
  let s := match r.scalar with
    | some (d, w, t) => s.modThread a fun th => (th.wx d w t).await d !r.last
    | none => s
  let s := match r.req with
    | some id => s.endReq id
    | none => s
  (r.fills.map Prod.fst ++ r.drains.map Prod.fst).foldl (fun s k => s.pushDue (.streamTransfer f k)) s

/-- An instruction ends with FPX (R160): nothing is written, its streams have not moved, the loop it stood in ends, and the slot is
at that instruction again. -/
def State.landFpx (s : State) (f : Nat) (r : SeqRes) : State :=
  let x := s.facet f
  let back := fun (m : KMap Stream) (k p : Nat) => match kfind k m with
    | some st => kset k { st with pos := p } m
    | none => m
  let st := r.fills.foldl (fun m (k, p) => back m k p) x.streams
  let st := r.drains.foldl (fun m (k, p, _) => back m k p) st
  let s := s.setFacet f { x with streams := st, seqQ := x.seqQ.filter fun i => !(i.body.any fun v => v.slot == r.slot) }
  let a : Agent := .slot f r.slot
  let dropped := x.seqQ.flatMap fun i => if i.body.any fun v => v.slot == r.slot then i.body.map fun v => (vinfo v.ins v.fd).xd else []
  let s := (s.orFlags f r.slot r.flags).modThread a fun t => dropped.foldl (fun t d => t.await d false) { t with pc := r.pc }
  let reqs := x.seqQ.flatMap fun i => if i.body.any fun v => v.slot == r.slot then i.body.filterMap (·.req) else []
  let s := reqs.foldl (fun s id => s.endReq id) s
  s.takeFault a { cause := cFPX, pc := some r.pc, info := BitVec.ofNat 64 r.rep }

/-- SEQUENCER_RESULT: the results of a started instruction are written at its start plus its latency; one that ends with FPX does so when
every older instruction of its slot has completed (R263). -/
def State.seqResult (s : State) (f k : Nat) : State :=
  let x := s.facet f
  match takeFirst (fun (r : SeqRes) => r.id == k && decide (r.lands ≤ x.cyc)) x.inflight with
  | none => s
  | some (r, rest) =>
    let fpx := trapped r.traps r.flags
    if fpx && rest.any fun q => q.slot == r.slot then s
    else
      let s := s.setFacet f { x with inflight := rest }
      let s := if fpx then s.landFpx f r else s.landOk f r
      if (s.facet f).seqQ.isEmpty then s else s.pushDue (.sequencerStart f)

/-- SEQUENCER_RESULT, R261. -/
def execSequencerResult (f k : Nat) (σ : State) : Out := .next ((σ.done (.sequencerResult f k)).seqResult f k)

/-! Lane, length, loop and stream control (R264 to R267). -/

/-- The sequencer holds no instruction of any slot. -/
def Facet.seqEmpty (x : Facet) : Bool := x.seqQ.isEmpty && x.inflight.isEmpty

/-- A VCTL instruction of a slot. -/
def vctl (σ : State) (reads writes : List (BitVec 5)) (k : Nat → Nat → Slot → Thread → Out) : Out :=
  issue σ { core := false, handler := false, reads := reads, writes := writes } fun t => onSlot σ fun f n sl => k f n sl t

/-- VCLAIM, R257. -/
def execVclaim (a d : BitVec 5) (σ : State) : Out :=
  vctl σ [a] [d] fun f _ _ t =>
    if !(σ.facet f).seqEmpty then stall σ clVSEQ
    else
      let σ := σ.claim f (lanesAsked (t.rx a))
      retire σ (t.wx d (BitVec.ofNat 64 (σ.facet f).grant) false)

/-- VYIELD, R264. -/
def execVyield (a d : BitVec 5) (σ : State) : Out :=
  vctl σ [a] [d] fun f _ _ t =>
    if !(σ.facet f).seqEmpty then stall σ clVSEQ
    else
      let σ := σ.cutForUnmet f
      let x := σ.facet f
      let h := min x.grant (lanesAsked (t.rx a))
      retire (σ.setFacet f (x.regrant h)) (t.wx d (BitVec.ofNat 64 h) false)

/-- VLOOP, R265: one that a save took back counts what the save kept (R359). -/
def execVloop (n : BitVec 4) (a : BitVec 5) (σ : State) : Out :=
  vctl σ [a] [] fun f sn sl t =>
    let c := if sl.loop = 0 then (t.rx a).toNat % 2 ^ 32 else sl.loop
    let k := n.toNat + 1
    if c = 0 then .next ((σ.setThread σ.turn { t.next with pc := t.pc + 4 + BitVec.ofNat 64 (4 * k) }).afterRetire σ.turn)
    else if 16 < σ.seqUsed f + k then stall σ clQFULL
    else
      let σ := σ.modFacet f fun x => { x with seqQ := x.seqQ ++ [{ body := [], slot := sn, count := c, filling := true }] }
      retire (σ.modSlot f sn fun x => { x with loopLeft := k }) t

/-- The descriptor of R266 at a local address, with its ESZ code. -/
def Facet.descriptor (x : Facet) (a n : Nat) (drain : Bool) : Option Stream :=
  let u := fun o k => ofBytes (x.lsBytes (a + o) k)
  match u 4 1 with
  | 0 | 1 | 2 | 5 =>
    let esz : VWidth := match u 4 1 with | 0 => .w32 | 1 => .w16 | 2 => .w8 | _ => .w64
    let counts := (List.range 4).map fun i => u (8 + 2 * i) 2
    let strides := (List.range 4).map fun i => (BitVec.ofNat 32 (u (16 + 4 * i) 4)).toInt
    if counts.contains 0 then none else some { slot := n, drain := drain, base := u 0 4, esz := esz, n := counts, s := strides }
  | _ => none

/-- VBIND, R266. -/
def execVbind (y : Bool) (k : BitVec 2) (a : BitVec 5) (σ : State) : Out :=
  vctl σ [a] [] fun f n sl t =>
    let x := σ.facet f
    let la := (t.rx a).toNat
    if la % 8 ≠ 0 then faultOut σ cALIGN (t.rx a)
    else if !sl.holdsRange la 32 then faultOut σ cLSRANGE (t.rx a)
    else if x.covered la 32 false then stall σ clSCORE
    else match x.descriptor la n y with
      | none => faultOut σ cILLEGAL
      | some st =>
        let w := st.esz.bits / 8
        let (lo, hi) := st.bounds
        if st.base % w ≠ 0 ∨ st.s.any fun k => k % (w : Int) ≠ 0 then faultOut σ cALIGN (t.rx a)
        else if lo < sl.lb ∨ (sl.lb + sl.lsize : Int) < hi + w then faultOut σ cLSRANGE (t.rx a)
        else if 16 ≤ σ.seqUsed f then stall σ clQFULL
        else
          let v := { σ.vins n sl (.vbind y k a) {} with desc := some st }
          .next (σ.enterVec f v 0)

/-- VUNBIND, R267. -/
def execVunbind (k : BitVec 2) (σ : State) : Out :=
  vctl σ [] [] fun f n sl _ =>
    if 16 ≤ σ.seqUsed f then stall σ clQFULL else .next (σ.enterVec f (σ.vins n sl (.vunbind k) {}) 0)

/-- VSETVL, R264. -/
def execVsetvl (w : VWidth) (a d : BitVec 5) (σ : State) : Out :=
  vctl σ [a] [d] fun f n _ t =>
    let h := (σ.facet f).grant
    let fit := if w = .w64 then h / 2 else 32 * h / w.bits
    let v := min (min (t.rx a).toNat 256) fit
    retire (σ.modSlot f n fun x => { x with vl := BitVec.ofNat 9 v }) (t.wx d (BitVec.ofNat 64 v) false)

/-- Stream status (R267). -/
def Facet.streamStatus (x : Facet) : Nat :=
  x.streams.foldl (fun r (k, st) => r + 2 ^ (4 + k) + (if st.drain then 2 ^ (8 + k) else 0) + (if st.ended then 2 ^ k else 0)) 0

/-- VSTAT, R267. -/
def execVstat (d : BitVec 5) (σ : State) : Out :=
  vctl σ [] [d] fun f _ _ t =>
    if !(σ.facet f).seqEmpty then stall σ clVSEQ
    else retire σ (t.wx d (BitVec.ofNat 64 (σ.facet f).streamStatus) false)

/-! Pair-merge (R278, R279). -/

/-- The facets that a merge's mask names. -/
def Merge.members (m : Merge) : List Nat := (List.range 64).filterMap fun i => if m.mask.getLsbD i then some (m.mcb.toNat + i) else none

/-- Every participant has contributed. -/
def Merge.full (m : Merge) : Bool := m.members.all fun f => m.parts.any fun p => p.f == f

/-- A merge that is full completes 32 + 4 × participants cycles later (R261, log 74). -/
def State.mergeFull (s : State) (id : Nat) (m : Merge) : State :=
  if m.full then s.inTicks (32 + 4 * m.members.length) (.mergeComplete id) else s

/-- A contribution joins the first merge of its name that lacks its facet, or a new one. -/
def State.contribute (s : State) (key : Merge) (p : Contrib) : State :=
  let fits := fun (m : Merge) => m.ctx == key.ctx && m.seq == key.seq && m.mcb == key.mcb && m.mask == key.mask && m.k == key.k &&
    !(m.parts.any fun q => q.f == p.f)
  match s.merges.find? fun (_, m) => fits m with
  | some (id, m) =>
    let m := { m with parts := m.parts ++ [p] }
    { s with merges := kset id m s.merges }.mergeFull id m
  | none =>
    let m := { key with parts := [p] }
    { s with merges := kset s.nextId m s.merges, nextId := s.nextId + 1 }.mergeFull s.nextId m

/-- VPMRG, R278. -/
def execVpmrg (b a d : BitVec 5) (σ : State) : Out :=
  vctl σ [b] [] fun f n sl t =>
    let x := σ.facet f
    let i := (f : Int) - sl.mcb.toNat
    let regs := [d.toNat, d.toNat + 1, a.toNat, a.toNat + 1]
    if regs.any fun r => 28 ≤ r && (x.boundAs (r - 28)).isSome then faultOut σ cILLEGAL
    else if i < 0 ∨ 64 ≤ i ∨ !(t.rx b).getLsbD i.toNat then faultOut σ cILLEGAL
    else if x.grant < lanesFor 32 sl.vl.toNat then faultOut σ cLANES
    else if !x.seqEmpty then stall σ clVSEQ
    else
      let (c, seq) := sl.owner.getD (0, 0)
      let key : Merge := { ctx := c, seq := seq, mcb := sl.mcb, mask := t.rx b, k := sl.pmc }
      let p : Contrib := { f := f, n := n, vl := sl.vl.toNat, m := x.vreg n a.toNat, s := x.vreg n (a.toNat + 1), d := d }
      .next ((σ.contribute key p).parkAs f n .vpmrg 0 none none)

/-- One participant's share t, from its maximum and sum and the common maximum, with exceptions: each rounding is RNE under the saturation
in effect (R14, R278). -/
def mergeShare (r : Rounding) (big m sum : Nat) : Nat × Exc :=
  match decodeFloat .f32 m with
  | .inf true => (0, 0)
  | v =>
    let (d, x) := deliver .f32 r (fAdd false v (decodeFloat .f32 big).neg)
    let (e, y) := deliver .f32 r (fExp2 (decodeFloat .f32 d))
    let (t, z) := deliver .f32 r (fMul (decodeFloat .f32 sum) (decodeFloat .f32 e))
    (t, x ||| y ||| z)

/-- M and S of one element from the participants' values in ascending facet order (R278). -/
def mergeElem (r : Rounding) (ps : List (Nat × Nat)) : Nat × Nat × Exc :=
  if ps.any fun (m, _) => (decodeFloat .f32 m).isNan then (canonNan .f32, canonNan .f32, xNV)
  else
    let big := ps.foldl (fun a (m, _) => (fMinMax true .f32 a m).1) (deliverInf .f32 rne true).1
    let (sum, x) := ps.foldl
      (fun (acc : Nat × Exc) (m, s) =>
        let (t, x) := mergeShare r big m s
        let (v, y) := deliver .f32 r (fAdd false (decodeFloat .f32 acc.1) (decodeFloat .f32 t))
        (v, acc.2 ||| x ||| y)) (0, 0)
    (big, sum, x)

/-- The merge's results reach a participant: its count advances, and its VPMRG retires or ends with FPX (R160, R279). -/
def State.mergeTo (s : State) (ps : List Contrib) (p : Contrib) : State :=
  let neg := (deliverInf .f32 rne true).1
  let r : Rounding := { rne with sat := rndSat (s.slot p.f p.n).th.rnd }
  let els := (List.range p.vl).map fun e =>
    let (m, sm, x) := mergeElem r (ps.map fun q => if e < q.vl then (q.m.elem 32 e, q.s.elem 32 e) else (neg, 0))
    let t := ps.any fun q => decide (e < q.vl) && (q.m.tainted 32 e || q.s.tainted 32 e)
    (e, m, sm, t, x)
  let x : Exc := els.foldl (fun r (_, _, _, _, y) => r ||| y) 0
  let a : Agent := .slot p.f p.n
  let s := (s.modSlot p.f p.n fun sl => { sl with pmc := sl.pmc + 1, park := none }).orFlags p.f p.n x
  if trapped (rndTraps (s.thread a).rnd) x then s.takeFault a { cause := cFPX }
  else
    let put := fun (x : Facet) (r : Nat) (es : Elems) => x.putV p.n (vwrite (vkey p.n r) 32 es)
    let s := s.modFacet p.f fun x =>
      put (put x p.d.toNat (els.map fun (e, m, _, t, _) => (e, m, t))) (p.d.toNat + 1) (els.map fun (e, _, sm, t, _) => (e, sm, t))
    s.retireAs a (s.thread a)

/-- MERGE_COMPLETE: every contribution has arrived. -/
def State.mergeDone (s : State) (id : Nat) : State :=
  match kfind id s.merges with
  | none => s
  | some m =>
    if !m.full then s
    else
      let ps := m.members.flatMap fun f => m.parts.filter fun p => p.f == f
      ps.foldl (fun s p => s.mergeTo ps p) { s with merges := kdel id s.merges }

/-- MERGE_COMPLETE, R279. -/
def execMergeComplete (id : Nat) (σ : State) : Out := σ.whenDue (.mergeComplete id) fun σ => σ.mergeDone id

end Sys2Proof.Machine
end

