-- ==== Sys2Proof/Machine/Copies.lean ====
section
/-! DEFINITION. Copies between global memory and local store (R99 to R106, R134 to R137, R248 to R251). -/

namespace Sys2Proof.Machine

/-! What a copy has to wait for. -/

/-- The local-store ranges that a sequencer entry reads. -/
def vinsReads (v : VIns) : List (Nat × Nat) :=
  match v.ins with
  | .vldl _ _ w _ => vecRanges false w.bits v
  | .vldls _ _ _ w _ => vecRanges true (iBits w) v
  | _ => []

/-- The streams as the entries of the sequencer find them, and the local-store ranges that entries of a list read through them. -/
abbrev StreamReads := KMap Stream × List (Nat × Nat)

/-- An entry that runs `reps` times more: a VBIND or VUNBIND changes the streams, another takes its elements of each fill stream. -/
def readsThrough (ids : List Nat) (r : StreamReads) (v : VIns) (reps : Nat) : StreamReads :=
  match v.ins, v.desc with
  | .vbind _ k _, some st => (kset k.toNat st r.1, r.2)
  | .vunbind k, _ => (kdel k.toNat r.1, r.2)
  | _, _ =>
    let ks := (((vinfo v.ins v.fd).srcs.filter fun s => decide (28 ≤ s.1)).map fun s => s.1 - 28).dedup
    ks.foldl (fun r k => match kfind k r.1 with
      | some st =>
        if st.drain then r
        else
          let n := st.pos + v.vl * reps
          let es := (upto st.pos (min n st.total)).map fun e => ((st.address e).toNat, st.esz.bits / 8)
          (kset k { st with pos := n } r.1, if ids.contains v.id then r.2 ++ es else r.2)
      | none => r) r

/-- The ranges that the entries of a list have still to read through fill streams (R135). -/
def Facet.streamReads (x : Facet) (ids : List Nat) : List (Nat × Nat) :=
  let entry := fun (i : SeqItem) (r : StreamReads) (vj : VIns × Nat) => readsThrough ids r vj.1 (i.count - i.rep - (if vj.2 < i.pos then 1 else 0))
  (x.seqQ.foldl (fun r i => i.body.zipIdx.foldl (entry i) r) ((x.streams, []) : StreamReads)).2

/-- Some operation of a list has not yet read its part of [la, la + n) (R135). -/
def Facet.unread (x : Facet) (ids : List Nat) (la n : Nat) : Bool :=
  let hits := fun (l : List (Nat × Nat)) => l.any fun (a, k) => overlaps a k la n
  (x.seqQ.any fun i => i.body.any fun v => ids.contains v.id && hits (vinsReads v)) || hits (x.streamReads ids) ||
    (x.mq0.entries ++ x.mq1.entries).any fun e => e.stage == .queued && ids.contains e.id && hits e.readRanges

/-- An older copy of the same slot has not moved all it will (R101, R134). -/
def State.olderCopy (s : State) (id : Nat) (c : Copy) : Bool :=
  s.copies.any fun (j, d) => decide (j < id) && d.f == c.f && d.n == c.n && !d.finished

/-- A copy may move n bytes at an offset now. -/
def State.copyReady (s : State) (id : Nat) (c : Copy) (off n : Nat) : Bool :=
  !s.olderCopy id c && (c.toGlobal || !(s.facet c.f).unread c.ahead (c.la + off) n)

def State.setCopy (s : State) (id : Nat) (c : Copy) : State := { s with copies := kset id c s.copies }

/-! Completion (R101 to R103, R137, R248 to R251). -/

/-- The bytes that a copy reports. -/
def Copy.count (c : Copy) : Nat := c.total.getD c.done

/-- Completion is due for a copy that has moved all it will, where no older copy of its slot is under way. -/
def State.completeNext (s : State) (f n : Nat) : State :=
  match s.copies.find? fun (kc : Nat × Copy) => kc.2.f == f && kc.2.n == n with
  | some (id, c) => if c.finished then s.pushDue (.copyCompletion id) else s
  | none => s

/-- A copy has moved all it will. -/
def State.finishCopy (s : State) (id : Nat) (c : Copy) : State :=
  (s.setCopy id { c with finished := true }).completeNext c.f c.n

/-- A copy stops at its next byte with a cause (R103, R249). -/
def State.stopCopy (s : State) (id : Nat) (c : Copy) (cause : BitVec 8) : State :=
  s.finishCopy id { c with total := some c.done, cause := some cause }

/-- The completion message (R251). -/
def completionMsg (tid : Nat) (c : Copy) : Msg :=
  let word := fun (v : Nat) => BitVec.ofNat 32 v
  let cause : Nat := (c.cause.map (·.toNat)).getD 0
  { pay := 0#32 ++ word c.la ++ word cause ++ word c.count, src := 1#1 ++ BitVec.ofNat 27 tid, tag := c.cpt.extractLsb' 8 8,
    ctx := c.ctx, seq := c.seq }

/-- A copy reports completion to its target; its scoreboard entry is released. -/
def State.completeCopy (s : State) (id : Nat) (c : Copy) : State :=
  let who : Agent := .slot c.f c.n
  let n := c.count
  let s := { s with copies := kdel id s.copies }
  let s : State := s.releaseSb c.f id
  let late := fun (s : State) => match c.cause with
    | some cause =>
      s.lateReportTo who id { cause := cause, pc := c.pc, addr := (c.ga + BitVec.ofNat 64 n) &&& ~~~63#64, info := BitVec.ofNat 64 n }
    | none => s
  let s : State := match (c.cpt.extractLsb' 0 2).toNat with
    | 1 =>
      let tid := s.tid c.f c.n
      s.launchAs id { who := .peer tid, ctx := c.ctx, seq := c.seq, pc := c.pc, word := 0, target := tid, user := false,
                      copy := some (c.f, c.n), msg := completionMsg tid c }
    | 2 => late (s.arriveAt c.f (8 * (c.cpt.extractLsb' 16 15).toNat) n false)
    | _ => late (s.modCnt who Counts.subCp)
  s.completeNext c.f c.n

/-- COPY_COMPLETION, R248. -/
def execCopyCompletion (id : Nat) (σ : State) : Out :=
  .next (let σ := σ.done (.copyCompletion id)
    match kfind id σ.copies with
    | some c =>
      let older := σ.copies.any fun (j, d) => decide (j < id) && d.f == c.f && d.n == c.n
      if c.finished && !older then σ.completeCopy id c else σ
    | none => σ)

/-! Moving bytes (R99, R101, R103). -/

/-- Bytes read at a slice by 32-byte sector, each with its taint, up to the first poisoned granule: offset, bytes, taint. -/
def State.copyRead (s : State) (sl pa n : Nat) (dir : Bool) : List (Nat × List Byte × Bool) × Bool × State :=
  (unitsOf 32 pa n).foldl
    (fun (r : List (Nat × List Byte × Bool) × Bool × State) (u : Nat × Nat) =>
      if r.2.1 then r
      else
        let (g, s) := r.2.2.sliceRead sl u.1 u.2 dir
        if g.poison then (r.1, true, s) else (r.1 ++ [(u.1 - pa, g.bytes, g.taint)], false, s))
    ([], false, s)

/-- How many bytes were read. -/
def gotBytes (l : List (Nat × List Byte × Bool)) : Nat := l.foldl (fun n u => n + u.2.1.length) 0

/-- The data of another device for n bytes at an address, in words, by 32-byte sector up to the first poisoned one (R99, R176). -/
def ansUnits (a : Answer) (va n : Nat) : List (Nat × List Byte × Bool) × Bool :=
  let k := min n (a.data.length / 4 * 4)
  (unitsOf 32 va k).foldl
    (fun (r : List (Nat × List Byte × Bool) × Bool) (u : Nat × Nat) =>
      let (taint, poison) := ansSector a va (u.1 - va)
      if r.2 || poison then (r.1, true) else (r.1 ++ [(u.1 - va, (a.data.drop (u.1 - va)).take u.2, taint)], false))
    ([], a.poison && k == 0)

/-- Bytes read are written to a copy's local range from an offset on; taint travels word by word. -/
def State.landCopy (s : State) (c : Copy) (off : Nat) (l : List (Nat × List Byte × Bool)) : State :=
  (s.modFacet c.f fun x => l.foldl (fun x u => x.enginePut (c.la + off + u.1) u.2.1 fun _ => u.2.2) x).retest c.f

/-- Clean bytes of [va, va + n) in a prism's cache are given up. -/
def State.forgetRange (s : State) (p c : Nat) (va : Word) (n : Nat) : State :=
  (unitsOf 512 va.toNat n).foldl (fun s (a, k) => s.dropClean p (s.lineKey c (BitVec.ofNat 64 a)) (span (a % 512) k)) s

/-- Bytes of local store merged at a slice, line by line, with the taint of their words by sector. -/
def State.sendCopy (s : State) (c : Copy) (sl pa off n : Nat) (dir : Bool) : State :=
  let x := s.facet c.f
  (unitsOf 512 pa n).foldl
    (fun s (a, k) =>
      let la := c.la + off + (a - pa)
      let taint : BitVec 16 := (unitsOf 32 a k).foldl (fun t (b, j) => setBit t (b % 512 / 32) (x.lsTaint (la + (b - a)) j)) 0
      s.sliceMerge sl (a / 512) (placed (a % 512) (x.lsBytes la k)) (span (a % 512) k) taint 0 dir)
    s

/-- The request by which a piece of a copy waits at its slice. -/
def State.pieceReq (s : State) (id : Nat) : Option (Nat × Req) :=
  s.reqs.find? fun (kr : Nat × Req) => match kr.2.op with | .piece j _ _ => j == id | _ => false

/-- Where n bytes at an offset of a copy can be moved: it waits, it fails, or a place at a slice. -/
inductive CopyPlace where
  | wait (s : State) | fail (s : State) (cause : BitVec 8) | at (s : State) (sl pa : Nat) (leaf : Word)

/-- n bytes at an address are tried for a copy, under the request of the piece where it has one: where they have to wait, that request
parks, or is held, at the slice in its order (R87, R115, R394, R397). -/
def State.tryPiece (s : State) (rid : Option Nat) (id : Nat) (c : Copy) (va : Word) (off n : Nat) : CopyPlace :=
  let a : Agent := .slot c.f c.n
  let ask := fun (s : State) => s.waitReq rid a c.ctx va c.pc (.piece id off n)
  let drop := fun (s : State) => match rid with | some j => s.forgetReq j | none => s
  match s.standAt a (rid.getD 0) c.ctx va (if c.toGlobal then .write else .read) with
  | (.nowhere, s) => .fail (drop s) cNOMAP
  | (.fail cause, s) => .fail (drop s) cause
  | (.at sl pa leaf, s) =>
    if s.dBlocked sl (rid.getD 0) c.ctx va pa n then
      let (j, s) := ask s
      .wait (match s.req j with | some r => (s.leaveWaiters sl j).holdD sl j r | none => s)
    else .at ((drop s).recall c.ctx va n) sl pa leaf
  | (w, s) => let (j, s) := ask s; .wait (s.waitAt j w)

/-- The place of n bytes at an address for a copy. -/
def State.copyPlace (s : State) (id : Nat) (c : Copy) (va : Word) (off n : Nat) : CopyPlace :=
  match s.pieceReq id with
  | some (rid, r) =>
    (match r.stage with
      | .failed cause => .fail (s.forgetReq rid) cause
      | .missing _ | .refusedFull _ => .wait s
      | _ => s.tryPiece (some rid) id c va off n)
  | none => s.tryPiece none id c va off n

/-- The bytes from an address to the end of its 64 KiB granule, but no more than n. -/
def pieceLen (va : Word) (n : Nat) : Nat := min n (65536 - va.toNat % 65536)

/-- A copy moves its next piece on its own, or has moved all it will (R99): all granules of a piece move in one step (log 51). -/
def State.ownStep (s : State) (id : Nat) (c : Copy) (ans : Answer) : State :=
  let va := c.ga + BitVec.ofNat 64 c.done
  let n := pieceLen va (c.stop - c.done)
  if c.finished then s
  else if c.stop ≤ c.done then s.finishCopy id c
  else if !s.copyReady id c c.done n then s
  else
    let moved := fun (s : State) (k : Nat) (cause : Option (BitVec 8)) =>
      let c' := { c with done := c.done + k }
      match cause with
      | some x => s.stopCopy id c' x
      | none => if c'.stop ≤ c'.done then s.finishCopy id c' else s.setCopy id c'
    match s.whereIs va with
    | .nowhere => s.stopCopy id c cNOMAP
    | .device _ =>
      let (l, bad) := ansUnits ans va.toNat n
      let k := gotBytes l
      let s := if c.toGlobal then s.forgetRange (prismOf c.f) c.ctx va k else s.landCopy c c.done l
      moved s k (if bad then some cPOISON else ans.cause)
    | .here =>
      match s.copyPlace id c va c.done n with
      | .wait s => s
      | .fail s cause => s.stopCopy id c cause
      | .at s sl pa leaf =>
        if c.toGlobal then moved ((s.sendCopy c sl pa c.done n (leafDir leaf)).forgetRange (prismOf c.f) c.ctx va n) n none
        else
          let (l, bad, s) := s.copyRead sl pa n (leafDir leaf)
          moved (s.landCopy c c.done l) (gotBytes l) (if bad then some cPOISON else none)

/-! Multicast (R104 to R106, R250). -/

/-- The members of a stream that still exist. -/
def State.membersOf (s : State) (m : McStream) : List Nat := (m.copies ++ m.late.map Prod.fst).filter fun id => (kfind id s.copies).isSome

/-- The stream that serves a copy: its slice and itself. -/
def State.streamOf (s : State) (id : Nat) : Option (Nat × McStream) :=
  s.slices.findSome? fun (sl, x) => (x.mc.find? fun m => (s.membersOf m).contains id).map fun m => (sl, m)

def State.setStream (s : State) (sl : Nat) (m : McStream) : State :=
  s.modSlice sl fun x => { x with mc := modFirst (fun (y : McStream) => y.id == m.id) (fun _ => m) x.mc }

/-- Every facet that the mask names has a matching request (R105). -/
def State.allJoined (s : State) (m : McStream) : Bool :=
  (List.range 64).all fun i => !m.mcm.getLsbD i || m.copies.any fun id => (kfind id s.copies).map (·.f) == some (m.mcb.toNat + i)

/-- A stream starts. -/
def State.startStream (s : State) (sl : Nat) (m : McStream) : State := s.setStream sl { m with started := true }

/-- A copy asks its home slice for the stream of its match (R105, R106). -/
def State.joinStream (s : State) (id sl : Nat) (c : Copy) : State :=
  let same := fun (m : McStream) => m.ctx == c.ctx && m.base == c.ga && m.len == c.len && m.mcb == c.mcb && m.mcm == c.mcm
  match (s.slice sl).mc.find? same with
  | none =>
    let m : McStream := { id := id, ctx := c.ctx, base := c.ga, len := c.len, mcb := c.mcb, mcm := c.mcm, copies := [id] }
    let s := (s.setCopy id { c with stop := 0 }).modSlice sl fun x => { x with mc := x.mc ++ [m] }
    if s.allJoined m then s.startStream sl m else s.inTicks 64 (.mergeWindowClose sl id)
  | some m =>
    if m.started then (s.setCopy id { c with stop := m.pos }).setStream sl { m with late := m.late ++ [(id, m.pos)] }
    else
      let m := { m with copies := m.copies ++ [id] }
      let s := (s.setCopy id { c with stop := 0 }).setStream sl m
      if s.allJoined m then s.startStream sl m else s

/-- MERGE_WINDOW_CLOSE, R105. -/
def execMergeWindowClose (sl id : Nat) (σ : State) : Out :=
  σ.whenDue (.mergeWindowClose sl id) fun σ =>
    match (σ.slice sl).mc.find? (·.id == id) with
    | some m => if m.started then σ else σ.startStream sl m
    | none => σ

/-- A stream ends after g bytes: its members report g, a late joiner after its second pass. -/
def State.endStream (s : State) (sl : Nat) (m : McStream) (g : Nat) (cause : Option (BitVec 8)) : State :=
  let s : State := m.late.foldl (fun s (id, from') => match kfind id s.copies with
    | some c => s.setCopy id { c with stop := min from' g, total := some g, cause := cause }
    | none => s) s
  let s := s.modSlice sl fun x => { x with mc := x.mc.filter (·.id != m.id) }
  m.copies.foldl (fun s id => match kfind id s.copies with
    | some c => s.finishCopy id { c with total := some g, cause := cause }
    | none => s) s

/-- A member that cannot take part of a stream moves what is left of its bytes on its own. -/
def State.goAlone (s : State) (m : McStream) (id : Nat) : State :=
  match kfind id s.copies with
  | some c => s.setCopy id { c with done := if m.copies.contains id then m.pos else 0, stop := c.len }
  | none => s

/-- A stream moves its next piece to every member (R105). -/
def State.mcStep (s : State) (lead sl : Nat) (m : McStream) : State :=
  let va := m.base + BitVec.ofNat 64 m.pos
  let n := pieceLen va (m.len - m.pos)
  match kfind lead s.copies with
  | none => s
  | some c =>
    match s.copyPlace lead c va m.pos n with
    | .wait s => s
    | .fail s cause => s.endStream sl m m.pos (some cause)
    | .at s at' pa leaf =>
      let ready := fun id => match kfind id s.copies with | some d => s.copyReady id d m.pos n | none => false
      let (on, off) := (s.membersOf m).partition ready
      let s : State := off.foldl (fun s id => s.goAlone m id) s
      let (l, bad, s) := s.copyRead at' pa n (leafDir leaf)
      let s : State := on.foldl (fun s id => match kfind id s.copies with | some d => s.landCopy d m.pos l | none => s) s
      let m := { m with pos := m.pos + gotBytes l, copies := m.copies.filter on.contains, late := m.late.filter fun j => on.contains j.1 }
      if bad then s.endStream sl m m.pos (some cPOISON)
      else if m.len ≤ m.pos then s.endStream sl m m.pos none
      else s.setStream sl m

/-- COPY_PIECE: the stream that a copy leads moves on, or the copy itself where it is in no stream. -/
def State.copyStep (s : State) (id : Nat) (ans : Answer) : State :=
  match kfind id s.copies with
  | none => s
  | some c =>
    match s.streamOf id with
    | some (sl, m) => if m.started && (s.membersOf m).head? == some id then s.mcStep id sl m else s
    | none => s.ownStep id c ans

/-- COPY_PIECE, R99. -/
def execCopyPiece (id : Nat) (ans : Answer) (σ : State) : Out := .next ((σ.done (.copyPiece id noAnswer)).copyStep id ans)

/-! CPG, CPL, CPM (R248, R250). -/

/-- The operations of the facet's queues that a copy records at issue (R135). -/
def Facet.queued (x : Facet) : List Nat :=
  x.seqQ.flatMap (fun i => i.body.map (·.id)) ++ (x.mq0.entries ++ x.mq1.entries).map (·.id)

/-- The lines of a range of a context that a facet has dirtied. -/
def State.dirtyIn (s : State) (f c : Nat) (va : Word) (n : Nat) : List Nat :=
  let keys := (s.facet f).dirtied.map fun (a, l) => a * 2 ^ 55 + l
  ((unitsOf 512 va.toNat n).map fun u => s.lineKey c (BitVec.ofNat 64 u.1)).filter keys.contains

/-- A copy that has passed its checks is issued: it takes its scoreboard entry and sends its first piece. -/
def issueCopy (σ : State) (t : Thread) (f n : Nat) (sl : Slot) (ga : Word) (la len : Nat) (toGlobal multi : Bool) : Out :=
  let (c, seq) := sl.owner.getD (0, 0)
  let counts := sl.cpt.extractLsb' 0 2 == 0#2
  counted σ (if counts then sl.cnt.cp else 0) <|
    if len ≠ 0 ∧ 16 ≤ (σ.facet f).sb.length then stall σ clSCORE
    else watched σ [{ local' := true, facet := f, base := la, len := len, rd := toGlobal, wr := !toGlobal },
        { local' := false, base := ga.toNat, len := len, rd := !toGlobal, wr := toGlobal }] fun σ =>
      match σ.writeBackAll (prismOf f) (σ.dirtyIn f c ga len) with
      | none => stall σ clACCEPT
      | some σ =>
        let id := σ.nextId
        let inside := decide (sl.mcb.toNat ≤ f ∧ f < sl.mcb.toNat + 64)
        let copy : Copy := { f := f, n := n, ctx := c, seq := seq, pc := t.pc, toGlobal := toGlobal, multi := multi && inside, ga := ga,
                             la := la, len := len, cpt := sl.cpt, mcm := sl.mcm, mcb := sl.mcb, ahead := (σ.facet f).queued,
                             stop := len }
        let e : SbEntry := { op := id, slot := n, kind := if copy.multi then .multicast else .copy, dir := toGlobal, laddr := la,
                             len := len, gaddr := ga }
        let σ := { σ with nextId := id + 1 }
        let σ := σ.modCnt (.slot f n) fun k => if counts then k.addCp else k
        let σ := if len = 0 then σ else σ.modFacet f fun x => { x with sb := x.sb ++ [e] }
        let σ : State := match copy.multi && len != 0 && σ.whereIs ga == .here, σ.home c ga with
          | true, some sl => σ.joinStream id sl copy
          | _, _ => σ.setCopy id copy
        retire (σ.pushDue (.copyPiece id noAnswer)) t

/-- CPG, CPL and CPM: the checks of R248. -/
def copyOp (σ : State) (b a d : BitVec 5) (toGlobal multi : Bool) : Out :=
  issue σ { core := false, handler := false, reads := [a, b, d] } fun t =>
    onSlot σ fun f n sl =>
      let ga := t.rx a
      let la := t.rx d
      let len := t.rx b
      if ga.toNat % 4 ≠ 0 then faultOut σ cALIGN ga
      else if la.toNat % 4 ≠ 0 then faultOut σ cALIGN la
      else if len.toNat % 4 ≠ 0 then faultOut σ cALIGN len
      else if 262144 < len.toNat then faultOut σ cLSRANGE la
      else if !sl.holdsRange la.toNat len.toNat then faultOut σ cLSRANGE la
      else if 2 ^ 64 < ga.toNat + len.toNat then faultOut σ cNOMAP ga
      else issueCopy σ t f n sl ga la.toNat len.toNat toGlobal multi

/-- CPG, R248. -/
def execCpg (b a d : BitVec 5) (σ : State) : Out := copyOp σ b a d false false
/-- CPL, R248. -/
def execCpl (b a d : BitVec 5) (σ : State) : Out := copyOp σ b a d true false
/-- CPM, R250. -/
def execCpm (b a d : BitVec 5) (σ : State) : Out := copyOp σ b a d false true

end Sys2Proof.Machine
end

