-- ==== Sys2Proof/Machine/Versions.lean ====
section
/-! DEFINITION. The version tables of the slices (R88 to R98) and the versioned instructions (R242 to R246). A frame's bytes stand in its
table entry (log 11). -/

namespace Sys2Proof.Machine

/-! Entries (R89). -/

/-- An entry is that of a pair of a context. -/
def VEntry.names (e : VEntry) (c tile ver : Nat) : Bool := e.ctx == c && e.tile == tile && e.ver == ver

/-- The entry of a pair of a context. -/
def Slice.version (x : Slice) (c tile ver : Nat) : Option VEntry := x.versions.find? (·.names c tile ver)

/-- The state with the entry of a pair changed. -/
def State.modV (s : State) (sl c tile ver : Nat) (g : VEntry → VEntry) : State :=
  s.modSlice sl fun x => { x with versions := modFirst (·.names c tile ver) g x.versions }

/-- How many versions of a context exist at a slice (R91). -/
def Slice.created (x : Slice) (c : Nat) : Nat := (x.versions.filter fun e => e.ctx == c && e.st.created).length

/-- The sizes of the tile pool and of the frame area in bytes (R378). -/
def Slice.poolBytes (x : Slice) : Nat := x.tpool.toNat * 65536
def Slice.areaBytes (x : Slice) : Nat := x.sfrs.toNat * 65536

/-- The free-frame count (R85). -/
def Slice.freeFrames (x : Slice) : Nat := ((x.poolBytes - x.framed true) + (x.areaBytes - x.framed false)) / 4096

/-- The frame that a version of a size takes: in the tile pool or in the HBM area, or none is free (R85). -/
def Slice.frameFor (x : Slice) (size : Nat) : Option Bool :=
  if size ≤ 8192 ∧ x.framed true + size ≤ x.poolBytes then some true
  else if x.framed false + size ≤ x.areaBytes then some false
  else none

/-- A slice may use its frame area: every region of it allows the slice's own world (R402). -/
def State.areaAllows (s : State) (sl : Nat) : Bool :=
  let x := s.slice sl
  (List.range x.sfrs.toNat).all fun i => s.mayTouch x.world ((x.sfrb.toNat + i) * 65536)

/-- A move of a slice's frame area is under way (R399). -/
def Slice.movesArea (x : Slice) : Bool := match x.mig with | .area _ => true | _ => false

/-! Holds of tasks (R92, R96). -/

/-- A slot takes a task hold. -/
def State.addHold (s : State) (a : Agent) (tile ver : Nat) : State :=
  match a with
  | .slot f n => s.modSlot f n fun x => { x with holds := x.holds ++ [(tile, ver, true)] }
  | _ => s

/-- Every task hold on a pair of a context ends (R96). -/
def State.loseHolds (s : State) (c tile ver : Nat) : State :=
  let slot := fun (sl : Slot) =>
    if (sl.owner.map Prod.fst) = some c then
      { sl with holds := sl.holds.map fun h => if h.1 = tile ∧ h.2.1 = ver then (tile, ver, false) else h }
    else sl
  let all := fun (m : KMap Slot) => m.map fun (ks : Nat × Slot) => (ks.1, slot ks.2)
  { s with facets := s.facets.map fun (kx : Nat × Facet) =>
      (kx.1, { kx.2 with slots := all kx.2.slots, stash := kx.2.stash.map fun (t : Stash) => { t with slots := all t.slots } }) }

/-- A task's hold on a pair has ended without its doing. -/
def State.heldLost (s : State) (a : Agent) (tile ver : Nat) : Bool :=
  match a with
  | .slot f n => (s.slot f n).holds.contains (tile, ver, false)
  | _ => false

/-! Retirement on acceptance (R228). -/

/-- The instruction that waits for a request retires. -/
def State.acceptReq (s : State) (id : Nat) (g : Thread → Thread := fun t => t) : State :=
  match s.req id with
  | none => s
  | some r =>
    match r.who with
    | .peer _ => s
    | a => (s.unpark a id).retireAs a (g (s.thread a))

/-- A request ends with a late report to its slot (R230). -/
def State.lateReq (s : State) (id : Nat) (cause : BitVec 8) : State :=
  match s.req id with
  | none => s
  | some r => (s.endReq id).lateReportTo r.who id { cause := cause, pc := r.pc, addr := r.va }

/-! Events of an entry (R90). -/

/-- A request is one about a pair of a context on this device. -/
def State.concerns (s : State) (r : Req) (c tile ver : Nat) : Bool :=
  s.whereIs r.va == .here && r.ctx == c && localVa r.va == tile &&
    (match r.op with
      | .create _ v _ _ _ _ _ | .vput v _ _ | .vseal v | .vget v _ _ _ | .vretain v | .vhold v => v == ver
      | _ => false)

/-- VSTORE and VSEAL on a pair that wait for its seal leave VG, and VPUTs whose bytes are on their way have been written (R244). -/
def State.endSeals (s : State) (c tile ver : Nat) : State :=
  let ids := (s.reqs.filter fun (kr : Nat × Req) =>
    s.concerns kr.2 c tile ver && kr.2.stage == .returning && (match kr.2.op with | .create _ _ _ _ _ _ _ | .vput _ _ _ | .vseal _ => true | _ => false)).map
      Prod.fst
  ids.foldl (fun s id => s.endReq id) s

/-- A waiter on a version that is gone receives VGONE; the wait of a decoded entry's hold ends. -/
def State.waiterGone (s : State) (sl id : Nat) : State :=
  let s := s.leaveWaiters sl id
  match s.req id with
  | none => s
  | some r => match r.op with
    | .vhold _ => s.forgetReq id
    | _ => s.lateReq id cVGONE

/-- The waiters of a pair receive VGONE. -/
def State.waitersGone (s : State) (sl : Nat) (e : VEntry) : State :=
  e.waiters.foldl (fun s id => s.waiterGone sl id) (s.modV sl e.ctx e.tile e.ver fun e => { e with waiters := [] })

/-- The bytes of a new frame: what it holds before it is filled is not stated (log 7). -/
def State.newFrame (s : State) (size : Nat) : List Byte × List Bool × State :=
  ((List.range size).map (fun i => (Config.freeWord (s.free + i)).setWidth 8),
   (List.range (size / 32)).map (fun i => (Config.freeWord (s.free + size + i)).getLsbD 0),
   { s with free := s.free + size + size / 32 })

/-- Bytes of local store streamed into a frame at an offset, with their taint by sector (R176, R244). -/
def VEntry.put (e : VEntry) (off : Nat) (b : List Byte) (t : List Bool) : VEntry :=
  { e with bytes := e.bytes.take off ++ b ++ e.bytes.drop (off + b.length),
           taint := e.taint.take (off / 32) ++ t ++ e.taint.drop (off / 32 + t.length),
           poison := e.poison.filter fun g => !(off ≤ 64 * g && 64 * g + 64 ≤ off + b.length) }

/-- The taint of n bytes of local store by 32-byte sector. -/
def Facet.sectorTaint (x : Facet) (a n : Nat) : List Bool := (List.range (n / 32)).map fun i => x.lsTaint (a + 32 * i) 32

/-- A creation is tested (R86, R90, R91): whether the pair exists, then quota and table, then a frame; it is performed, faults, or
waits in the order of its parking. One whose frame lies in an area that moves parks behind that (R399), and an area that the regions refuse is
ACCESS (R402). -/
def State.tryCreate (s : State) (sl id : Nat) : State :=
  match s.req id with
  | none => s
  | some r =>
    match r.op with
    | .create whole ver la _ _ quota size =>
      let v := localVa r.va
      let x := s.slice sl
      let e := x.version r.ctx v ver
      let wait := fun (kind : ParkKind) =>
        let s := s.parkAt sl id r .onQuota
        let s : State := match s.req id with
          | some r' => if r'.stage = .onQuota ∧ !(s.slice sl).quota.contains id then
              s.modSlice sl fun y => { y with quota := y.quota ++ [id] } else s
          | none => s
        s.parkFor r.who kind r.va id
      if (e.map (·.st.created)).getD false then s.failReq id cWRITEONCE
      else if quota ≤ x.created r.ctx ∨ x.noCreate ∨ (e.isNone ∧ 8192 ≤ x.versions.length) then wait .quota
      else match x.frameFor size with
        | none => wait .accept
        | some pool =>
          if !pool ∧ x.movesArea then s.parkAt sl id r .behind
          else if !pool ∧ !s.areaAllows sl then (s.leaveWaiters sl id).failReq id cACCESS
          else
          let out := fun (l : List Nat) => l.filter (· != id)
          let s := s.modSlice sl fun y => { y with quota := out y.quota, parkq := out y.parkq }
          let (bytes, taint, s) := s.newFrame size
          let base := e.getD { ctx := r.ctx, tile := v, ver := ver, st := .waiting }
          let new : VEntry := { base with st := .opened, size := size, pool := pool, bytes := bytes, taint := taint, owner := some r.who }
          let new : VEntry := match whole, r.who with
            | true, .slot f _ => new.put 0 ((s.facet f).lsBytes la size) ((s.facet f).sectorTaint la size)
            | _, _ => new
          let s := s.modSlice sl fun y => { y with versions := y.versions.filter (fun d => !d.names r.ctx v ver) ++ [new] }
          let s := s.acceptReq id
          if whole then (s.setReq id { r with stage := .returning }).pushDue (.seal sl (r.ctx * 2 ^ 52 + v) ver)
          else s.endReq id
    | _ => s

/-- Parked creations are tested again in parking order (R91). -/
def State.retryCreations (s : State) (sl : Nat) : State := (s.slice sl).quota.foldl (fun s id => s.tryCreate sl id) s

/-- An entry is freed with its frame: holds of decoded entries on it have ended with it (R92). -/
def State.freeV (s : State) (sl c tile ver : Nat) : State :=
  let s := if (s.ctx c).window.any fun e => e.holds.contains (sl, tile, ver) then
      s.modCtx c fun x => { x with window := x.window.map fun (e : Entry) => { e with holds := e.holds.filter (· != (sl, tile, ver)) } }
    else s
  (s.modSlice sl fun x => { x with versions := x.versions.filter fun e => !e.names c tile ver }).retryCreations sl

/-- A reader takes its hold on a SEALED version (R92, R93), or waits while the count stands at 65,535: a VGET a transient one, which its
notice ends, a VRETAIN a task hold, a decoded entry the hold of that entry. -/
def State.serveReader (s : State) (sl c tile ver id : Nat) : State :=
  match (s.slice sl).version c tile ver, s.req id with
  | some e, some r =>
    if 65535 ≤ e.count then
      (s.parkAt sl id r .onVersion).modV sl c tile ver fun e => { e with waiters := if e.waiters.contains id then e.waiters else e.waiters ++ [id] }
    else
      let peer : List Nat := match r.who with | .peer t => if t / 32768 = s.dev then [] else [t / 32768] | _ => []
      let s := (s.leaveWaiters sl id).modV sl c tile ver fun e =>
        { e with count := e.count + 1, peers := e.peers ++ peer, waiters := e.waiters.filter (· != id) }
      match r.op with
      | .vhold _ =>
        let s := s.forgetReq id
        if peer.isEmpty then s.modEntry c r.seq fun x => { x with holds := x.holds ++ [(sl, tile, ver)] } else s
      | .vretain _ =>
        ((s.addHold r.who (s.canon r.va) ver).setReq id { r with stage := .returning }).pushDue (.versionArrivalNotice id noAnswer)
      | _ => (s.setReq id { r with stage := .returning }).pushDue (.versionArrivalNotice id noAnswer)
  | _, _ => s

/-- A parked request is the hold of a decoded entry (R92). -/
def State.isHold (s : State) (id : Nat) : Bool :=
  match (s.req id).map (·.op) with
  | some (ReqOp.vhold _) => true
  | _ => false

/-- The first increment of a count that waits (R92): on a SEALED entry that of any reader, else that of a decoded entry. -/
def State.nextIncrement (s : State) (e : VEntry) : Option Nat :=
  match e.st with
  | .sealed => e.waiters.head?
  | _ => e.waiters.find? s.isHold

/-- What follows when a count has fallen or Superseded has been set (R90, R92): a waiting increment is applied, or the entry is
freed; one that is WAITING or OPEN stays. -/
def State.settleV (s : State) (sl c tile ver : Nat) : State :=
  match (s.slice sl).version c tile ver with
  | none => s
  | some e =>
    match s.nextIncrement e with
    | some id => if e.count < 65535 then s.serveReader sl c tile ver id else s
    | none =>
      match e.st with
      | .sealed => if e.count = 0 ∧ e.superseded then s.freeV sl c tile ver else s
      | .dropping => if e.count = 0 then s.freeV sl c tile ver else s
      | .waiting | .opened => s

/-- A hold on a version ends. -/
def State.endHold (s : State) (sl c tile ver : Nat) (peer : Option Nat := none) : State :=
  let peers := fun (l : List Nat) => match peer with | some d => l.erase d | none => l
  (s.modV sl c tile ver fun e => { e with count := e.count - 1, peers := peers e.peers }).settleV sl c tile ver

/-- A VGET of this device ends before its notice: its transient hold ends with it (R92). -/
def State.endTransient (s : State) (r : Req) : State :=
  match r.op, r.stage, s.whereIs r.va, s.home r.ctx r.va with
  | .vget ver _ _ _, .returning, .here, some sl => s.endHold sl r.ctx (localVa r.va) ver
  | _, _, _, _ => s

/-- Waiting holds of decoded entries are served in order while the count admits them. -/
def State.serveAll (s : State) (sl c tile ver : Nat) : List Nat → State
  | [] => s
  | id :: ids => (s.serveReader sl c tile ver id).serveAll sl c tile ver ids

/-- A version becomes SEALED (R90, R93): its waiters take their holds and notices are due to them; superseded with no hold it is
freed. -/
def State.sealV (s : State) (sl c tile ver : Nat) : State :=
  match (s.slice sl).version c tile ver with
  | none => s.endSeals c tile ver
  | some e =>
    if e.st ≠ .opened then s.endSeals c tile ver
    else
      let s := s.modV sl c tile ver fun e => { e with st := .sealed, owner := none, waiters := [] }
      (((s.endSeals c tile ver).serveAll sl c tile ver e.waiters)).settleV sl c tile ver

/-- SEAL, R244. -/
def execSeal (sl tile ver : Nat) (σ : State) : Out :=
  σ.whenDue (.seal sl tile ver) fun σ => σ.sealV sl (tile / 2 ^ 52) (tile % 2 ^ 52) ver

/-- A VGET, VRETAIN or decoded hold reaches the slice (R90): served on a SEALED entry, parked on one that waits or is OPEN, VGONE on one
that is DROPPING. -/
def State.readV (s : State) (sl c tile ver id : Nat) : State :=
  match (s.slice sl).version c tile ver, s.req id with
  | none, some r =>
    let e : VEntry := { ctx := c, tile := tile, ver := ver, st := .waiting, waiters := [id] }
    (s.modSlice sl fun x => { x with versions := x.versions ++ [e] }).parkAt sl id r .onVersion
  | some e, some r =>
    match e.st with
    | .sealed => s.serveReader sl c tile ver id
    | .dropping => s.waiterGone sl id
    | _ => (s.parkAt sl id r .onVersion).modV sl c tile ver fun e => { e with waiters := e.waiters ++ [id] }
  | _, none => s

/-- A version is dropped and freed at once, whatever its state (R96, R98): waiters and readers under way receive VGONE, and every hold
ends. -/
def State.dropV (s : State) (sl c tile ver : Nat) : State :=
  match (s.slice sl).version c tile ver with
  | none => s
  | some e =>
    let s := (s.waitersGone sl e).endSeals c tile ver
    let under := (s.reqs.filter fun (kr : Nat × Req) =>
      s.concerns kr.2 c tile ver && kr.2.stage == .returning && (match kr.2.op with | .vget _ _ _ _ => true | _ => false)).map Prod.fst
    let s := under.foldl (fun s id => s.waiterGone sl id) s
    (s.loseHolds c (0xFFF * 2 ^ 52 + tile) ver).freeV sl c tile ver

/-- The waiters of a pair but the holds of decoded entries receive VGONE: only a drop of R96 discards waiting increments (R90, R92). -/
def State.readersGone (s : State) (sl : Nat) (e : VEntry) : State :=
  let (holds, readers) := e.waiters.partition s.isHold
  readers.foldl (fun s id => s.waiterGone sl id) (s.modV sl e.ctx e.tile e.ver fun e => { e with waiters := holds })

/-- The waiting holds on a pair whose entry is gone reach the slice anew (R92). -/
def State.holdsAnew (s : State) (sl : Nat) (e : VEntry) : State :=
  (e.waiters.filter s.isHold).foldl
    (fun s id => match s.req id with
      | some r => ((s.leaveWaiters sl id).setReq id { r with stage := .sent }).pushDue (.acceptance id noAnswer)
      | none => s) s

/-- The VDROP event (R90). -/
def State.vdropAt (s : State) (sl c tile ver : Nat) : State :=
  match (s.slice sl).version c tile ver with
  | none => s
  | some e =>
    let s := s.readersGone sl e
    match e.st with
    | .waiting => (s.holdsAnew sl e).freeV sl c tile ver
    | .dropping => s
    | _ =>
      if e.count = 0 then (s.endSeals c tile ver).freeV sl c tile ver
      else s.modV sl c tile ver fun e => { e with st := .dropping }

/-- What VQUERY reads (R246). -/
def vqueryValue : Option VEntry → Word
  | none => 0
  | some e =>
    let st := match e.st with | .waiting => 1 | .opened => 2 | .sealed => 3 | .dropping => 4
    BitVec.ofNat 64 (st + (if e.superseded then 8 else 0) + e.count * 65536)

/-- The size of the tile is known: the scoreboard entry of its instruction covers that many bytes (R243). -/
def State.sizeSb (s : State) (r : Req) (id size : Nat) : State :=
  match r.who with
  | .slot f _ => s.modFacet f fun x => { x with sb := modFirst (·.op == id) (fun (e : SbEntry) => { e with len := size }) x.sb }
  | _ => s

/-- A reader must park on an entry: it is not SEALED and not DROPPING, or its count stands at 65,535 (R86, R90, R92). -/
def Slice.parksReader (x : Slice) (c tile ver : Nat) : Bool :=
  match x.version c tile ver with
  | none => true
  | some e => match e.st with | .waiting | .opened => true | .sealed => 65535 ≤ e.count | .dropping => false

/-- The pair has no entry and all 8,192 of the version table are in use: a read cannot make the WAITING entry of R90 (log 59). -/
def Slice.tableFull (x : Slice) (c tile ver : Nat) : Bool := (x.version c tile ver).isNone && 8192 ≤ x.versions.length

/-- A VGET or VRETAIN is accepted and reaches its entry; one that must park while the waiter store is full is refused (R86), and so is one
that finds no room for its entry (log 59). -/
def State.acceptReader (s : State) (sl id : Nat) (r : Req) (tile ver : Nat) : State :=
  let accept := fun (s : State) => if r.again then s else s.acceptReq id
  if s.heldLost r.who (s.canon r.va) ver then (accept s).lateReq id cVGONE
  else if (s.slice sl).tableFull r.ctx tile ver then s.refuseReq id r true
  else if (s.slice sl).parksReader r.ctx tile ver ∧ 4096 ≤ (s.slice sl).parkq.length then s.parkAt sl id r .onVersion
  else (accept s).readV sl r.ctx tile ver id

/-! Acceptance of versioned instructions at their home slice, the page being VERSIONED with tiles of `size` bytes (R243 steps 2 to
4). -/

/-- A piece of a VPUT is written to the frame by its owner (R90, R244). The instruction retires; its bytes have left local store when the
transfer's notice is due, and until then they can meet POISON (R230, log 51). -/
def State.putV (s : State) (sl id : Nat) (r : Req) (tile ver off la n : Nat) : State :=
  match (s.slice sl).version r.ctx tile ver with
  | some e =>
    if e.st ≠ .opened then s.failReq id cVGONE
    else if e.owner ≠ some r.who then s.failReq id cACCESS
    else
      match r.who with
      | .slot f _ =>
        let s := s.modV sl r.ctx tile ver fun e => e.put off ((s.facet f).lsBytes la n) ((s.facet f).sectorTaint la n)
        ((s.acceptReq id).setReq id { r with va := r.va - BitVec.ofNat 64 off, stage := .returning }).pushDue (.versionArrivalNotice id noAnswer)
      | _ => let (b, t, s) := s.newFrame n; ((s.modV sl r.ctx tile ver fun e => e.put off b t).acceptReq id).endReq id
  | none => s.failReq id cVGONE

/-- A versioned request has passed translation and the page's checks. -/
def State.acceptV (s : State) (sl id : Nat) (r : Req) (size : Nat) : State :=
  let c := r.ctx
  let v := localVa r.va
  let key := s.canon r.va
  let outside := fun (la lb lsize : Nat) => la < lb || lb + lsize < la + size
  let aligned := v % size = 0
  match r.op with
  | .create whole ver la lb lsize quota _ =>
    if ¬aligned then s.failReq id cALIGN
    else if whole ∧ outside la lb lsize then s.failReq id cLSRANGE
    else ((s.sizeSb r id size).setReq id { r with op := .create whole ver la lb lsize quota size }).tryCreate sl id
  | .vput ver la n =>
    if size < n ∨ v % size % n ≠ 0 then s.failReq id cALIGN
    else s.putV sl id r (v / size * size) ver (v % size) la n
  | .vseal ver =>
    if ¬aligned then s.failReq id cALIGN
    else match (s.slice sl).version c v ver with
      | some e =>
        if e.st ≠ .opened then s.failReq id cVGONE
        else if e.owner ≠ some r.who then s.failReq id cACCESS
        else ((s.acceptReq id).setReq id { r with stage := .returning }).pushDue (.seal sl (c * 2 ^ 52 + v) ver)
      | none => s.failReq id cVGONE
  | .vget ver la lb lsize =>
    if ¬aligned then s.failReq id cALIGN
    else if outside la lb lsize then s.failReq id cLSRANGE
    else (s.sizeSb r id size).acceptReader sl id r v ver
  | .vretain ver => if ¬aligned then s.failReq id cALIGN else s.acceptReader sl id r v ver
  | .vrelease ver =>
    if ¬aligned then s.failReq id cALIGN
    else if s.heldLost r.who key ver then s.failReq id cVGONE
    else match r.who with
      | .slot f n =>
        if !(s.slot f n).holds.contains (key, ver, true) then s.failReq id cACCESS
        else
          let s := s.modSlot f n fun x => { x with holds := x.holds.erase (key, ver, true) }
          ((s.acceptReq id).endReq id).endHold sl c v ver
      | .peer t =>
        if (((s.slice sl).version c v ver).map fun e => e.peers.contains (t / 32768)).getD false then
          (s.endReq id).endHold sl c v ver (some (t / 32768))
        else s.failReq id cACCESS
      | .core _ => s.failReq id cACCESS
  | .vdrop ver => if ¬aligned then s.failReq id cALIGN else ((s.acceptReq id).endReq id).vdropAt sl c v ver
  | .vquery ver d =>
    if ¬aligned then s.failReq id cALIGN
    else (s.acceptReq id fun t => t.wx d (vqueryValue ((s.slice sl).version c v ver)) false).endReq id
  | _ => s

/-- A versioned request to another device has been accepted there (R97): what is left for this device. The answer to a VGET, VSTORE or
VPUT may hold the tile size: the scoreboard entry then covers it (R243), and a report names the tile (R230). -/
def State.acceptRemoteV (s : State) (id : Nat) (r : Req) (ans : Answer) : State :=
  let key := s.canon r.va
  let s := match r.op, ans.data with
    | .create true _ _ _ _ _ _, _ :: _ | .vget _ _ _ _, _ :: _ => s.sizeSb r id (ofBytes ans.data)
    | _, _ => s
  let tile := match r.op, ofBytes ans.data with
    | .vput _ _ _, n + 1 => BitVec.ofNat 64 (r.va.toNat / (n + 1) * (n + 1))
    | _, _ => r.va
  let going := (s.acceptReq id).setReq id { r with va := tile, stage := .returning }
  match r.op with
  | .create whole _ _ _ _ _ _ => if whole then going else (s.acceptReq id).endReq id
  | .vput _ _ _ | .vseal _ | .vget _ _ _ _ | .vretain _ => going
  | .vrelease ver =>
    match r.who with
    | .slot f n =>
      if s.heldLost r.who key ver then s.failReq id cVGONE
      else if !(s.slot f n).holds.contains (key, ver, true) then s.failReq id cACCESS
      else ((s.modSlot f n fun x => { x with holds := x.holds.erase (key, ver, true) }).acceptReq id).endReq id
    | _ => s
  | .vquery _ d => (s.acceptReq id fun t => t.wx d (BitVec.ofNat 64 (ofBytes ans.data)) false).endReq id
  | _ => (s.acceptReq id).endReq id

/-! Notices (R92, R93). -/

/-- The data of a VGET is written to local store with its taint by sector; the write is the acquire of R139. -/
def State.landV (s : State) (f la : Nat) (b : List Byte) (taint : Nat → Bool) : State :=
  ((s.modFacet f fun x => x.enginePut la b fun i => taint ((4 * i - la) / 32)).retest f).refresh (.slot f 0) true

/-- A notice of a version on this device reaches its reader: data with a poisoned granule ends as a POISON late report (log 12); a
transient hold ends with the delivery. -/
def State.arriveV (s : State) (id : Nat) (r : Req) : State :=
  match r.op, s.home r.ctx r.va with
  | .vget ver la _ _, some sl =>
    let v := localVa r.va
    match (s.slice sl).version r.ctx v ver with
    | none => s.lateReq id cVGONE
    | some e =>
      let peer := match r.who with | .peer t => some (t / 32768) | _ => none
      let s : State :=
        if !e.poison.isEmpty then s.lateReq id cPOISON
        else match r.who with
          | .slot f _ => (s.endReq id).landV f la e.bytes fun i => (e.taint[i]?).getD false
          | _ => s.endReq id
      s.endHold sl r.ctx v ver peer
  | _, _ => s.endReq id

/-- A notice from another device. -/
def State.arriveRemoteV (s : State) (id : Nat) (r : Req) (ans : Answer) : State :=
  match ans.cause with
  | some c => s.lateReq id c
  | none =>
    match r.op, r.who with
    | .vget _ la _ _, .slot f _ =>
      if ansBad ans then s.lateReq id cPOISON else (s.endReq id).landV f la ans.data fun i => (ansSector ans 0 (32 * i)).1
    | .vretain ver, a => (s.endReq id).addHold a (s.canon r.va) ver
    | _, _ => s.endReq id

/-- A request awaits the notice of its version. -/
def Req.noticed (r : Req) : Bool :=
  r.stage == .returning &&
    (match r.op with | .vget _ _ _ _ | .vretain _ | .vput _ _ _ | .vseal _ | .create _ _ _ _ _ _ _ => true | _ => false)

/-- VERSION_ARRIVAL_NOTICE, R93; of a VPUT, its bytes have been written (R244). The completion of a VGET is an acquire (R139): it waits for
the older loads of its slot. -/
def execVersionArrivalNotice (id : Nat) (ans : Answer) (σ : State) : Out :=
  let σ := σ.done (.versionArrivalNotice id ans)
  .next (match σ.req id with
    | some r =>
      let vget : Bool := match r.op with | .vget _ _ _ _ => true | _ => false
      if !r.noticed then σ
      else if vget ∧ ans.cause.isNone ∧ σ.olderLoad r.who id then σ.inTicks 1 (.versionArrivalNotice id ans)
      else if σ.whereIs r.va = .here then
        (match r.op with | .vget _ _ _ _ | .vretain _ => σ.arriveV id r | .vput _ _ _ => σ.endReq id | _ => σ)
      else σ.arriveRemoteV id r ans
    | none => σ)

/-! The window's part (R33, R92, R95, R96). -/

/-- The tile size of a page as a walk finds it now. -/
def State.tileSizeAt (s : State) (c : Nat) (va : Word) : Option Nat :=
  match s.whereIs va, s.home c va with
  | .here, some sl =>
    (match s.walkAt sl c (localVa va) with | .leaf w _ => if leafVer w then some (tileSize w) else none | _ => none)
  | _, _ => none

/-- A decoded entry of a device takes a hold on a version it reads (R33, R97): it waits while the count stands at 65,535, as a parked request
(R86, R92), and while the table has no room for the pair (log 59). An entry of this device's window lists it. -/
def State.decodeHold (s : State) (dev c seq : Nat) (va : Word) (ver : Nat) : State :=
  match s.whereIs va, s.home c va with
  | .here, some sl =>
    let tile := localVa va
    let peers := if dev = s.dev then [] else [dev]
    let list := fun (s : State) => if dev = s.dev then s.modEntry c seq fun x => { x with holds := x.holds ++ [(sl, tile, ver)] } else s
    let id := s.nextId
    let r : Req := { who := .peer (dev * 32768), ctx := c, seq := seq, va := va, pc := 0, op := .vhold ver, stage := .onVersion }
    let wait := { s with nextId := id + 1, reqs := kset id r s.reqs }
    match (s.slice sl).version c tile ver with
    | some e =>
      if e.count < 65535 then list (s.modV sl c tile ver fun e => { e with count := e.count + 1, peers := e.peers ++ peers })
      else
        let s := wait.parkAt sl id r .onVersion
        if (s.slice sl).parkq.contains id then s.modV sl c tile ver fun e => { e with waiters := e.waiters ++ [id] } else s
    | none =>
      if (s.slice sl).tableFull c tile ver then wait.refuseReq id r true
      else
        let e : VEntry := { ctx := c, tile := tile, ver := ver, st := .waiting, count := 1, peers := peers }
        list (s.modSlice sl fun x => { x with versions := x.versions ++ [e] })
  | _, _ => s

/-- The holds of an entry end (R92), those still waiting among them. -/
def State.endEntryHolds (s : State) (c seq : Nat) : State :=
  match s.entry c seq with
  | none => s
  | some e =>
    let waiting := (s.reqs.filter fun (kr : Nat × Req) =>
      kr.2.who == .peer (s.dev * 32768) && kr.2.ctx == c && kr.2.seq == seq && (match kr.2.op with | .vhold _ => true | _ => false)).map
        Prod.fst
    let s := waiting.foldl (fun s id => s.forgetReq id) s
    let s := s.modEntry c seq fun x => { x with holds := [] }
    e.holds.foldl (fun s (h : Nat × Nat × Nat) => s.endHold h.1 c h.2.1 h.2.2) s

/-- The holds of a task end (R245). -/
def State.endHolds (s : State) (sl : Slot) : State :=
  let c := (sl.owner.map Prod.fst).getD 0
  sl.holds.foldl
    (fun s (h : Nat × Nat × Bool) =>
      let va : Word := BitVec.ofNat 64 h.1
      match h.2.2, s.whereIs va, s.home c va with
      | true, .here, some k => s.endHold k c (localVa va) h.2.1
      | _, _, _ => s) s

/-- A task's holds that remain at its end are released (R245). -/
def State.endTaskHolds (s : State) (f n : Nat) : State :=
  (s.modSlot f n fun x => { x with holds := [] }).endHolds (s.slot f n)

/-- (v − u) mod 2^32 lies in [1, 2^31) (R95). -/
def newer (v u : Nat) : Bool := let d := (v + 2 ^ 32 - u) % 2 ^ 32; decide (1 ≤ d ∧ d < 2 ^ 31)

/-- SUPERSEDE_NOTICE, R95. -/
def execSupersedeNotice (sl c base len v : Nat) (σ : State) : Out :=
  σ.whenDue (.supersedeNotice sl c base len v) fun σ =>
    let hit := (σ.slice sl).versions.filter fun e => e.ctx == c && base ≤ e.tile && e.tile < base + len && newer v e.ver
    hit.foldl (fun σ e => (σ.modV sl c e.tile e.ver fun e => { e with superseded := true }).settleV sl c e.tile e.ver) σ

/-! Versioned instructions (R242 to R246). -/

/-- A request names a version of a lost peer on which its task had a hold: its next use finds it gone (R98). -/
def State.lostThere (s : State) (a : Agent) (va : Word) (op : ReqOp) : Bool :=
  match op with
  | .vget v _ _ _ | .vretain v | .vrelease v | .vdrop v | .vquery v _ | .vseal v | .vput v _ _ | .create _ v _ _ _ _ _ =>
    s.heldLost a (s.canon va) v
  | _ => false

/-- A versioned instruction of a slot: its checks at issue have passed; it is counted and sent (R190, R228). `lock` is the range of local
store it takes a scoreboard entry for: first byte, length, and whether it goes from local to global (R243). -/
def sendV (σ : State) (f n : Nat) (va : Word) (op : ReqOp) (lock : Option (Nat × Nat × Bool)) (ts : List Touch) : Out :=
  counted σ (σ.slot f n).cnt.vg <|
    if lock.isSome ∧ 16 ≤ (σ.facet f).sb.length then stall σ clSCORE
    else watched σ ts fun σ =>
      let held := fun (l : Nat × Nat × Bool) =>
        let e : SbEntry := { op := σ.nextId, slot := n, kind := if l.2.2 then .vstore else .vget, dir := l.2.2, laddr := l.1, len := l.2.1,
                             gaddr := va }
        σ.modFacet f fun x => { x with sb := x.sb ++ [e] }
      if σ.whereIs va = .nowhere then faultOut σ (if σ.lostThere (.slot f n) va op then cVGONE else cNOMAP) va
      else send ((lock.map held).getD σ) va op Counts.addVg

/-- The common part of versioned instructions: tile name, version and, where it has one, local address. -/
def verOp (σ : State) (b a : BitVec 5) (rs : List (BitVec 5)) (release : Bool) (k : State → Thread → Nat → Nat → Slot → Out) : Out :=
  issue σ { core := false, handler := false, reads := [a, b] ++ rs } fun t =>
    onSlot σ fun f n sl =>
      if release then
        (match σ.release σ.turn true with
          | none => stall σ clFENCE
          | some σ => k σ t f n sl)
      else k σ t f n sl

/-- The version that a register names (R242). -/
def versionOf (t : Thread) (b : BitVec 5) : Nat := (t.rx b).toNat % 2 ^ 32

/-- QUOTA of a slot's entry. -/
def State.quotaOf (s : State) (sl : Slot) : Nat := ((sl.owner.bind fun o => s.entry o.1 o.2).map (·.hdr.quota)).getD 0

/-- The size of the tile that a slot's instruction names, for a watchpoint: one byte while its page cannot be read. -/
def State.watchSize (s : State) (sl : Slot) (va : Word) : Nat := (s.tileSizeAt ((sl.owner.map Prod.fst).getD 0) va).getD 1

/-- VSTORE, R244. -/
def execVstore (b a d : BitVec 5) (σ : State) : Out :=
  issue σ { core := false, handler := false, reads := [a, b, d] } fun t =>
    onSlot σ fun f n sl =>
      let la := t.rx d
      let size := σ.watchSize sl (t.rx a)
      if la.toNat % 64 ≠ 0 then faultOut σ cALIGN la
      else match σ.release σ.turn true with
        | none => stall σ clFENCE
        | some σ =>
          sendV σ f n (t.rx a) (.create true (versionOf t b) la.toNat sl.lb sl.lsize (σ.quotaOf sl) 0) (some (la.toNat, size, true))
            [{ local' := true, facet := f, base := la.toNat, len := size, rd := true },
             { local' := false, base := (t.rx a).toNat, len := size, wr := true }]

/-- A versioned instruction without a local range. -/
def verPlain (σ : State) (b a : BitVec 5) (release rd wr : Bool) (op : State → Slot → Nat → ReqOp) : Out :=
  verOp σ b a [] release fun σ t f n sl =>
    sendV σ f n (t.rx a) (op σ sl (versionOf t b)) none [{ local' := false, base := (t.rx a).toNat, len := 1, rd := rd, wr := wr }]

/-- VOPEN, R244. -/
def execVopen (b a : BitVec 5) (σ : State) : Out :=
  verPlain σ b a false false true fun σ sl ver => .create false ver 0 sl.lb sl.lsize (σ.quotaOf sl) 0

/-- VPUT, R244. -/
def execVput (b a : BitVec 5) (p : BitVec 3) (d : BitVec 5) (σ : State) : Out :=
  issue σ { core := false, handler := false, reads := [a, b, d] } fun t =>
    onSlot σ fun f n sl =>
      let la := (t.rx d).toNat
      let len := 2 ^ (p.toNat + 7)
      if la % 64 ≠ 0 then faultOut σ cALIGN (t.rx d)
      else if !sl.holdsRange la len then faultOut σ cLSRANGE (t.rx d)
      else sendV σ f n (t.rx a) (.vput (versionOf t b) la len) (some (la, len, true))
        [{ local' := true, facet := f, base := la, len := len, rd := true },
         { local' := false, base := (t.rx a).toNat, len := len, wr := true }]

/-- VSEAL, R244. -/
def execVseal (b a : BitVec 5) (σ : State) : Out := verPlain σ b a true false true fun _ _ ver => .vseal ver

/-- VGET, R245. -/
def execVget (b a d : BitVec 5) (σ : State) : Out :=
  issue σ { core := false, handler := false, reads := [a, b, d] } fun t =>
    onSlot σ fun f n sl =>
      let la := t.rx d
      let size := σ.watchSize sl (t.rx a)
      if la.toNat % 64 ≠ 0 then faultOut σ cALIGN la
      else sendV σ f n (t.rx a) (.vget (versionOf t b) la.toNat sl.lb sl.lsize) (some (la.toNat, size, false))
        [{ local' := false, base := (t.rx a).toNat, len := size, rd := true },
         { local' := true, facet := f, base := la.toNat, len := size, wr := true }]

/-- VRETAIN, R245. -/
def execVretain (b a : BitVec 5) (σ : State) : Out := verPlain σ b a false true false fun _ _ ver => .vretain ver
/-- VRELEASE, R245. -/
def execVrelease (b a : BitVec 5) (σ : State) : Out := verPlain σ b a false false true fun _ _ ver => .vrelease ver
/-- VDROP, R245. -/
def execVdrop (b a : BitVec 5) (σ : State) : Out := verPlain σ b a false false true fun _ _ ver => .vdrop ver

/-- VQUERY, R246. -/
def execVquery (b a d : BitVec 5) (σ : State) : Out :=
  issue σ { core := false, handler := false, reads := [a, b], writes := [d] } fun t =>
    onSlot σ fun f n _ =>
      sendV σ f n (t.rx a) (.vquery (versionOf t b) d) none [{ local' := false, base := (t.rx a).toNat, len := 1, rd := true }]

end Sys2Proof.Machine
end

