-- ==== Sys2Proof/Machine/Tasks.lean ====
section
/-! DEFINITION. Tile tasks: headers (R46 to R49), hand-out and placement (R50, R366, R382), gangs (R52, R376), lazy halving (R54, R373), the
start and end of tasks (R56, R57, R306), continuations (R58, R59, R303), task lanes (R60), and killing (R42). -/

namespace Sys2Proof.Machine

/-! Launch headers (R46 to R49, R51). An extent field of 0 with width 32 has been stored as 2^32. -/

/-- EXT0 × … × EXT(l − 1). -/
def Header.groupSize (h : Header) (l : Nat) : Nat := (h.ext.take l).foldl (fun n e => n * e) 1

/-- T. -/
def Header.total (h : Header) : Nat := h.groupSize 6

/-- The work identifier of an ordinal (R48): field extents and widths, the bit the next field begins at. -/
def widGo : List (Nat × Nat) → Nat → Nat → Nat
  | [], _, _ => 0
  | (e, w) :: l, o, b => o % e * 2 ^ b + widGo l (o / e) (b + w)
def Header.widOf (h : Header) (o : Nat) : Nat := widGo (h.ext.zip h.wd) o 0

/-- F: tasks of one entry that one facet takes at once (R51). -/
def Header.perFacet (h : Header) : Nat := if h.lsize = 0 then 15 else min 15 (262144 / h.lsize)

/-! Prisms and lanes of a context. -/

/-- SOWN of a tile slot (R372): MODE and OWNER. -/
def Prism.mode (p : Prism) (i n : Nat) : Nat := (kget 0 p.sown (16 * i + n)).toNat % 4
def Prism.owner (p : Prism) (i n : Nat) : Nat := (kget 0 p.sown (16 * i + n)).toNat / 256

/-- The slots of a prism in ascending (facet, slot) order; slot 15 runs no task. -/
def tileSlots : List (Nat × Nat) := (List.range 8).flatMap fun i => (List.range 15).map fun n => (i, n)

/-- The slots of a prism that the supervisor assigned to a context (R60, R372). -/
def State.lanesOf (s : State) (p c : Nat) : List (Nat × Nat) :=
  tileSlots.filter fun (i, n) => (s.prism p).mode i n == 1 && (s.prism p).owner i n == c

/-- The partition prism list (R50, R366). -/
def State.prismList (s : State) (c : Nat) (det : Bool) : List Nat :=
  let l := ((s.part (s.ctx c).d.part).prisms).foldl (fun l p => sadd p l) []
  l.filter fun p => (s.prism p).state == .active && (!det || !(s.lanesOf p c).isEmpty)

/-! Window conditions (R36, R38, R41, R42). -/

/-- The entries of a window that are older than one. -/
def Context.older (x : Context) (seq : Nat) : List Entry := x.window.takeWhile (·.seq != seq)

/-- Two ordinary regions conflict (R35). -/
def Operand.conflicts (a b : Operand) : Bool :=
  !a.versioned && !b.versioned && (a.wr || b.wr) && overlaps a.base.toNat a.len.toNat b.base.toNat b.len.toNat

/-- The conditions of R36. -/
def Context.mayIssue (x : Context) (e : Entry) : Bool :=
  let older := x.older e.seq
  older.all (fun o => o.gangsWaiting.isEmpty && !(o.hdr.gang != 0 && (o.state == .decoded || o.unhanded))) &&
    (if e.ops.any (fun a => !a.versioned && a.wr) then older.all (·.state == .complete)
     else older.all fun o => o.state == .complete || !(o.ops.any fun a => e.ops.any fun b => a.conflicts b))

/-- The oldest FAULTED entry, where every older entry is COMPLETE (R41, R42). -/
def Context.reportable (x : Context) : Option Entry :=
  match x.window.find? (·.state == .faulted) with
  | some e => if (x.older e.seq).all (·.state == .complete) then some e else none
  | none => none

/-- A fault of the context is being handled: from the reporting until the handler has ended (R42). -/
def FaultPhase.busy : FaultPhase → Bool
  | .none => false
  | .waiting _ _ _ _ | .handler | .service _ _ | .answered _ _ => true

/-- What a change of a window makes due. -/
def State.poke (s : State) (c : Nat) : State :=
  let x := s.ctx c
  let s : State := x.window.foldl
    (fun s e => if e.state = .decoded ∧ x.mayIssue e then s.pushDue (.entryIssue c e.seq) else s) s
  let s : State := match x.window with
    | e :: _ => if e.state = .complete then s.pushDue (.entryRetire c) else s
    | [] => s
  match x.reportable with
  | some _ => if x.phase.busy then s else s.pushDue (.reportedEntry c)
  | none => s

/-- All ordinals and continuations of an entry have ended. -/
def Entry.allEnded (e : Entry) : Bool := e.state == .issued && e.left == 0 && e.conts == 0 && !e.unhanded

/-- A fault reaches an entry (R41, R42): its primary, or one more. -/
def State.entryFaults (s : State) (c seq : Nat) (r : Report) : State :=
  match s.entry c seq with
  | none => s
  | some e =>
    let s : State := match e.state with
      | .issued | .complete => s.modEntry c seq fun e => { e with state := .faulted, fault := some r, gangsWaiting := [] }
      | .faulted => s.modEntry c seq fun e => if e.fault.isSome then { e with mult := true } else { e with fault := some r }
      | .decoded => s
    s.poke c

/-! Hand-out (R50, R382). -/

/-- Ordinals of a context handed to a prism and not yet started. -/
def State.undispensed (s : State) (p c : Nat) : Nat :=
  ((s.prism p).ranges.filter (·.c == c)).foldl (fun n r => n + (r.hi - r.lo)) 0 +
    (List.range 8).foldl (fun n i => (s.facet (p * 8 + i)).slots.foldl (fun n (_, sl) =>
      match sl.heldFor, sl.rem with
      | some (c', _), some (a, b) => if c' = c then n + (b - a) else n
      | _, _ => n) n) 0

/-- A range task goes to a prism. -/
def State.giveRange (s : State) (p c seq lo hi : Nat) : State :=
  if hi ≤ lo then s
  else
    let s := s.modPrism p fun x => { x with ranges := x.ranges ++ [{ c := c, seq := seq, lo := lo, hi := hi }] }
    s.modEntry c seq fun e => { e with placed := e.placed ++ [(lo, hi, p)] }

/-- The prism with the fewest undispensed ordinals of a context; the earlier in the list wins ties. -/
def State.leastLoaded (s : State) (c : Nat) (l : List Nat) : Nat :=
  (l.foldl (fun (b : Option (Nat × Nat)) p =>
    let n := s.undispensed p c
    match b with
    | none => some (p, n)
    | some (_, m) => if n < m then some (p, n) else b) none).elim 0 Prod.fst

/-- Placement groups handed out one after the other. -/
def State.giveGroups (s : State) (l : List Nat) (c seq size : Nat) (det : Bool) : List Nat → State
  | [] => s
  | g :: gs =>
    let p := if det then (l[g % l.length]?).getD 0 else s.leastLoaded c l
    (s.giveRange p c seq (g * size) (g * size + size)).giveGroups l c seq size det gs

/-- The contiguous range tasks of PLACE 0: prisms left, ordinals left, the longer ones left, the next ordinal. -/
def State.giveEven (s : State) (c seq q : Nat) : List Nat → Nat → Nat → State
  | [], _, _ => s
  | p :: ps, r, lo =>
    let n := if 0 < r then q + 1 else q
    (s.giveRange p c seq lo (lo + n)).giveEven c seq q ps (r - 1) (lo + n)

/-- The range tasks of an issued entry go to prisms, or stay with the window while the list is empty. -/
def State.handOut (s : State) (c seq : Nat) : State :=
  match s.entry c seq with
  | none => s
  | some e =>
    let h := e.hdr
    let l := s.prismList c h.det
    if l.isEmpty then s.modEntry c seq fun e => { e with unhanded := true }
    else
      let lanes := if h.det then l.map fun p => (p, s.lanesOf p c) else []
      let gangs := if h.gang = 0 then [] else List.range (h.total / h.groupSize h.gang)
      let s := s.modEntry c seq fun e =>
        { e with unhanded := false, lanes := lanes, handed := s.tick, gangsWaiting := gangs }
      if h.place = 0 then s.giveEven c seq (h.total / l.length) l (h.total % l.length) 0
      else s.giveGroups l c seq (h.groupSize h.place) h.det (List.range (h.total / h.groupSize h.place))

/-- The prism that holds the placement group of an ordinal of an entry. -/
def Entry.prismOf (e : Entry) (o : Nat) : Option Nat := (e.placed.find? fun (lo, hi, _) => lo ≤ o && o < hi).map (·.2.2)

/-- Ordinals [x, y) of an entry are no longer among the range tasks of a prism. -/
def cutRanges (c seq x y : Nat) (l : List Range) : List Range :=
  l.flatMap fun r =>
    if r.c ≠ c ∨ r.seq ≠ seq ∨ r.hi ≤ x ∨ y ≤ r.lo then [r]
    else (if r.lo < x then [{ r with hi := x }] else []) ++ (if y < r.hi then [{ r with lo := y }] else [])

/-! Whether a task can start (R51, R54, R375, R376, R380). -/

/-- The allocations of a facet's tasks. -/
def Facet.allocs (x : Facet) : List (Nat × Nat) :=
  x.slots.filterMap fun (_, sl) => match sl.job with | .task _ _ _ _ => some (sl.lb, sl.lsize) | _ => none

/-- The lowest free range of a size in a local store (log 8). -/
def lowestHole (used : List (Nat × Nat)) (size : Nat) : Option Nat := lowestFree 262144 used size

/-- k allocations of a size fit. -/
def holesFit (used : List (Nat × Nat)) (size : Nat) : Nat → Bool
  | 0 => true
  | k + 1 => match lowestHole used size with
    | none => false
    | some a => holesFit ((a, size) :: used) size k

/-- Tasks of an entry on a facet. -/
def Facet.tasksOf (x : Facet) (c seq : Nat) : Nat :=
  (x.slots.filter fun (_, sl) => match sl.job with | .task c' q _ _ => c' == c && q == seq | _ => false).length

/-- The facets of a prism, those of a list among them, can all serve DET grants from the kept lanes (R376). -/
def State.detRoom (s : State) (p : Nat) (fs : List Nat) : Bool :=
  32 * (fs.filter fun f => !(s.facet f).kept).length ≤ s.keptFree p

/-- k more tasks of an entry can start on a facet: F, local store, kept lanes, the clock and the facet's and prism's service. -/
def State.facetTakes (s : State) (f : Nat) (e : Entry) (c k : Nat) : Bool :=
  let x := s.facet f
  let p := prismOf f
  x.tasksOf c e.seq + k ≤ e.hdr.perFacet && (e.hdr.lsize == 0 || holesFit x.allocs e.hdr.lsize k) &&
    (!e.hdr.det || s.detRoom p [f]) && (!s.holdsFixt p || (s.prism p).pin) && x.save == .idle &&
    ((s.prism p).state == .active || (s.prism p).state == .draining)

/-- The ordinals of gang g of an entry among a prism's range tasks. -/
def State.gangHere (s : State) (p c : Nat) (e : Entry) (g : Nat) : List Nat :=
  let k := e.hdr.groupSize e.hdr.gang
  ((s.prism p).ranges.filter fun r => r.c == c && r.seq == e.seq).flatMap fun r => upto (max r.lo (g * k)) (min r.hi (g * k + k))

/-- An entry waits for the admission of a gang with members on a prism. -/
def State.gangWaits (s : State) (p c : Nat) (e : Entry) : Bool :=
  e.state == .issued && (match e.gangsWaiting with | g :: _ => !(s.gangHere p c e g).isEmpty | [] => false)

/-- The slots that a prism holds for gangs that wait (R52). -/
def State.heldSlots (s : State) (p : Nat) : List (Nat × Nat × Nat × Nat) :=
  (s.prism p).held.filter fun (_, _, c, seq) => ((s.entry c seq).map (s.gangWaits p c)).getD false

/-- The spill reservations that wait together with the held slots of a context's gang (R375). -/
def State.heldSpill (s : State) (c : Nat) : Nat :=
  (s.prisms.flatMap fun (p, _) => (s.heldSlots p).filter (·.2.2.1 == c)).foldl
    (fun n (_, _, _, seq) => n + 32 * ((s.entry c seq).map (·.hdr.spill)).getD 0) 0

/-- The spill reservations of k tasks of an entry fit beside those that wait for a gang (R375). -/
def State.spillFits (s : State) (c : Nat) (h : Header) (k : Nat) : Bool :=
  h.spill == 0 || (s.ctx c).spillUsed + s.heldSpill c + k * h.spill * 32 ≤ (s.ctx c).d.splZ

/-- The reservations of the k members of a gang fit. -/
def State.gangSpill (s : State) (c : Nat) (h : Header) (k : Nat) : Bool := (s.ctx c).spillUsed + k * h.spill * 32 ≤ (s.ctx c).d.splZ

/-- The 32-byte entries of a context's spill area that the reservations of its tasks take, saved ones among them (R375). -/
def State.spillTaken (s : State) (c : Nat) : List Nat :=
  s.facets.flatMap fun (_, x) => (x.slots ++ x.savedSlots).flatMap fun (_, sl) => match sl.job with
    | .task c' _ _ _ => if c' = c then sl.spillAt else []
    | _ => []

/-- A tile slot may hold a task of an entry (R63, R372). -/
def State.slotTakes (s : State) (p i n c : Nat) (e : Entry) : Bool :=
  let m := (s.prism p).mode i n
  (m == 0 || (m == 1 && (s.prism p).owner i n == c)) &&
    (n != 14 || e.hdr.det || ((s.ctx c).window.head?.map (·.seq)) == some e.seq)

/-! Task start and end (R56, R57, R306). -/

/-- The launch record of an entry (R55, R368), as an address of this device. -/
def State.recordAt (s : State) (c seq : Nat) : Nat := (s.ctx c).d.lra + 512 * (seq % 256)
def State.kpOf (s : State) (c seq : Nat) : Word := BitVec.ofNat 64 (s.dev * 2 ^ 52 + s.recordAt c seq)

/-- Where a task begins: an ordinal, or a continuation's CODE, FRAME and JADDR. -/
abbrev Entering := Option (Word × Word × Word)

/-- The scalar state of a starting task (R56). The two low bits of a continuation's CODE are dropped (log 62). -/
def startThread (e : Entry) (kp : Word) (lb ord : Nat) (k : Entering) : Thread :=
  let w := BitVec.ofNat 64 (e.hdr.widOf ord)
  let top := BitVec.ofNat 64 (lb + e.hdr.lsize)
  let t : Thread := { pc := ((k.map (·.1)).getD e.hdr.entry) &&& ~~~3#64, rnd := rndStored e.hdr.rnd0 &&& ~~~0x1F00#32,
                      rkey := e.hdr.rkey0 ^^^ BitVec.ofNat 64 ord }
  ((((((t.wx 3 w false).wx 4 kp false).wx 5 (BitVec.ofNat 64 lb) false).wx 2 top false).wx 6 ((k.map (·.2.2)).getD 0) false).wx 7
    ((k.map (·.2.1)).getD 0) false)

/-- A tile task starts on a slot (R56, R256, R375, R305): the register state, a cleared allocation, its grant, its spill reservation; a
continuation's start is an acquire. The remainder the slot holds stays; the reservation takes the lowest free entries (log 65). -/
def State.startTask (s : State) (f n c : Nat) (e : Entry) (ord : Nat) (k : Entering) : State :=
  let old := s.slot f n
  let lb := (lowestHole (s.facet f).allocs e.hdr.lsize).getD 0
  let s := s.grantAtStart f e.hdr.det
  let d := (s.ctx c).dbg
  let grp := if d.gjen then d.gj else old.sdc.grp
  let memb := d.gjen || old.sdc.memb
  let heldGroup := memb && d.hstat.getLsbD grp.toNat
  let halt : Option (BitVec 8) := if d.att && d.hts then some 0xFE else if heldGroup then some 0xFF else none
  let sdc : Sdc := { grp := grp, memb := memb, pair := old.sdc.pair, held := heldGroup,
                     haltReq := halt }
  let sl : Slot := { th := startThread e (s.kpOf c e.seq) lb ord k, job := .task c e.seq ord k.isSome,
                     slim := BitVec.ofNat 18 (lb + e.hdr.lsize - e.hdr.stack), felim := e.hdr.felim0, ord := BitVec.ofNat 48 ord,
                     wid := BitVec.ofNat 64 (e.hdr.widOf ord), lb := lb, lsize := e.hdr.lsize, rem := old.rem, sdc := sdc,
                     spillN := e.hdr.spill, spillAt := lowestNumbers (s.spillTaken c) e.hdr.spill,
                     wakeAt := (s.facet f).cyc + e.hdr.lsize / 128, wakeFor := clVACANT, stalls := old.stalls }
  let s := s.modFacet f fun x =>
    { x with v := x.v.filter (fun (k, _) => !(16 * n ≤ k && k < 16 * n + 16)),
             ls := x.ls.filter fun (i, _) => !(lb ≤ 4 * i && 4 * i < lb + e.hdr.lsize) }
  let s := (s.setSlot f n sl).modCtx c fun x => { x with spillUsed := x.spillUsed + e.hdr.spill * 32 }
  let s := if k.isSome then s.refresh (.slot f n) true else s
  s.traceEvent f n 1 0 sl.th.pc (BitVec.ofNat 64 ord)

/-- The slot becomes vacant: its allocation, mailbox, spill reservation, sequencer items, streams and scoreboard entries go, and the
facet's grant is settled (R256, R306). The remainder it holds stays. -/
def State.vacate (s : State) (f n : Nat) : State :=
  let sl := s.slot f n
  let s : State := match sl.job with
    | .task c _ _ _ => s.modCtx c fun x => { x with spillUsed := x.spillUsed - sl.spillN * 32 }
    | _ => s
  let body := fun (i : SeqItem) => { i with body := i.body.filter fun v => v.slot != n }
  let s := s.modFacet f fun x =>
    { x with seqQ := (x.seqQ.map body).filter (fun i => !i.body.isEmpty), inflight := x.inflight.filter fun r => r.slot != n,
             streams := x.streams.filter (fun (_, st) => st.slot != n), sb := x.sb.filter (fun e => e.slot != n),
             parked := x.parked.filter (· != n), winFpx := sdel n x.winFpx, reports := x.reports }
  let s := s.setSlot f n { rem := sl.rem, stalls := sl.stalls, sdc := { grp := sl.sdc.grp, pair := sl.sdc.pair } }
  (s.retest f).grantAtEnd f

/-! Continuations (R58, R59, R303, R304). -/

/-- Records of a context in a prism's continuation area. -/
def State.contsIn (s : State) (p c : Nat) : Nat := ((s.prism p).conts.filter (·.c == c)).length

/-- A continuation record in memory (R58). -/
def Cont.bytes (k : Cont) : List Byte :=
  toBytes 8 k.code.toNat ++ toBytes 8 k.frame.toNat ++ toBytes 8 k.jaddr.toNat ++ toBytes 8 k.ord

/-- A record takes its place in the queue of a prism, and the lowest free entry of its context's continuation area there (R368, log 65). -/
def State.placeCont (s : State) (p : Nat) (k : Cont) : State :=
  let i := (lowestNumbers (((s.prism p).conts.filter (·.c == k.c)).map (·.at')) 1).headD 0
  let k := { k with at' := i }
  let d := (s.ctx k.c).d
  (s.deviceWrite d.world (d.contB + 32 * (d.contN * p + i)) k.bytes).modPrism p fun x => { x with conts := x.conts ++ [k] }

/-- A record joins the queue of a prism. -/
def State.pushCont (s : State) (p : Nat) (k : Cont) : State :=
  (s.placeCont p k).modEntry k.c k.seq fun e => { e with conts := e.conts + 1 }

/-- A record that a JOIN enqueues joins the queue, or waits at its home slice while the area is full. -/
def State.joinCont (s : State) (p : Nat) (k : Cont) : State :=
  if s.contsIn p k.c < (s.ctx k.c).d.contN then s.pushCont p k
  else (s.modPrism p fun x => { x with contsWait := x.contsWait ++ [k] }).modEntry k.c k.seq fun e => { e with conts := e.conts + 1 }

/-- A record leaves the queue of a prism: the first that waits for room takes its place. -/
def State.takeCont (s : State) (p : Nat) (k : Cont) : State :=
  let s := s.modPrism p fun x => { x with conts := x.conts.erase k }
  match takeFirst (fun (w : Cont) => w.c == k.c) (s.prism p).contsWait with
  | some (w, rest) => (s.modPrism p fun x => { x with contsWait := rest }).placeCont p w
  | none => s

/-- A continuation starts on a slot. -/
def State.startCont (s : State) (f n : Nat) (e : Entry) (k : Cont) : State :=
  (s.takeCont (prismOf f) k).startTask f n k.c e k.ord (some (k.code, k.frame, k.jaddr))

/-! What a free slot receives (R54, R59, R60, R373). -/

/-- Work chosen for a slot: a continuation, an interval [a, b) of range tasks or of the remainder of another slot, to be split, or an
ordinal of a task lane. -/
inductive Pick where
  | cont (k : Cont) | range (a b : Nat) | remain (f n a b : Nat) | lane (o : Nat)
  deriving DecidableEq, Repr

/-- The intervals of an entry in a prism. -/
def State.intervals (s : State) (p c seq : Nat) : List Pick :=
  (((s.prism p).ranges.filter fun r => r.c == c && r.seq == seq).map fun r => Pick.range r.lo r.hi) ++
    (List.range 8).flatMap fun i => (s.facet (p * 8 + i)).slots.filterMap fun (n, sl) =>
      match sl.heldFor, sl.rem with
      | some (c', q), some (a, b) => if c' = c ∧ q = seq ∧ a < b then some (.remain (p * 8 + i) n a b) else none
      | _, _ => none

/-- The ends of an interval. -/
def Pick.ends : Pick → Nat × Nat
  | .range a b | .remain _ _ a b => (a, b)
  | _ => (0, 0)

/-- The largest interval, ties to the lowest (R54). -/
def largest (l : List Pick) : Option Pick :=
  l.foldl (fun b q => match b with
    | none => some q
    | some r =>
      let (a, e) := q.ends
      let (a', e') := r.ends
      if e' - a' < e - a ∨ (e' - a' = e - a ∧ a < a') then some q else b) none

/-- The lane number of a slot for a DET entry. -/
def Entry.laneOf (e : Entry) (p i n : Nat) : Option (Nat × Nat) :=
  match e.lanes.find? (·.1 == p) with
  | some (_, l) => (l.idxOf? (i, n)).map fun j => (j, l.length)
  | none => none

/-- The members of an ordinal's gang on a prism: how many stand below a number. -/
def Entry.membersBelow (e : Entry) (p o top : Nat) : Nat :=
  let size := e.hdr.groupSize e.hdr.gang
  e.placed.foldl (fun n (lo, hi, q) =>
    if q = p then n + (min (min hi (o / size * size + size)) top - max lo (o / size * size)) else n) 0

/-- The task lane of a DET entry's ordinal on a prism with L lanes: o mod L (R60). The members of a gang there take consecutive lanes, one
each (R52), from that of the first on (log 66). -/
def Entry.laneFor (e : Entry) (p o len : Nat) : Nat :=
  if e.hdr.gang = 0 then o % len
  else
    let size := e.hdr.groupSize e.hdr.gang
    let first := e.placed.foldl (fun b (lo, hi, q) =>
      if q = p ∧ max lo (o / size * size) < min hi (o / size * size + size) then min b (max lo (o / size * size)) else b) o
    (first + e.membersBelow p o o) % len

/-- The lowest ordinal of a prism's range tasks that a lane runs next: o mod L = j. -/
def State.laneNext (s : State) (p c seq j len : Nat) : Option Nat :=
  ((s.prism p).ranges.filter fun r => r.c == c && r.seq == seq).foldl
    (fun b r =>
      let o := r.lo + (j + len - r.lo % len) % len
      if o < r.hi then some (match b with | none => o | some m => min m o) else b) none

/-- The first continuation of a lane in (ORD, push order). -/
def laneCont (e : Entry) (p : Nat) (l : List Cont) (j len : Nat) : Option Cont :=
  (l.filter fun k => e.laneFor p k.ord len == j).foldl (fun b k => match b with
    | none => some k
    | some (m : Cont) => if k.ord < m.ord then some k else b) none

/-- The work of one entry for a slot: continuations first (R59), then intervals or the lane's next ordinal; a gang entry's ordinals are
placed by admission alone (R52). -/
def State.pickOf (s : State) (f n c : Nat) (e : Entry) : Option Pick :=
  let p := prismOf f
  let conts := (s.prism p).conts.filter fun k => k.c == c && k.seq == e.seq
  if e.hdr.det then
    match e.laneOf p (f % 8) n with
    | none => none
    | some (j, len) =>
      match laneCont e p conts j len with
      | some k => some (.cont k)
      | none => if e.hdr.gang != 0 then none else (s.laneNext p c e.seq j len).map Pick.lane
  else match conts with
    | k :: _ => some (.cont k)
    | [] => if e.hdr.gang != 0 then none else largest (s.intervals p c e.seq)

/-- A lane of a DET entry has not run all that the entry gave the device: younger entries wait for it (R60). -/
def Entry.laneBusy (e : Entry) (p i n : Nat) : Bool := e.hdr.det && e.state == .issued && (e.laneOf p i n).isSome && !e.allEnded

/-- A slot is a task lane on which an older DET entry of the context has still to run tasks, be it that it has yet to issue or to be handed
out (R60): a DET entry does not start there. -/
def State.laneTaken (s : State) (p i n c : Nat) (e : Entry) : Bool :=
  e.hdr.det && ((s.ctx c).older e.seq).any fun o =>
    o.laneBusy p i n || (o.hdr.det && (o.state == .decoded || o.unhanded) && (s.lanesOf p c).contains (i, n))

/-- An entry can start a task on a slot (R54, R60, R375). -/
def State.canStart (s : State) (f n c : Nat) (e : Entry) : Bool :=
  e.state == .issued && s.slotTakes (prismOf f) (f % 8) n c e && s.facetTakes f e c 1 && s.spillFits c e.hdr 1 &&
    !s.laneTaken (prismOf f) (f % 8) n c e

/-- The oldest entry of a context that can start a task on a slot, with its work (R54). -/
def State.findWork (s : State) (f n c : Nat) : Option (Entry × Pick) :=
  (s.ctx c).window.findSome? fun e => if s.canStart f n c e then (s.pickOf f n c e).map fun q => (e, q) else none

/-- A slot starts the work chosen for it. -/
def State.begin (s : State) (f n c : Nat) (e : Entry) (q : Pick) : State :=
  let p := prismOf f
  let half := fun (s : State) (a b : Nat) =>
    let m := a + (b - a) / 2
    (s.modSlot f n fun x => { x with rem := if m + 1 < b then some (m + 1, b) else none }).startTask f n c e m none
  match q with
  | .cont k => (s.modSlot f n fun x => { x with rem := none }).startCont f n e k
  | .range a b =>
    half (s.modPrism p fun x => { x with ranges := cutRanges c e.seq (a + (b - a) / 2) b x.ranges }) a b
  | .remain g m a b =>
    let mid := a + (b - a) / 2
    (half (s.modSlot g m fun x => { x with rem := if a < mid then some (a, mid) else none, next := if a < mid then x.next else none })
      a b).endBindings g
  | .lane o =>
    ((s.modPrism p fun x => { x with ranges := cutRanges c e.seq o (o + 1) x.ranges }).modSlot f n fun x => { x with rem := none }).startTask
      f n c e o none

/-- H(c): the shared slots of a prism that a context holds, those that wait to go on with their remainder among them (R54, R373). -/
def State.sharedHeld (s : State) (p c : Nat) : Nat :=
  (tileSlots.filter fun (i, n) =>
    (s.prism p).mode i n == 0 && ((s.slot (p * 8 + i) n).heldFor.map Prod.fst) == some c).length

/-- A free slot asks (R373): an owned slot serves its owner, a shared one the context with the smallest key. -/
def State.offer (s : State) (f n : Nat) : State :=
  let p := prismOf f
  match (s.prism p).mode (f % 8) n with
  | 1 =>
    let c := (s.prism p).owner (f % 8) n
    match s.findWork f n c with
    | some (e, q) => s.begin f n c e q
    | none => s
  | 0 =>
    let best := s.ctxs.foldl (fun (b : Option (Nat × Nat × Entry × Pick)) (c, x) =>
      match s.findWork f n c with
      | none => b
      | some (e, q) =>
        let key := (s.sharedHeld p c + 1) * 65536 / max 1 x.d.weight
        match b with
        | none => some (key, c, e, q)
        | some (k, _) => if key < k then some (key, c, e, q) else b) none
    match best with
    | some (_, c, e, q) => s.begin f n c e q
    | none => s
  | _ => s

/-! Gangs (R52, R376). -/

/-- A slot is free and not held for a gang. -/
def State.freeSlot (s : State) (f n : Nat) : Bool :=
  (s.slot f n).job == .vacant && (s.slot f n).next.isNone &&
    !((s.heldSlots (prismOf f)).any fun (i, m, _) => i == f % 8 && m == n)

/-- Members of a gang on a facet among places: facet, slot, ordinal. -/
def onFacet (l : List (Nat × Nat × Nat)) (f : Nat) : Nat := (l.filter (·.1 == f)).length

/-- The slots that members of a gang have on a prism, those already held for it and free ones that it can have: facet, slot, ordinal. A DET
member's is that of its lane (R60). -/
def State.gangSlots (s : State) (p c : Nat) (e : Entry) (ords : List Nat) : List (Nat × Nat × Nat) :=
  let mine := (s.heldSlots p).filter fun (i, n, c', seq) => c' == c && seq == e.seq && s.slotTakes p i n c e
  let has := fun (i n : Nat) => mine.any fun h => h.1 == i && h.2.1 == n
  let takes := fun (got : List (Nat × Nat × Nat)) (i n : Nat) =>
    !(got.any fun (f, m, _) => f == p * 8 + i && m == n) &&
      (has i n || (s.freeSlot (p * 8 + i) n && s.slotTakes p i n c e && s.facetTakes (p * 8 + i) e c (onFacet got (p * 8 + i) + 1) &&
        !s.laneTaken p i n c e))
  if e.hdr.det then
    let lanes := ((e.lanes.find? (·.1 == p)).map (·.2)).getD []
    ords.foldl (fun got o => match lanes[e.laneFor p o lanes.length]? with
      | some (i, n) => if takes got i n then got ++ [(p * 8 + i, n, o)] else got
      | none => got) []
  else
    let kept := (tileSlots.filter fun (i, n) => has i n) ++ tileSlots.filter fun (i, n) => !has i n
    kept.foldl (fun got (i, n) => match ords[got.length]? with
      | some o => if takes got i n then got ++ [(p * 8 + i, n, o)] else got
      | none => got) []

/-- The prisms that hold ordinals of an entry. -/
def Entry.prisms (e : Entry) : List Nat := e.placed.foldl (fun l (_, _, p) => sadd p l) []

/-- The entries with a gang waiting on a prism, in the order in which the prism received them. -/
def State.gangQueue (s : State) (p : Nat) : List (Nat × Entry) :=
  let l := s.ctxs.flatMap fun (c, x) => (x.window.filter (s.gangWaits p c)).map fun e => (c, e)
  let insert := fun (x : Nat × Entry) (l : List (Nat × Entry)) =>
    (l.takeWhile fun y => y.2.handed ≤ x.2.handed) ++ [x] ++ l.dropWhile fun y => y.2.handed ≤ x.2.handed
  l.foldl (fun q x => insert x q) []

/-- The gang that an entry waits for can be admitted: on every prism with members it is the first that waits (R376), every member has a
slot on which it can start now, and the reservations fit. -/
def State.gangPlan (s : State) (c : Nat) (e : Entry) (g : Nat) : Option (List (Nat × Nat × Nat)) :=
  let first := fun (p : Nat) => match s.gangQueue p with | (d, q) :: _ => d == c && q.seq == e.seq | [] => false
  let ps := e.prisms.filter fun p => !(s.gangHere p c e g).isEmpty
  let at' := fun (p : Nat) => s.gangSlots p c e (s.gangHere p c e g)
  let plan := ps.flatMap at'
  let fs := (plan.map (·.1)).dedup
  let ok := ps.all (fun p => first p && (at' p).length == (s.gangHere p c e g).length &&
      (!e.hdr.det || s.detRoom p ((at' p).map (·.1)).dedup)) &&
    fs.all (fun f => s.facetTakes f e c (onFacet plan f)) && plan.all fun (f, n, _) => !s.laneTaken (prismOf f) (f % 8) n c e
  if ok ∧ plan ≠ [] ∧ s.gangSpill c e.hdr plan.length then some plan else none

/-- The slots of a prism that are held for an entry's gang, given up or replaced. -/
def State.holdFor (s : State) (p c seq : Nat) (l : List (Nat × Nat × Nat)) : State :=
  s.modPrism p fun x =>
    { x with held := x.held.filter (fun (_, _, c', q) => !(c' == c && q == seq)) ++ l.map fun (f, n, _) => (f % 8, n, c, seq) }

/-- A prism holds slots for waiting gangs, in order, each only as many as it needs there, until it is admitted; admissions that are possible
become due (R52, R376). -/
def State.holdGo (s : State) (p : Nat) : List (Nat × Entry) → State
  | [] => s
  | (c, e) :: q =>
    match e.gangsWaiting with
    | [] => s.holdGo p q
    | g :: _ =>
      let need := s.gangHere p c e g
      let got := s.gangSlots p c e need
      let s := s.holdFor p c e.seq got
      let s := if (s.gangPlan c e g).isSome then s.pushDue (.gangAdmission c e.seq g) else s
      if got.length = need.length then s.holdGo p q else s

/-- GANG_ADMISSION, R52. -/
def execGangAdmission (c seq g : Nat) (σ : State) : Out :=
  σ.whenDue (.gangAdmission c seq g) fun σ =>
    match σ.entry c seq with
    | none => σ
    | some e =>
      if e.state ≠ .issued ∨ e.gangsWaiting.head? ≠ some g then σ
      else match σ.gangPlan c e g with
        | none => σ
        | some plan =>
          let σ := plan.foldl (fun σ (f, n, o) =>
            (σ.modPrism (prismOf f) fun x => { x with ranges := cutRanges c seq o (o + 1) x.ranges }).startTask f n c e o none) σ
          let σ := e.prisms.foldl (fun σ p => σ.holdFor p c seq []) σ
          (σ.modEntry c seq fun e => { e with gangsWaiting := e.gangsWaiting.drop 1 }).poke c

/-! TEND, YIELD, SPAWN (R303, R306, R307). -/

/-- A task of an entry has ended. -/
def State.countEnd (s : State) (c seq : Nat) (cont : Bool) : State :=
  let s := s.modEntry c seq fun e => if cont then { e with conts := e.conts - 1 } else { e with left := e.left - 1 }
  match s.entry c seq with
  | some e => if e.allEnded then s.pushDue (.entryComplete c seq) else s
  | none => s

/-- A slot that holds a remainder takes new work of its entry at once (R54): the oldest continuation, or its next ordinal. While that cannot
start, a clock change before it (R380) or a save, the slot keeps its remainder and is not free. -/
def State.nextOf (s : State) (f n c seq : Nat) : State :=
  let stop := s.modSlot f n fun x => { x with rem := none, next := none }
  match (s.slot f n).rem, s.entry c seq with
  | some (a, b), some e =>
    if e.state ≠ .issued ∨ b ≤ a then stop
    else if s.facetTakes f e c 1 ∧ s.spillFits c e.hdr 1 then
      match (s.prism (prismOf f)).conts.find? fun k => k.c == c && k.seq == seq with
      | some k => s.startCont f n e k
      | none => (s.modSlot f n fun x => { x with rem := if a + 1 < b then some (a + 1, b) else none }).startTask f n c e a none
    else s.modSlot f n fun x => { x with next := some (c, seq) }
  | _, _ => stop

/-- The slots of a prism that wait to go on with their remainder try again. -/
def State.retryNext (s : State) (p : Nat) : State :=
  tileSlots.foldl (fun s (i, n) => match (s.slot (p * 8 + i) n).next with
    | some (c, seq) => (s.nextOf (p * 8 + i) n c seq).endBindings (p * 8 + i)
    | none => s) s

/-- A facet is at a rotation boundary (R373). -/
def State.atRotation (s : State) (f : Nat) : Bool := (s.facet f).cyc % 16 == 0

/-- ASK_FOR_WORK, R373: the free slots of the prism's facets that are at a rotation boundary are served in ascending order. -/
def execAskForWork (p : Nat) (σ : State) : Out :=
  σ.whenDue (.askForWork p) fun σ =>
    let σ := σ.retryNext p
    let σ := σ.holdGo p (σ.gangQueue p)
    tileSlots.foldl (fun σ (i, n) => if σ.atRotation (p * 8 + i) && σ.freeSlot (p * 8 + i) n then σ.offer (p * 8 + i) n else σ) σ

/-- CLOCK_CHANGE, R380. -/
def execClockChange (p : Nat) (σ : State) : Out :=
  σ.whenDue (.clockChange p) fun σ => (σ.modPrism p fun x => { x with pin := σ.holdsFixt p }).retryNext p

/-- A step through a TEND writes a halt queue entry (R419). -/
def State.stepEnds (s : State) (f n c : Nat) : State :=
  let sl := s.slot f n
  if sl.sdc.stepping.isSome then s.haltEntry c f n { cause := cSTEP, dbg := true, pc := sl.th.pc + 4 } else s

/-- The end of a tile task: its holds end, the slot is vacated, the entry counts it, and the slot goes on with its remainder; bindings end
where no task of their context is left (R282). -/
def State.endTask (s : State) (f n c seq : Nat) (cont : Bool) : State :=
  let sl := s.slot f n
  let s := s.traceEvent f n 2 0 sl.th.pc 0
  (((((s.stepEnds f n c).endTaskHolds f n).vacate f n).countEnd c seq cont).nextOf f n c seq).endBindings f

/-- Every stream that a slot binds has nothing left to write. -/
def Facet.drained (x : Facet) (n : Nat) : Bool := x.streams.all fun (_, st) => st.slot != n || !st.drain || st.buf.isEmpty

/-- TEND, R306. -/
def execTend (σ : State) : Out :=
  issue σ { core := false } fun _ =>
    onSlot σ fun f n sl =>
      let x := σ.facet f
      if sl.cnt != {} || x.sb.any (·.slot == n) then stallAs σ .tend clCOUNT
      else if x.vecBusy n || !x.drained n then stallAs σ .tend clCOUNT
      else if !sl.late.isEmpty then .next (σ.takeLate σ.turn)
      else match σ.release σ.turn true with
        | none => stallAs σ .tend clCOUNT
        | some σ =>
          match sl.job with
          | .task c seq _ cont => .next (σ.endTask f n c seq cont)
          | .handler c _ msg => .next ((σ.stepEnds f n c).endHandler f n msg)
          | .vacant => faultOut σ cILLEGAL

/-- YIELD, R307. -/
def execYield (σ : State) : Out :=
  issue σ { core := false, handler := false } fun t =>
    onSlot σ fun f n _ =>
      let σ' := σ.modSlot f n fun x =>
      { x with wakeAt := if σ.fixedRotation f then x.wakeAt else (σ.facet f).cyc + 16, wakeFor := clOTHER }
      retire σ' t

/-- SPAWN, R303. -/
def execSpawn (b a d : BitVec 5) (σ : State) : Out :=
  issue σ { core := false, handler := false, reads := [a, b, d] } fun t =>
    onSlot σ fun _ _ sl =>
      if (t.rx a).toNat % 4 ≠ 0 then faultOut σ cALIGN (t.rx a)
      else match σ.release σ.turn true, sl.owner with
        | none, _ => stall σ clFENCE
        | some σ, some (c, seq) =>
          let k : Cont := { c := c, seq := seq, code := t.rx a, frame := t.rx b, jaddr := t.rx d, ord := sl.ord.toNat }
          let p := ((σ.entry c seq).bind fun e => e.prismOf sl.ord.toNat).getD 0
          if σ.contsIn p c < (σ.ctx c).d.contN then retire (σ.pushCont p k) t else stallAs σ .spawn clSYNC
        | some _, none => faultOut σ cILLEGAL

/-! Killing (R42, R381). -/

/-- What a slot has under way is gone: requests, copies, refused messages, matrix operations, merges. A message that has been sent goes on
without it (R309). -/
def State.dropWork (s : State) (f n : Nat) : State :=
  let s := s.dropMx f n
  let mine := s.reqs.filter fun (kr : Nat × Req) => kr.2.who == .slot f n
  let s := mine.foldl (fun s (id, r) => (s.forgetReq id).endTransient r) s
  let part := fun (m : Merge) => { m with parts := m.parts.filter fun p => !(p.f == f && p.n == n) }
  let tid := s.tid f n
  { s with copies := s.copies.filter (fun (kc : Nat × Copy) => !(kc.2.f == f && kc.2.n == n)),
           flights := (s.flights.filter fun (km : Nat × Flight) => !(km.2.who == .slot f n && km.2.refused && !km.2.entered)).map
             fun (km : Nat × Flight) => (km.1, if km.2.who = .slot f n then { km.2 with who := .peer tid } else km.2),
           merges := s.merges.map fun (km : Nat × Merge) => (km.1, part km.2) }

/-- A tile task is killed: nothing is reported and no more of it happens. -/
def State.killTask (s : State) (f n : Nat) : State :=
  ((((s.endTaskHolds f n).dropWork f n).vacate f n).modSlot f n fun x => { x with rem := none }).endBindings f

/-- A user handler is killed, and slot 15 is free for its next message. -/
def State.killHandler (s : State) (f n msg : Nat) : State := (s.dropWork f n).endHandler f n msg

/-- A saved task is killed: its holds and its spill reservation end, its refused messages are dropped (R309), and a resume leaves it out
(R361). -/
def State.killSaved (s : State) (f n : Nat) (sl : Slot) : State :=
  let s := s.endHolds sl
  let s : State := match sl.owner with
    | some (c, _) => s.modCtx c fun x => { x with spillUsed := x.spillUsed - sl.spillN * 32 }
    | none => s
  s.modFacet f fun x => { x with stash := x.stash.map fun (t : Stash) =>
    { t with slots := kdel n t.slots, refused := t.refused.filter fun (kw : Nat × Flight) => kw.2.who != .slot f n } }

/-- Every task, handler, range task, remainder and continuation of an entry ends (R42 step 4). Messages it has in mailboxes stay there
(R309, log 26). -/
def State.killEntry (s : State) (c seq : Nat) : State :=
  let s : State := s.prisms.foldl (fun s (p, _) => s.modPrism p fun x =>
    { x with ranges := x.ranges.filter fun r => !(r.c == c && r.seq == seq),
             conts := x.conts.filter (fun k => !(k.c == c && k.seq == seq)),
             held := x.held.filter (fun (_, _, c', q) => !(c' == c && q == seq)),
             contsWait := x.contsWait.filter fun k => !(k.c == c && k.seq == seq) }) s
  s.facets.foldl (fun s (f, x) =>
    let s : State := x.slots.foldl (fun s (n, sl) => match sl.job with
      | .task c' q _ _ => if c' = c ∧ q = seq then s.killTask f n else s
      | .handler c' q msg => if c' = c ∧ q = seq then s.killHandler f n msg else s
      | .vacant => if sl.next = some (c, seq) then (s.modSlot f n fun y => { y with rem := none, next := none }).endBindings f else s) s
    let s : State := x.savedSlots.foldl (fun s (n, sl) => match sl.job with
      | .task c' q _ _ => if c' = c ∧ q = seq then s.killSaved f n sl else s
      | _ => s) s
    s.modFacet f fun x =>
      { x with reports := x.reports.filter (fun (_, c', q, _) => !(c' == c && q == seq)),
               laneSeq := x.laneSeq.filter fun (k, _) => !(k.2.1 == c && k.2.2 == seq) }) s

end Sys2Proof.Machine
end

