-- ==== Sys2Proof/Machine/Window.lean ====
section
/-! DEFINITION. The task window (R31 to R45): reading and checking launch descriptors and headers (R47, R53, R318), decode and renaming (R33),
issue, completion and retirement, rollback and replay (R42 to R44), fault delivery (R323, R350), and the STRM instructions (R317 to
R324). -/

namespace Sys2Proof.Machine

/-! Reads of global memory by a control core for the window and for bindings. -/

/-- How such a read ends: the instruction waits, it fails with a cause, or bytes. -/
inductive Read where
  | wait (s : State) | fail (s : State) (cause : BitVec 8) | got (s : State) (b : List Byte)

/-- How a piece of a read stands: it waits, something makes it wait, it has a cause, or its bytes have been read. -/
inductive PieceAt where
  | waits | stands (w : Standing) | fails (cause : BitVec 8) | read (b : List Byte)
  deriving DecidableEq, Repr

/-- The request by which an agent reads n bytes in a context, as it stands. -/
def State.probeAt (s : State) (a : Agent) (c : Nat) (va : Word) (n : Nat) : Option PieceAt :=
  (s.reqs.find? fun (kr : Nat × Req) => kr.2.probes a && kr.2.ctx == c && kr.2.va == va && kr.2.op.size == n).map fun kr =>
    match kr.2.stage, kr.2.op with
    | .failed cause, _ => .fails cause
    | .returning, .probe _ (some b) => .read b
    | _, _ => .waits

/-- A piece of a read of an agent in a context: the request under which it waits or has been answered, or how it stands now. -/
def State.pieceAt (s : State) (a : Agent) (c va n : Nat) : PieceAt × State :=
  let v : Word := BitVec.ofNat 64 va
  match s.probeAt a c v n with
  | some q => (q, s)
  | none =>
    match s.standAt a 0 c v .read with
    | (.fail cause, s) => (.fails cause, s)
    | (.nowhere, s) => (.fails cNOMAP, s)
    | (w, s) => (.stands w, s)

/-- The pieces of a read with how they stand. -/
def State.piecesAt (s : State) (a : Agent) (c : Nat) (l : List (Nat × Nat)) : List ((Nat × Nat) × PieceAt) × State :=
  l.foldl (fun (r : List ((Nat × Nat) × PieceAt) × State) u => let (q, s) := r.2.pieceAt a c u.1 u.2; (r.1 ++ [(u, q)], s)) ([], s)

/-- The pieces of a read in a context, in the order of the checks of R47 and R318: NOMAP, a page whose translation is asked for and other
waits, ACCESS, a poisoned granule; then the bytes. -/
def State.readPieces (s : State) (a : Agent) (c : Nat) (pc : Word) (l : List (Nat × Nat)) : Read :=
  let (at', s) := s.piecesAt a c l
  let failing := fun (cause : BitVec 8) => at'.any fun q => q.2 == .fails cause
  if failing cNOMAP then .fail s cNOMAP
  else if at'.any fun q => q.2 == .waits then .wait s
  else match at'.findSome? fun q => match q.2 with | .stands (.at _ _ _) => none | .stands w => some (q.1, w) | _ => none with
    | some ((va, n), w) => let (id, s) := s.waitReq none a c (BitVec.ofNat 64 va) pc (.probe n none); .wait (s.waitAt id w)
    | none =>
      if failing cACCESS then .fail s cACCESS
      else
        let (b, bad, s) := at'.foldl (fun (r : List Byte × Bool × State) q => match q with
          | ((va, n), .stands (.at sl pa leaf)) =>
            let (g, s) := (r.2.2.recall c (BitVec.ofNat 64 va) n).sliceRead sl pa n (leafDir leaf)
            (r.1 ++ g.bytes, r.2.1 || g.poison, s)
          | (_, .read b) => (r.1 ++ b, r.2.1, r.2.2)
          | _ => (r.1, true, r.2.2)) ([], false, s)
        if bad then .fail s cPOISON else .got s b

/-- n bytes read in a context for an instruction of an agent (R318, R320). -/
def State.readIn (s : State) (a : Agent) (c : Nat) (va : Word) (n : Nat) : Read :=
  let pc := (s.thread a).pc
  match s.whereIs va with
  | .nowhere => .fail s cNOMAP
  | .here => s.readPieces a c pc (piecesOf va.toNat n)
  | .device _ =>
    match s.probeAt a c va n with
    | some (.fails cause) => .fail s cause
    | some (.read b) => .got s b
    | some _ => .wait s
    | none => .wait (s.newReq a c va pc (.probe n none)).2

/-- n bytes read by a control core in the space its addresses lie in (R384). -/
def State.coreRead (s : State) (k : Nat) (va : Word) (n : Nat) : Read :=
  match s.spaceOf (.core k) with
  | .ctx c => s.readIn (.core k) c va n
  | .phys =>
    match s.physOf va with
    | none => .fail s cNOMAP
    | some pa =>
      if !s.mayTouch (s.core k).wld pa || !s.mayTouch (s.core k).wld (pa + n - 1) then .fail s cACCESS
      else if (upto (pa / 64) ((pa + n + 63) / 64)).any s.memP.contains then .fail s cPOISON
      else .got s (readBytes s.mem pa n)

/-- The little-endian field of n bytes at an offset (R4). -/
def fieldOf (b : List Byte) (off n : Nat) : Nat := ofBytes ((b.drop off).take n)

/-! Descriptors and headers (R46, R47, R318). -/

/-- A launch header from its 80 bytes: an extent of 0 with width 32 is 2^32. -/
def Header.ofBytes (b : List Byte) : Header :=
  let wd := (List.range 6).map fun i => fieldOf b (0x28 + i) 1
  let ext := (List.range 6).map fun i =>
    let e := fieldOf b (0x10 + 4 * i) 4
    if e = 0 ∧ wd[i]? = some 32 then 2 ^ 32 else e
  { entry := BitVec.ofNat 64 (fieldOf b 0 8), param := BitVec.ofNat 64 (fieldOf b 8 8), ext := ext, wd := wd,
    place := fieldOf b 0x2E 1, gang := fieldOf b 0x2F 1, stack := fieldOf b 0x30 4, lsize := fieldOf b 0x34 4,
    quota := fieldOf b 0x38 4, spill := fieldOf b 0x3C 2, det := fieldOf b 0x3E 2 % 2 == 1, fixt := fieldOf b 0x3E 2 / 2 % 2 == 1,
    rnd0 := BitVec.ofNat 32 (fieldOf b 0x40 4), felim0 := BitVec.ofNat 32 (fieldOf b 0x44 4),
    rkey0 := BitVec.ofNat 64 (fieldOf b 0x48 8) }

/-- Operand i of a descriptor, and whether its fields are as R318 demands. -/
def operandOf (b : List Byte) (i : Nat) : Operand × Bool :=
  let o := 0x10 + 24 * i
  let base := fieldOf b o 8
  let len := fieldOf b (o + 8) 8
  let kind := fieldOf b (o + 16) 1
  let acc := fieldOf b (o + 17) 1
  let name := fieldOf b (o + 18) 2
  ({ versioned := kind == 2, rd := acc % 2 == 1, wr := acc / 2 % 2 == 1, base := BitVec.ofNat 64 base, len := BitVec.ofNat 64 len,
     name := name },
   (kind == 1 || kind == 2) && 0 < acc && acc < 4 && fieldOf b (o + 20) 4 == 0 &&
     (if kind == 2 then acc != 3 && base == 0 && len == 0 else name == 0))

/-- The operand checks of R47. -/
def opsOk (ops : List Operand) : Bool :=
  let writes := (ops.filter fun o => o.versioned && o.wr).map (·.name)
  ops.length ≤ 8 && ops.all (fun o => !o.versioned || o.name < 1024) && writes.dedup.length == writes.length &&
    ops.all fun o => o.versioned || o.base.toNat + o.len.toNat ≤ 2 ^ 64

/-- Members of gang g of a deterministic entry by prism (R50, R53): the prism's place in the list and how many. -/
def gangCounts (h : Header) (np g : Nat) : List Nat :=
  let k := h.groupSize h.gang
  let t := h.total
  let prismAt := fun (o : Nat) =>
    if h.place = 0 then
      let q := t / np
      let r := t % np
      if o < r * (q + 1) then o / (q + 1) else r + (o - r * (q + 1)) / max 1 q
    else o / h.groupSize h.place % np
  (List.range np).map fun j => ((upto (g * k) (g * k + k)).filter fun o => prismAt o == j).length

/-- A gang of the header can never be admitted in a context (R53). -/
def State.gangNever (s : State) (c : Nat) (h : Header) : Bool :=
  if h.gang = 0 then false
  else
    let l := s.prismList c h.det
    let size := h.groupSize h.gang
    let cap := 8 * h.perFacet
    (if h.gang ≤ h.place then cap < size else l.length * cap < size) ||
      (h.det && (List.range (h.total / size)).any fun g =>
        ((gangCounts h l.length g).zip l).any fun (n, p) => (s.lanesOf p c).length < n) ||
      (s.ctx c).d.splZ < size * h.spill * 32

/-- The prisms of a list that a launch would place a task on (R50), by the loads at its decode (R342, log 68). -/
def State.receivers (s : State) (c : Nat) (h : Header) : List Nat :=
  let l := s.prismList c h.det
  let groups := if h.place = 0 then h.total else h.total / h.groupSize h.place
  if h.place = 0 ∨ h.det then l.take groups
  else
    let size := h.groupSize h.place
    let loads := l.zipIdx.map fun (p, i) => (i, s.undispensed p c)
    let ahead := fun (i n : Nat) => loads.foldl (fun k (j, m) =>
      if j = i ∨ n < m then k else k + (n - m + size - 1) / size + (if j < i ∧ (n - m) % size = 0 then 1 else 0)) 0
    l.zipIdx.filterMap fun (p, i) => if ahead i (s.undispensed p c) < groups then some p else none

/-- The header checks of R47 after the operands', in order, and the world of the prisms that would run tasks (R342). -/
def State.headerCause (s : State) (c : Nat) (h : Header) (writes : Bool) : Option (BitVec 8) :=
  let wd := h.wd.foldl (· + ·) 0
  if h.wd.any (fun w => 32 < w) || 64 < wd then some cILLEGAL
  else if (h.ext.zip h.wd).any (fun (e, w) => e == 0 || 2 ^ w < e) then some cILLEGAL
  else if 2 ^ 48 < h.total then some cILLEGAL
  else if 6 < h.place ∨ 6 < h.gang then some cILLEGAL
  else if h.lsize % 1024 ≠ 0 ∨ 262144 < h.lsize ∨ h.stack % 64 ≠ 0 ∨ h.lsize < h.stack then some cILLEGAL
  else if h.quota = 0 ∧ writes then some cILLEGAL
  else if h.entry.toNat % 4 ≠ 0 then some cALIGN
  else if s.gangNever c h then some cGANG
  else if (s.receivers c h).any (fun p => (s.prism p).world != (s.ctx c).d.world) then some cACCESS
  else none

/-! Decode and renaming (R33, R55). -/

def Context.name (x : Context) (n : Nat) : NameB := kget {} x.names n

/-- The tile names of a range as its pages stand now, from an address up, as often as `fuel`: a page without a translation counts as one
tile name. -/
def State.tilesGo (s : State) (c hi : Nat) : Nat → Nat → List Word
  | 0, _ => []
  | k + 1, a =>
    if hi ≤ a then []
    else
      let va : Word := BitVec.ofNat 64 a
      match s.tileSizeAt c va with
      | some size => if a % size = 0 then va :: s.tilesGo c hi k (a + size) else s.tilesGo c hi k (a / size * size + size)
      | none => va :: s.tilesGo c hi k (a / 65536 * 65536 + 65536)
def State.tilesIn (s : State) (c : Nat) (base len : Word) : List Word :=
  s.tilesGo c (base.toNat + len.toNat) (len.toNat / 128 + 2) base.toNat

/-- The operands with their bindings, and the rename table after them (R33). -/
def bindOps (names : KMap NameB) (ops : List Operand) : List Operand × KMap NameB :=
  let bound := ops.map fun o =>
    let b := kget {} names o.name
    if !o.versioned then o else { o with base := b.base, len := b.len, ver := if o.wr then b.next else b.cur }
  let ws := ops.filter fun o => o.versioned && o.wr
  (bound, ws.foldl (fun m o => kmod {} o.name (fun b => { b with next := b.next + 1, cur := b.next }) m) names)

/-- A launch record (R55): 264 bytes. -/
def recordBytes (h : Header) (ops : List Operand) : List Byte :=
  let one := fun (o : Operand) =>
    toBytes 8 o.base.toNat ++ toBytes 8 (if o.versioned then 0 else o.len.toNat) ++ toBytes 4 (if o.versioned then o.ver.toNat else 0) ++
      toBytes 1 (if o.versioned then 2 else 1) ++ toBytes 1 ((if o.rd then 1 else 0) + (if o.wr then 2 else 0)) ++ List.replicate 10 (0 : Byte)
  (ops.flatMap one ++ List.replicate 256 (0 : Byte)).take 256 ++ toBytes 8 h.param.toNat

/-- An entry enters the window FAULTED (R41, R47): it runs no task. What its decode has read is kept (R44): the operands and the header's
address of its descriptor, and its header. -/
def State.decodeBad (s : State) (c : Nat) (lpc desc : Word) (got : Option (Word × List Operand)) (h : Option Header) (cause : BitVec 8)
    (addr : Word) : State :=
  let x := s.ctx c
  let e : Entry := { seq := x.nseq.toNat, lpc := lpc, ops := (got.map (·.2)).getD [], state := .faulted, desc := desc,
                     hdrAt := (got.map (·.1)).getD 0, hdr := h.getD {}, parsed := got.isSome, read := h.isSome, names := x.names,
                     fault := some { cause := cause, dec := true, addr := addr } }
  (s.setCtx c { x with window := x.window ++ [e], nseq := x.nseq + 1 }).poke c

/-- DECODE (R33): an entry whose checks have passed. -/
def State.decodeGood (s : State) (c : Nat) (lpc desc hdrAt : Word) (h : Header) (ops : List Operand) : State :=
  let x := s.ctx c
  let seq := x.nseq.toNat
  let (bound, names) := bindOps x.names ops
  let e : Entry := { seq := seq, lpc := lpc, hdr := h, ops := bound, left := h.total, names := x.names, desc := desc, hdrAt := hdrAt }
  let s := s.setCtx c { x with window := x.window ++ [e], nseq := x.nseq + 1, names := names }
  let s : State := (bound.filter fun o => o.versioned && o.rd).foldl
    (fun s o => (s.tilesIn c o.base o.len).foldl (fun s va => s.decodeHold s.dev c seq va o.ver.toNat) s) s
  (s.recordWrite x.d.world (s.recordAt c seq) (recordBytes h bound)).poke c

/-- The checks on a header and its operands, and decode. -/
def State.decodeWith (s : State) (c : Nat) (lpc desc hdrAt : Word) (h : Header) (ops : List Operand) : State :=
  if !opsOk ops then s.decodeBad c lpc desc (some (hdrAt, ops)) (some h) cILLEGAL desc
  else match s.headerCause c h (ops.any fun o => o.versioned && o.wr) with
    | some cause => s.decodeBad c lpc desc (some (hdrAt, ops)) (some h) cause hdrAt
    | none => s.decodeGood c lpc desc hdrAt h ops

/-- The header of a launch whose descriptor has been read and checked. -/
def decodeHeader (s : State) (read : State → Word → Nat → Read) (c : Nat) (lpc desc hdrAt : Word) (ops : List Operand) : State × Bool :=
  if hdrAt.toNat % 16 ≠ 0 then (s.decodeBad c lpc desc (some (hdrAt, ops)) none cALIGN hdrAt, true)
  else match read s hdrAt 80 with
    | .wait s => (s, false)
    | .fail s cause => (s.decodeBad c lpc desc (some (hdrAt, ops)) none cause hdrAt, true)
    | .got s hb => (s.decodeWith c lpc desc hdrAt (Header.ofBytes hb) ops, true)

/-- A launch descriptor decoded from memory by an agent's instruction: none while it waits for a page. Operands i ≥ NOPS are not read; the
eight there are come before the check of NOPS (R318). -/
def decodeFrom (s : State) (read : State → Word → Nat → Read) (c : Nat) (lpc desc : Word) : State × Bool :=
  let bad := fun (s : State) (cause : BitVec 8) => (s.decodeBad c lpc desc none none cause desc, true)
  if desc.toNat % 16 ≠ 0 then bad s cALIGN
  else match read s desc 16 with
    | .wait s => (s, false)
    | .fail s cause => bad s cause
    | .got s b =>
      let n := fieldOf b 8 1
      match read s desc (16 + 24 * min n 8) with
      | .wait s => (s, false)
      | .fail s cause => bad s cause
      | .got s b =>
        let l := (List.range n).map (operandOf b)
        if 8 < n ∨ fieldOf b 9 7 ≠ 0 ∨ !l.all Prod.snd then bad s cILLEGAL
        else decodeHeader s read c lpc desc (BitVec.ofNat 64 (fieldOf b 0 8)) (l.map Prod.fst)

/-! Issue, completion, retirement (R36 to R41). -/

/-- ENTRY_ISSUE, R36. -/
def execEntryIssue (c seq : Nat) (σ : State) : Out :=
  σ.whenDue (.entryIssue c seq) fun σ =>
    match σ.entry c seq with
    | some e =>
      if e.state = .decoded ∧ (σ.ctx c).mayIssue e then
        ((σ.modEntry c seq fun e => { e with state := .issued }).handOut c seq).poke c
      else σ
    | none => σ

/-- The output versions of an entry that are not SEALED: operand index, tile name, version (R39). One whose device is lost is gone (R98);
other devices answer about theirs themselves. -/
def State.unsealed (s : State) (c : Nat) (e : Entry) : List (Nat × Word × Nat) :=
  e.ops.zipIdx.flatMap fun (o, i) =>
    if !o.versioned || !o.wr then []
    else (s.tilesIn c o.base o.len).filterMap fun va =>
      match s.whereIs va, s.home c va with
      | .device _, _ => none
      | .here, some sl =>
        (match (s.slice sl).version c (localVa va) o.ver.toNat with
          | some v => if v.st = .sealed then none else some (i, va, o.ver.toNat)
          | none => some (i, va, o.ver.toNat))
      | _, _ => some (i, va, o.ver.toNat)

/-- The other devices of the domain that hold output versions of an entry. -/
def State.outputDevs (s : State) (c : Nat) (e : Entry) : List Nat :=
  (e.ops.flatMap fun o => if !o.versioned || !o.wr then [] else (s.tilesIn c o.base o.len).filterMap fun va =>
    match s.whereIs va with | .device d => some d | _ => none).dedup

/-- The unsealed output that the fault record names: the lowest operand, and of it the lowest tile name (R39). -/
def lowestOutput (l : List (Nat × Word × Nat)) : Option (Nat × Word × Nat) :=
  l.foldl (fun b x => match b with
    | none => some x
    | some y => if x.1 < y.1 ∨ (x.1 = y.1 ∧ x.2.1.toNat < y.2.1.toNat) then some x else some y) none

/-- Slices of this device that hold ".d" records of an entry of a window, named as in BATCH_CLOSE. -/
def State.dSlices (s : State) (c seq : Nat) : List Nat := (s.slices.filter fun (_, x) => x.records.any (·.ofEntry c seq)).map Prod.fst

/-- An entry becomes COMPLETE (R38), and its holds end (R92). -/
def State.completeEntry (s : State) (c seq : Nat) : State :=
  ((s.modEntry c seq fun e => { e with state := .complete }).endEntryHolds c seq).poke c

/-- ENTRY_COMPLETE, R38. -/
def execEntryComplete (c seq : Nat) (σ : State) : Out :=
  σ.whenDue (.entryComplete c seq) fun σ =>
    match σ.entry c seq with
    | none => σ
    | some e =>
      if !e.allEnded then σ
      else if !e.closing then
        let devs := σ.outputDevs c e
        if devs.any fun d => e.outputs.all (·.1 != d) then σ
        else match lowestOutput (σ.unsealed c e ++ (e.outputs.filter fun o => devs.contains o.1).filterMap (·.2)) with
        | some (i, va, ver) =>
          σ.entryFaults c seq { cause := cVGONE, addr := va, info := BitVec.ofNat 64 (ver + i * 2 ^ 32) }
        | none =>
          let l := σ.dSlices c seq
          let there := e.dDevs.filter σ.domain.contains
          let σ := σ.modEntry c seq fun e => { e with closing := true, closeAt := l, closeDevs := there }
          if l.isEmpty ∧ there.isEmpty then σ.completeEntry c seq else l.foldl (fun σ sl => σ.pushDue (.batchClose sl c seq)) σ
      else if e.closeAt.isEmpty ∧ (e.closeDevs.filter σ.domain.contains).isEmpty then σ.completeEntry c seq
      else σ

/-- ENTRY_RETIRE, R40. -/
def execEntryRetire (c : Nat) (σ : State) : Out :=
  σ.whenDue (.entryRetire c) fun σ =>
    let x := σ.ctx c
    match x.window with
    | [] => σ
    | e :: rest =>
      if e.state ≠ .complete then σ
      else
        let σ := σ.setCtx c { x with window := rest }
        let slices := (σ.part x.d.part).homes.dedup
        let outs := e.ops.filter fun o => o.versioned && o.wr && σ.whereIs o.base == .here
        (outs.foldl (fun σ o => slices.foldl
          (fun σ sl => σ.pushDue (.supersedeNotice sl c (localVa o.base) o.len.toNat o.ver.toNat)) σ) σ).poke c

/-! Faults, rollback and replay (R42 to R44). -/

/-- TASK_FAULT, R41. -/
def execTaskFault (f n : Nat) (σ : State) : Out :=
  σ.whenDue (.taskFault f n) fun σ =>
    match takeFirst (fun (r : Nat × Nat × Nat × Report) => r.1 == n) (σ.facet f).reports with
    | some ((_, c, seq, r), rest) =>
      let σ := (σ.modFacet f fun x => { x with reports := rest }).entryFaults c seq r
      if rest.any (fun r => r.1 == n) then σ.pushDue (.taskFault f n) else σ
    | none => σ

/-- The versions of an output that the slices hold, whether or not their pages have a translation now: slice and tile (R42 step 5). -/
def State.versionsIn (s : State) (c : Nat) (o : Operand) : List (Nat × Nat) :=
  s.slices.flatMap fun (sl, x) => (x.versions.filter fun v =>
    v.ctx == c && v.ver == o.ver.toNat && localVa o.base ≤ v.tile && v.tile < localVa o.base + o.len.toNat).map fun v => (sl, v.tile)

/-- A discarded entry's versions are dropped, its holds and ".d" records end (R42 step 5, R116); other devices are told, and those with
versions of it answer once they have accepted the drops. -/
def State.discard (s : State) (c : Nat) (e : Entry) : State :=
  let s := (s.killEntry c e.seq).endEntryHolds c e.seq
  let s : State := (e.ops.filter fun o => o.versioned && o.wr && s.whereIs o.base == .here).foldl
    (fun s o => (s.versionsIn c o).foldl (fun s (sl, tile) => s.dropV sl c tile o.ver.toNat) s) s
  let devs := s.outputDevs c e
  let s := s.modCtx c fun x => { x with dropDevs := x.dropDevs ++ devs.filter fun d => !x.dropDevs.contains d }
  { s with slices := s.slices.map fun (kx : Nat × Slice) => (kx.1, kx.2.without c e.seq) }

/-- Every name's next counter and current version are as they were before (R42 step 6); its range stays. -/
def restoreNames (now before : KMap NameB) : KMap NameB :=
  now.map fun (n, b) => (n, { b with next := (kget {} before n).next, cur := (kget {} before n).cur })

/-- What the replay list keeps of an entry (R44). -/
def Entry.item (e : Entry) : ReplayItem :=
  { lpc := e.lpc, desc := e.desc, hdrAt := e.hdrAt, hdr := if e.read then some e.hdr else none, parsed := e.parsed, ops := e.ops }

/-- REPORTED_ENTRY, R42. -/
def execReportedEntry (c : Nat) (σ : State) : Out :=
  σ.whenDue (.reportedEntry c) fun σ =>
    let x := σ.ctx c
    if x.phase.busy then σ
    else match x.reportable with
      | none => σ
      | some k =>
        let older := x.older k.seq
        let gone := x.window.drop older.length
        let σ := gone.foldl (fun σ e => σ.discard c e) σ
        let r := k.fault.getD { cause := cILLEGAL }
        let σ := σ.modCtx c fun y =>
          { y with window := older, names := restoreNames y.names k.names, replay := gone.map Entry.item,
                   phase := .waiting r k.lpc k.seq k.mult }
        ((σ.retryHeldD).pushDue (.faultDelivery c)).poke c

/-- The record of R323. -/
def faultRecord (r : Report) (lpc ipc : Word) (seq : Nat) (mult : Bool) : List Byte :=
  let flg := (if mult then 1 else 0) + (if r.late then 2 else 0) + (if r.handler then 4 else 0) + (if r.dec then 8 else 0)
  toBytes 8 lpc.toNat ++ toBytes 4 seq ++ toBytes 1 r.cause.toNat ++ toBytes 1 flg ++ toBytes 2 0 ++ toBytes 8 r.ord ++
    toBytes 8 r.pc.toNat ++ toBytes 8 r.addr.toNat ++ toBytes 8 r.info.toNat ++ toBytes 8 ipc.toNat ++ toBytes 4 r.tid ++ toBytes 4 0

/-- Where a record of 64 bytes can be written in a context: a page of this device that permits writing. -/
def State.recordPlace (s : State) (c : Nat) (va : Word) : Option (Nat × Nat × Bool) :=
  match s.whereIs va, s.home c va with
  | .here, some sl =>
    (match (s.findAt sl c va .write).1 with | .at pa leaf => some (sl, pa, leafDir leaf) | _ => none)
  | _, _ => none

/-- The control core that runs the stream of a context at level 0. -/
def State.streamCore (s : State) (c : Nat) : Option Nat :=
  (s.cores.find? fun (_, x) => x.run == .running && x.level == 0 && x.stream.toNat == c).map Prod.fst

/-- The reads and the wait of a core's abandoned instruction are gone. -/
def State.dropProbe (s : State) (k : Nat) : State := (s.dropProbes (.core k)).modCore k fun x => { x with park := none }

/-- An operand as its descriptor has it: what decode bound is taken back. -/
def Operand.unbound (o : Operand) : Operand := if o.versioned then { o with base := 0, len := 0, ver := 0 } else o

/-- The replay list is decoded again in order (R44) from the operands and headers it keeps: what had not been read, a header or a whole
descriptor, is read from memory, in the context (log 64). Whether it has come to its end; what is left waits for a page. -/
def State.replayGo (s : State) (a : Agent) (c : Nat) : List ReplayItem → State × Bool
  | [] => (s.modCtx c fun x => { x with replay := [] }, true)
  | i :: l =>
    let read := fun (s : State) (va : Word) (n : Nat) => s.readIn a c va n
    match i.hdr with
    | some h => (s.decodeWith c i.lpc i.desc i.hdrAt h (i.ops.map Operand.unbound)).replayGo a c l
    | none =>
      match if i.parsed then decodeHeader s read c i.lpc i.desc i.hdrAt (i.ops.map Operand.unbound) else decodeFrom s read c i.lpc i.desc with
      | (s, true) => (s.dropProbes a).replayGo a c l
      | (s, false) => (s.modCtx c fun x => { x with replay := i :: l }, false)

/-- The answer to a delivered fault (R324), for which an agent reads; whether it is complete. -/
def State.answerFault (s : State) (a : Agent) (c : Nat) (resume : Bool) : State × Bool :=
  match if resume then s.replayGo a c (s.ctx c).replay else (s, true) with
  | (s, true) => ((s.modCtx c fun x => { x with phase := .none, replay := [] }).poke c, true)
  | (s, false) => (s, false)

/-- A fault goes to the service core (R350, R354), again after 64 ticks where its queue is full; where there is none it stays until an
SVEC (R323). The IPC written is 0, and the answer sets no continuation, where no core runs the stream at level 0 (log 27). -/
def State.deliverService (s : State) (c : Nat) (r : Report) (lpc : Word) (seq : Nat) (mult : Bool) : State :=
  let x := s.ctx c
  match x.d.score with
  | none => s.modCtx c fun y => { y with noRecord := true }
  | some k =>
    if (s.core k).queueFull then s.inTicks 64 (.faultDelivery c)
    else
      let ipc := (s.streamCore c).map fun j => (s.core j).th.pc
      let tok := s.nextId % 2 ^ 32
      let s := ({ s with nextId := s.nextId + 1 }).faultEntry k 2 0 c tok x.svecR 0 (faultRecord r lpc (ipc.getD 0) seq mult)
      let s := s.modCore k fun y => { y with sipStrm := true }
      s.modCtx c fun y => { y with phase := .service tok ipc }

/-- The stream core continues at the fault handler. -/
def State.enterHandler (s : State) (k c : Nat) : State :=
  let s := (s.dropProbe k).modCore k fun y => { y with th := { y.th with pc := (s.ctx c).svecH } }
  s.modCtx c fun y => { y with phase := .handler }

/-- The write of a context's fault record at another device. -/
def State.recordReq (s : State) (c : Nat) : Option (Nat × Req) :=
  s.reqs.find? fun (kr : Nat × Req) => kr.2.ctx == c && (match kr.2.op with | .record _ => true | _ => false)

/-- At the next instruction boundary of the stream core (R43); where the core does not run the stream at level 0, the delivery waits (R350). -/
def State.atStream (s : State) (c : Nat) (g : Nat → State) : State :=
  match s.streamCore c with
  | none => s
  | some k => if (s.core k).atBoundary then g k else s.inTicks 1 (.faultDelivery c)

/-- The record is written and the stream core continues at its handler (R323); with no vector, or a record that cannot be written, the fault
goes to the service core. A record on another device is written there first, the core waiting for it. -/
def State.deliverRecord (s : State) (c : Nat) (r : Report) (lpc : Word) (seq : Nat) (mult : Bool) : State :=
  let x := s.ctx c
  if x.svecH = 0 then s.deliverService c r lpc seq mult
  else match s.whereIs x.svecR, s.recordPlace c x.svecR with
    | .device _, _ =>
      s.atStream c fun k =>
        let pc := (s.core k).th.pc
        let (id, s) := s.newReq (.core k) c x.svecR pc (.record (faultRecord r lpc pc seq mult))
        s.parkFor (.core k) .accept x.svecR id
    | _, some (sl, pa, dir) =>
      let s := s.wbWalked c x.svecR
      s.atStream c fun k =>
        ((s.recall c x.svecR 64).sliceWrite sl pa (faultRecord r lpc (s.core k).th.pc seq mult) false dir).enterHandler k c
    | _, none => s.deliverService c r lpc seq mult

/-- Step 8 of R42 (R323, R350, R354), once every other device has accepted the drops of step 5; and what follows the answer of a service core
(R357). A delivery that has to wait becomes due again when the core enters level 0, at an SVEC, at the next tick for an instruction
boundary, or after 64 ticks for a full fault queue. -/
def State.deliver (s : State) (c : Nat) : State :=
  let x := s.ctx c
  match x.phase with
  | .waiting r lpc seq mult =>
    if (x.dropDevs.filter s.domain.contains) ≠ [] ∨ x.noRecord then s
    else match s.recordReq c with
      | some (id, q) =>
        (match q.stage with
          | .failed _ => (s.forgetReq id).deliverService c r lpc seq mult
          | _ => s)
      | none => s.deliverRecord c r lpc seq mult
  | .answered resume ipc =>
    let reader : Agent := .peer (s.dev * 32768 + c)
    let go := fun (s : State) (g : State → State) => match s.answerFault reader c resume with
      | (s, true) => g s
      | (s, false) => s.inTicks 64 (.faultDelivery c)
    (match s.streamCore c with
      | some k =>
        if (s.core k).atBoundary then
          go s fun s => match ipc with
            | some a => (s.dropProbe k).modCore k fun y => { y with th := { y.th with pc := a } }
            | none => s
        else s.inTicks 1 (.faultDelivery c)
      | none => go s fun s => s.modCtx c fun y => { y with goAt := ipc })
  | _ => s

/-- FAULT_DELIVERY, R323. -/
def execFaultDelivery (c : Nat) (σ : State) : Out := σ.whenDue (.faultDelivery c) fun σ => σ.deliver c

/-! What other devices tell this one about windows (R38, R42, R97, R114, R117). -/

/-- An answer about an entry of this device's window comes in its time: about its outputs once its tasks have ended, about its batch once
that closes. -/
def State.peerAnswer (s : State) (dev c seq : Nat) (g : Entry → Option Entry) : State :=
  match (s.entry c seq).bind g with
  | some e => if s.domain.contains dev then (s.modEntry c seq fun _ => e).pushDue (.entryComplete c seq) else s
  | none => s

/-- The prisms give up their clean bytes of a device's memory: its batch has been applied there (R143). -/
def State.forgetDevice (s : State) (dev : Nat) : State :=
  s.prisms.foldl (fun s (p, x) => x.cache.foldl (fun s (kl : Nat × Line) =>
    if fieldAt (keyVa kl.1) 52 12 = dev then s.dropClean p kl.1 (BitVec.allOnes 512) else s) s) s

/-- A message of another device about windows is acted on. -/
def State.peerMsg (s : State) : PeerMsg → State
  | .outputs dev c seq missing =>
    s.peerAnswer dev c seq fun e =>
      if e.allEnded && !e.closing then some { e with outputs := e.outputs.filter (·.1 != dev) ++ [(dev, missing)] } else none
  | .closed dev c seq =>
    (s.peerAnswer dev c seq fun e =>
      if e.closeDevs.contains dev then some { e with closeDevs := e.closeDevs.filter (· != dev) } else none).forgetDevice dev
  | .dropped dev c =>
    let s := s.modCtx c fun x => { x with dropDevs := x.dropDevs.filter (· != dev) }
    (match (s.ctx c).phase with
      | .waiting _ _ _ _ => s.pushDue (.faultDelivery c)
      | _ => s)
  | .close dev c seq =>
    let key := (dev + 1) * 2 ^ 32 + seq
    (s.dSlices c key).foldl (fun s sl => s.pushDue (.batchClose sl c key)) s
  | .deleteD dev c seq =>
    ({ s with slices := s.slices.map fun (kx : Nat × Slice) => (kx.1, kx.2.without c ((dev + 1) * 2 ^ 32 + seq)) }).retryHeldD
  | .drop c va ver =>
    (match s.whereIs va, s.home c va with
      | .here, some sl => s.dropV sl c (localVa va) ver
      | _, _ => s)
  | .handlerFault id r =>
    (match kfind id s.flights with
      | some w => (match w.who with
        | .slot f n => (({ s with flights := kdel id s.flights }).modCnt w.who Counts.subSt).sendReport f n w.ctx w.seq { r with handler := true }
        | _ => s)
      | none => s)
  | .hold dev c va ver => if s.domain.contains dev then s.decodeHold dev c 0 va ver else s
  | .unhold dev c va ver =>
    match s.whereIs va, s.home c va with
    | .here, some sl =>
      let held := ((s.slice sl).version c (localVa va) ver).map fun e => e.peers.contains dev
      if held.getD false then s.endHold sl c (localVa va) ver (some dev) else s
    | _, _ => s

/-- COLLECTION_WINDOW_CLOSE, R354. -/
def execCollectionWindowClose (f : Nat) (σ : State) : Out :=
  σ.whenDue (.collectionWindowClose f) fun σ =>
    let x := σ.facet f
    let ctxs := (x.winFpx.filterMap fun n => (x.slot n).owner.map Prod.fst).dedup
    let σ := σ.modFacet f fun x => { x with winFpx := [] }
    ctxs.foldl (fun σ c =>
      let l := x.winFpx.filter fun n => ((x.slot n).owner.map Prod.fst) == some c
      let mask : BitVec 16 := l.foldl (fun m n => setBit m n true) 0
      match l with
      | [] => σ
      | p :: _ =>
        let σ := l.foldl (fun σ n => σ.modSlot f n fun y =>
          { y with fpx := false, trap := y.trap.map fun t => { t with mask := mask, win := n == p },
                   held := if n = p then y.held else none }) σ
        match (σ.slot f p).owner, (σ.slot f p).trap, (σ.slot f p).held with
        | some (c, seq), some t, none => σ.sendReport f p c seq (σ.reportOf f p t)
        | _, _, _ => σ) σ

/-- LATE_REPORT, R230. -/
def execLateReport (f n : Nat) (σ : State) : Out :=
  let sl := σ.slot f n
  let ready := !sl.late.isEmpty && sl.trap.isNone && sl.park.isNone && sl.job != .vacant
  .next (let σ := σ.done (.lateReport f n); if ready then σ.takeLate (.slot f n) else σ)

/-! STRM (R317 to R324). -/

/-- A STRM instruction of a control core, with the context whose window it acts on: that of SCTX.CTX (log 14). -/
def strm (σ : State) (rs : List (BitVec 5)) (d : BitVec 5) (k : Nat → Nat → Thread → Out) : Out :=
  issue σ { facet := false, handler := false, reads := rs, writes := [d] } fun t =>
    match σ.turn with
    | .core n => k n (σ.core n).stream.toNat t
    | _ => faultOut σ cILLEGAL

/-- The context's stream is in its fault handler. -/
def FaultPhase.inHandler (p : FaultPhase) : Bool := p == .handler

/-- A fault of the context is being handled (R45, R318). -/
def Context.faulting (x : Context) : Bool := x.phase.busy || x.window.any (·.state == .faulted)

/-- Some slice of the context's partition has fewer free frames than its low mark (R45). -/
def State.framesLow (s : State) (c : Nat) : Bool :=
  (s.part (s.ctx c).d.part).slices.any fun sl => (s.slice sl).freeFrames < (s.slice sl).flow.toNat

/-- The firmware of the apex of a context is being updated: decode stalls (R450). -/
def State.apexUpdates (s : State) (c : Nat) : Bool := (s.apexOf c).any (s.updates 2)

/-- SLAUNCH, R318. A SUP context launches nothing (R384): the instruction faults with ACCESS (log 14). -/
def execSlaunch (a d : BitVec 5) (σ : State) : Out :=
  strm σ [a] d fun k c t =>
    let x := σ.ctx c
    if x.phase.inHandler then faultOut σ cILLEGAL
    else if x.d.sup then faultOut σ cACCESS
    else if x.faulting ∨ 256 ≤ x.window.length ∨ σ.framesLow c ∨ σ.apexUpdates c then stall σ clSYNC
    else match σ.release (.core k) true with
      | none => stall σ clFENCE
      | some σ =>
        let seq := x.nseq
        match decodeFrom σ (fun s va n => s.coreRead k va n) c t.pc (t.rx a) with
        | (σ, false) => stall σ clACCEPT
        | (σ, true) =>
          let good := ((σ.entry c seq.toNat).map fun e => e.state != .faulted).getD false
          let σ := σ.dropProbes (.core k)
          let t := σ.thread (.core k)
          retire σ (if good then t.wx d (zext64 seq) false else t)

/-- SSYNC, R319. -/
def execSsync (σ : State) : Out :=
  strm σ [] 0 fun k c t =>
    let x := σ.ctx c
    if x.phase.inHandler then faultOut σ cILLEGAL
    else if x.faulting ∨ x.window ≠ [] then stall σ clSYNC
    else match σ.acquire (.core k) true with
      | none => stall σ clFENCE
      | some σ => retire σ t

/-- SRFENCE, R319. -/
def execSrfence (b a : BitVec 5) (σ : State) : Out :=
  strm σ [a, b] 0 fun k c t =>
    let x := σ.ctx c
    let base := (t.rx a).toNat
    let len := (t.rx b).toNat
    let hit := x.window.any fun e => e.ops.any fun o => !o.versioned && overlaps o.base.toNat o.len.toNat base len
    if x.phase.inHandler then faultOut σ cILLEGAL
    else if 2 ^ 64 < base + len then faultOut σ cILLEGAL
    else if len = 0 then retire σ t
    else if x.faulting ∨ hit then stall σ clSYNC
    else match σ.acquire (.core k) true with
      | none => stall σ clFENCE
      | some σ => retire σ t

/-- SBIND, R320. -/
def execSbind (b a : BitVec 5) (σ : State) : Out :=
  strm σ [a, b] 0 fun k c t =>
    let x := σ.ctx c
    let n := (t.rx a).toNat
    if x.phase.inHandler then faultOut σ cILLEGAL
    else if 1023 < n then faultOut σ cILLEGAL
    else if (t.rx b).toNat % 8 ≠ 0 then faultOut σ cALIGN (t.rx b)
    else match σ.coreRead k (t.rx b) 32 with
      | .wait σ => stall σ clACCEPT
      | .fail σ cause => faultOut (σ.dropProbes (.core k)) cause (t.rx b)
      | .got σ m =>
        let σ := σ.dropProbes (.core k)
        let base := fieldOf m 0 8
        let len := fieldOf m 8 8
        if fieldOf m 24 8 ≠ 0 ∨ 2 ^ 64 < base + len then faultOut σ cILLEGAL
        else if x.faulting ∨ x.window.any (fun e => e.ops.any fun o => o.versioned && o.name == n) then stall σ clSYNC
        else
          let nb : NameB := { base := BitVec.ofNat 64 base, len := BitVec.ofNat 64 len, next := BitVec.ofNat 32 (fieldOf m 16 4),
                              cur := BitVec.ofNat 32 (fieldOf m 20 4) }
          retire (σ.modCtx c fun y => { y with names := kset n nb y.names }) t

/-- SNAME, R321. -/
def execSname (a d : BitVec 5) (σ : State) : Out :=
  strm σ [a] d fun _ c t =>
    if 1023 < (t.rx a).toNat then faultOut σ cILLEGAL
    else
      let b := (σ.ctx c).name (t.rx a).toNat
      retire σ (t.wx d (b.next ++ b.cur) false)

/-- The stream status (R322). -/
def Context.status (x : Context) : Word :=
  let flt := match x.phase with | .none => false | _ => true
  x.nseq ++ 0#21 ++ bit (!x.replay.isEmpty) ++ bit flt ++ BitVec.ofNat 9 x.window.length

/-- SSTAT, R322. -/
def execSstat (d : BitVec 5) (σ : State) : Out := strm σ [] d fun _ c t => retire σ (t.wx d (σ.ctx c).status false)

/-- SVEC, R323. -/
def execSvec (b a : BitVec 5) (σ : State) : Out :=
  strm σ [a, b] 0 fun _ c t =>
    if (t.rx a).toNat % 4 ≠ 0 then faultOut σ cALIGN (t.rx a)
    else if (t.rx b).toNat % 64 ≠ 0 then faultOut σ cALIGN (t.rx b)
    else
      let σ := σ.modCtx c fun x => { x with svecH := t.rx a, svecR := t.rx b, noRecord := x.noRecord && t.rx a == 0 }
      let σ := match (σ.ctx c).phase with
        | .waiting _ _ _ _ => if t.rx a = 0 then σ else σ.pushDue (.faultDelivery c)
        | _ => σ
      retire σ t

/-- SRESUME and SABANDON. -/
def answerOp (σ : State) (a : BitVec 5) (resume : Bool) : Out :=
  strm σ [a] 0 fun k c t =>
    let awaiting := match (σ.ctx c).phase with | .handler | .service _ _ => true | _ => false
    if (t.rx a).toNat % 4 ≠ 0 then faultOut σ cALIGN (t.rx a)
    else if !awaiting then faultOut σ cILLEGAL
    else match σ.answerFault (.core k) c resume with
      | (σ, true) => jump (σ.dropProbes (.core k)) t (t.rx a)
      | (σ, false) => stall σ clACCEPT

/-- SRESUME, R324. -/
def execSresume (a : BitVec 5) (σ : State) : Out := answerOp σ a true
/-- SABANDON, R324. -/
def execSabandon (a : BitVec 5) (σ : State) : Out := answerOp σ a false

end Sys2Proof.Machine
end

