-- ==== Sys2Proof/Machine/Registers.lean ====
section
/-! DEFINITION. The registers in the physical address space (R362 to R382, R392, R396, R437, R443): contexts, queues, prisms, slices,
invalidations and migrations. -/

namespace Sys2Proof.Machine

/-! Parts of the device that a control core may reach (R363 to R366). -/

/-- The partition of a slice, and of a prism. -/
def State.partOfSlice (s : State) (sl : Nat) : Option Nat := (s.parts.find? fun (_, p) => p.slices.contains sl).map Prod.fst
def State.partOfPrism (s : State) (p : Nat) : Option Nat := (s.parts.find? fun (_, x) => x.prisms.contains p).map Prod.fst

/-- [a, a + n) lies in the HBM ranges of a partition. -/
def Part.inHbm (p : Part) (a n : Nat) : Bool :=
  (unitsOf 65536 a n).all fun u => p.hbm.any fun (b, l) => b.toNat * 65536 ≤ u.1 && u.1 < l.toNat * 65536

/-- Every region of [a, a + n) has a world. -/
def State.areaWorld (s : State) (w : Bool) (a n : Nat) : Bool := (unitsOf 65536 a n).all fun u => s.region u.1 == some w

/-- A control core at level 1 that runs. -/
def State.supervises (s : State) (k : Nat) : Bool := (s.core k).run == .running && (s.core k).level == 1

/-! Contexts (R367, R368, R383). -/

/-- The descriptor at an address. -/
def State.readDesc (s : State) (a : Nat) (w : Bool) : CtxDesc :=
  let f := fun (o n : Nat) => s.hbmRead (a + o) n
  { part := f 0 1, weight := max 1 (f 1 1), lra := f 8 8, contB := f 0x10 8, contN := f 0x18 4, splB := f 0x20 8, splZ := f 0x28 8,
    ovfB := f 0x30 8, ovfS := f 0x38 8, root := f 0x40 8, asn := f 0x48 2,
    score := if f 0x4A 1 / 128 = 1 then some (f 0x4A 1 % 32) else none, sup := f 0x4B 1 % 2 == 1, redok := f 0x4B 1 / 2 % 2 == 1,
    world := w }

/-- The reserved bytes and bits of a descriptor are zero. -/
def State.descReserved (s : State) (a : Nat) : Bool :=
  s.hbmRead (a + 2) 6 == 0 && s.hbmRead (a + 0x1C) 4 == 0 && s.hbmRead (a + 0x4C) 52 == 0 && s.hbmRead (a + 0x48) 2 < 4096 &&
    s.hbmRead (a + 0x4A) 1 / 32 % 4 == 0 && s.hbmRead (a + 0x4B) 1 < 4

/-- The areas of a descriptor: the continuation area reaches to the queue of the partition's last prism. -/
def CtxDesc.areas (d : CtxDesc) (p : Part) : List (Nat × Nat) :=
  [(d.lra, 131072), (d.contB, 32 * d.contN * (p.prisms.foldl max 0 + 1)), (d.splB, d.splZ), (d.ovfB, d.ovfS)]

/-- A descriptor read for context c by core k passes the checks of R368 and R383; the frame areas of the partition's slices lie in its HBM
ranges too (R366). -/
def State.descOk (s : State) (k c a : Nat) (d : CtxDesc) : Bool :=
  let p := s.part d.part
  let w := (s.core k).wld
  let others := s.ctxs.filter fun (i, x) => i != c && x.live
  s.mayTouch w a && s.mayTouch w (a + 127) && s.partOfCore k == some d.part &&
    (d.areas p).all (fun r => r.1 % 512 == 0 && p.inHbm r.1 r.2) && (d.areas p).all (fun r => s.areaWorld w r.1 r.2) &&
    s.descReserved a && d.root % 4096 == 0 && p.inHbm d.root 4096 && others.all (fun (_, x) => x.d.asn != d.asn) &&
    p.slices.all (fun sl => p.inHbm ((s.slice sl).sfrb.toNat * 65536) (s.slice sl).areaBytes) &&
    (match d.score with | none => true | some i => p.cores.contains i) && !(d.sup && others.any fun (_, x) => x.d.sup && x.d.part == d.part)

/-- A write of CTXT[c] that sets V, and clears the context's debug block (R407): nothing but DESC changes where a check fails, and V stays 0; the descriptor of a context that is
valid already gives way only to one that passes. -/
def State.ctxtSet (s : State) (k c : Nat) (v : Word) : State :=
  let desc := v.extractLsb' 6 38
  let a := desc.toNat * 64
  let d := s.readDesc a (s.core k).wld
  let x := s.ctx c
  if s.descOk k c a d then s.setCtx c { x with desc := desc, live := true, d := d, dbg := if x.live then x.dbg else {} }
  else if x.live then s
  else s.setCtx c { x with desc := desc }

/-- A context cannot become invalid (R367). -/
def State.ctxtBusy (s : State) (c : Nat) : Bool :=
  s.cores.any (fun (_, x) => x.run != .notStarted && x.run != .stopped && x.level == 0 && x.stream.toNat == c) ||
    !(s.ctx c).window.isEmpty ||
    s.facets.any fun (_, x) =>
      let of := fun (sl : Slot) => match sl.job with | .task c' _ _ _ => c' == c | _ => false
      x.slots.any (fun (_, sl) => of sl) || x.savedSlots.any fun (_, sl) => of sl

/-- A write of CTXT[c] that clears V: the window and the rename table return to their state at creation. -/
def State.ctxtClear (s : State) (c : Nat) (v : Word) : State :=
  let x := s.ctx c
  let desc := v.extractLsb' 6 38
  if !x.live then s.setCtx c { x with desc := desc }
  else if s.ctxtBusy c then s
  else s.setCtx c { desc := desc, dbg := x.dbg }

/-- The context lies outside the partition of a core. -/
def State.ctxOutside (s : State) (k c : Nat) : Bool := (s.ctx c).live && s.partOfCore k != some (s.ctx c).d.part

/-- CTXT_SET_V, R367. -/
def execCtxtSetV (k c : Nat) (v : Word) (σ : State) : Out :=
  .next (if σ.supervises k ∧ c < 64 ∧ bitAt v 0 ∧ !σ.ctxOutside k c then σ.ctxtSet k c v else σ)

/-- CTXT_CLEAR_V, R367. -/
def execCtxtClearV (k c : Nat) (v : Word) (σ : State) : Out :=
  .next (if σ.supervises k ∧ c < 64 ∧ !bitAt v 0 ∧ !σ.ctxOutside k c then σ.ctxtClear c v else σ)

/-! Queues (R369 to R371). -/

/-- The fields of a QMAP register. -/
def qcba (m : Word) : Nat := fieldAt m 20 38 * 64
def qcore (m : Word) : Nat := fieldAt m 8 5
def qctx (m : Word) : Nat := fieldAt m 1 6
def qpart (m : Word) : Nat := fieldAt m 16 4

def State.qmapOf (s : State) (q : Nat) : Word := kget 0 s.qmap q

/-- A queue is mapped. -/
def State.mapped (s : State) (q : Nat) : Bool := bitAt (s.qmapOf q) 0 && (s.ctx (qctx (s.qmapOf q))).live

/-- A queue is pending for the core it names. -/
def State.markNotified (s : State) (q : Nat) : State :=
  let k := qcore (s.qmapOf q)
  ({ s with nqpend := kset k (kget 0 s.nqpend k ||| (1#64 <<< q)) s.nqpend }).modCore k fun x => { x with sipNotify := true }

/-- NOTIFY, R371. -/
def execNotify (q : Nat) (v : BitVec 32) (σ : State) : Out :=
  let a := qcba (σ.qmapOf q)
  .next (if 64 ≤ q ∨ a = 0 then σ
    else
      let w := (σ.ctx (qctx (σ.qmapOf q))).d.world
      let σ := (σ.deviceWrite w a (toBytes 4 v.toNat)).deviceWrite w (a + 4) [readByte σ.mem (a + 4) ||| 1]
      if σ.mapped q then σ.markNotified q else σ)

/-- The writable bits of QMAP. -/
def qmapMask : Word := 0x03FFFFFFFFF01F7F#64

/-- A write of QMAP[q]: PART keeps its value; one that sets V looks at PEND, where the regions let the context's world read it (R402). -/
def State.qmapWrite (s : State) (q : Nat) (v : Word) : State :=
  let m := (v &&& qmapMask) ||| (s.qmapOf q &&& 0xF0000#64)
  let s := { s with qmap := kset q m s.qmap }
  if s.mapped q ∧ qcba m ≠ 0 ∧ s.mayTouch (s.ctx (qctx m)).d.world (qcba m + 4) ∧ (readByte s.mem (qcba m + 4)).getLsbD 0 then s.markNotified q
  else s

/-- A queue that a core's partition may map. -/
def State.queueOf (s : State) (k q : Nat) : Bool := s.partOfCore k == some (qpart (s.qmapOf q))

/-- QMAP_SET_V, R371. -/
def execQmapSetV (k q : Nat) (v : Word) (σ : State) : Out :=
  .next (if σ.supervises k ∧ q < 64 ∧ bitAt v 0 ∧ σ.queueOf k q then σ.qmapWrite q v else σ)
/-- QMAP_CLEAR_V, R371. -/
def execQmapClearV (k q : Nat) (v : Word) (σ : State) : Out :=
  .next (if σ.supervises k ∧ q < 64 ∧ !bitAt v 0 ∧ σ.queueOf k q then σ.qmapWrite q v else σ)

/-! Prisms (R372, R380 to R382). -/

/-- The state code of PCFG. -/
def PState.code : PState → Nat
  | .active => 0 | .draining => 1 | .idle => 2 | .offline => 3

/-- A prism holds no task, no range task, no queued continuation, no binding and no grant. -/
def State.prismEmpty (s : State) (p : Nat) : Bool :=
  (s.prism p).ranges.isEmpty && (s.prism p).conts.isEmpty && (s.prism p).contsWait.isEmpty &&
    (List.range 8).all fun i =>
      let x := s.facet (8 * p + i)
      x.slots.all (fun (_, sl) => sl.heldFor.isNone) && x.mq0.bind.isNone && x.mq1.bind.isNone &&
        x.grant == 0

/-- DRAIN. -/
def State.drainPrism (s : State) (p : Nat) : State :=
  if (s.prism p).state = .active then (s.modPrism p fun x => { x with state := .draining }).pushDue (.drainIdle p) else s

/-- DRAIN, R381. -/
def execDrain (p : Nat) (σ : State) : Out := .next (σ.drainPrism p)

/-- DRAIN_IDLE, R381. -/
def execDrainIdle (p : Nat) (σ : State) : Out :=
  .next (let σ := σ.done (.drainIdle p)
    if (σ.prism p).state = .draining ∧ σ.prismEmpty p then σ.modPrism p fun x => { x with state := .idle } else σ)

/-- The entries whose range tasks the window holds because no prism of their list was active are handed out (R382). -/
def State.retryHandOut (s : State) (p : Nat) : State :=
  let waiting := s.ctxs.flatMap fun (c, x) =>
    if s.partOfPrism p = some x.d.part then (x.window.filter fun e => e.unhanded && e.state == .issued).map fun e => (c, e.seq) else []
  waiting.foldl (fun s (c, seq) => s.handOut c seq) s

/-- RETURN. -/
def State.returnPrism (s : State) (p : Nat) : State :=
  match (s.prism p).state with
  | .draining | .idle => (s.modPrism p fun x => { x with state := .active }).retryHandOut p
  | .offline => if (s.prism p).serviceable then s.modPrism p fun x => { x with state := .idle } else s
  | .active => s

/-- RETURN, R381. -/
def execPrismReturn (p : Nat) (σ : State) : Out := .next (if σ.updates 3 p then σ else σ.returnPrism p)

/-- The entries with a task, a range task, a remainder or a continuation on a prism. -/
def State.entriesOn (s : State) (p : Nat) : List (Nat × Nat) :=
  let tasks := (List.range 8).flatMap fun i =>
    ((s.facet (8 * p + i)).slots ++ (s.facet (8 * p + i)).savedSlots).filterMap fun (_, sl) => sl.heldFor
  (tasks ++ (s.prism p).ranges.map (fun r => (r.c, r.seq)) ++ ((s.prism p).conts ++ (s.prism p).contsWait).map fun k => (k.c, k.seq)).dedup

/-- REMOVE: the prism's tasks are killed, their entries fault with POISON, and its saved states cannot be resumed. -/
def State.removePrism (s : State) (p : Nat) : State :=
  let hit := s.entriesOn p
  let s : State := (List.range 8).foldl (fun s i =>
    let f := 8 * p + i
    let s : State := (s.facet f).slots.foldl (fun s (n, sl) => match sl.job with
      | .task _ _ _ _ => s.killTask f n
      | .handler _ _ msg => s.killHandler f n msg
      | .vacant => s) s
    let s : State := (s.facet f).savedSlots.foldl (fun s (n, sl) => s.killSaved f n sl) s
    s.modFacet f fun x => { x with stash := none, save := .idle, diverting := false, divMsgs := [] }) s
  let s := s.modPrism p fun x => { x with state := .offline }
  hit.foldl (fun s (c, seq) => s.entryFaults c seq { cause := cPOISON, info := BitVec.ofNat 64 p }) s

/-- REMOVE, R381. -/
def execRemove (p : Nat) (σ : State) : Out := .next (σ.removePrism p)

/-- DETL as stored. -/
def detlStored (v : Word) : BitVec 9 :=
  let n := fieldAt v 16 9
  BitVec.ofNat 9 (if 256 < n then 256 else n / 8 * 8)

/-- A write of PCFG. A prism whose calibration is being updated is out of service (R450). -/
def State.pcfgWrite (s : State) (p : Nat) (v : Word) : State :=
  let s := s.modPrism p fun x => { x with detl := detlStored v }
  match fieldAt v 8 2 with
  | 1 => s.drainPrism p
  | 2 => if s.updates 3 p then s else s.returnPrism p
  | 3 => s.removePrism p
  | _ => s

/-- SOWN as stored: a MODE of 3 stores 2. -/
def sownStored (v : Word) : BitVec 14 :=
  v.extractLsb' 8 6 ++ 0#6 ++ (if v.extractLsb' 0 2 = 3#2 then 2#2 else v.extractLsb' 0 2)

/-! Slices (R378). -/

/-- Every dirty line of a slice's cache reaches HBM. -/
def State.evictAll (s : State) (sl : Nat) : State := (s.slice sl).cache.foldl (fun s (ln, _) => s.sliceEvict sl ln) s

/-- A write of SCFG. -/
def State.scfgWrite (s : State) (sl : Nat) (v : Word) : State :=
  let x := s.slice sl
  let pool : BitVec 5 := if 16 < fieldAt v 0 5 then 16 else v.setWidth 5
  let s := if x.tpool < pool ∧ !x.movesArea then s.evictAll sl else s
  (s.modSlice sl fun y => { y with flow := v.extractLsb' 16 16, tpool := if y.movesArea then y.tpool else pool }).retryCreations sl

/-- SCFG_WRITE, R378. -/
def execScfgWrite (sl : Nat) (v : Word) (σ : State) : Out := .next (σ.scfgWrite sl v)

/-- A write of SFRB or SFRS. -/
def State.sfrWrite (s : State) (sl : Nat) (size : Bool) (v : Word) : State :=
  let a := v.extractLsb' 16 28
  if (s.slice sl).framed false ≠ 0 ∨ (!size ∧ (s.slice sl).movesArea) then s
  else (s.modSlice sl fun y => if size then { y with sfrs := a } else { y with sfrb := a }).retryCreations sl

/-! Invalidation (R392, R393). -/

/-- An invalidation reaches a context's lines and entries of an address space. -/
def TiWork.covers (w : TiWork) (s : State) (asn a : Nat) : Bool :=
  match w with
  | .page n base size => n == asn && decide (base.toNat / size = a / size)
  | .context n => n == asn
  | .partition p => s.ctxs.any fun (_, x) => x.live && x.d.part == p && x.d.asn == asn

/-- A translation entry lies in an invalidation's reach. -/
def TiWork.drops (w : TiWork) (s : State) (e : TlbEntry) : Bool :=
  match w with
  | .page n base size => n == e.asn && overlaps e.base e.size (localVa base / size * size) size
  | _ => w.covers s e.asn 0

/-- Every slice of a partition drops the translation entries in scope. -/
def State.tiDrop (s : State) (p : Nat) (w : TiWork) : State :=
  (s.part p).slices.foldl (fun s sl => s.modSlice sl fun x => { x with tlb := x.tlb.filter fun e => !w.drops s e }) s

/-- An invalidation begins: every slice of the partition drops the entries in scope (step 2); it does so again until the release of step 1
has been performed. -/
def State.invalidate (s : State) (k p : Nat) (w : TiWork) : State :=
  ((s.tiDrop p w).modCore k fun x => { x with tiWork := some w }).pushDue (.invalidationDone k)

/-- A TICTL write is refused: ERR. -/
def State.tiRefuse (s : State) (k : Nat) : State := s.modCore k fun x => { x with tiErr := true }

/-- The range of a page scope: VA with this device's number as caches know it. -/
def State.tiBase (s : State) (va : Word) : Word :=
  match s.whereIs va with
  | .here => BitVec.ofNat 64 (0xFFF * 2 ^ 52 + localVa va)
  | _ => va

/-- A TICTL write (R392): scope 0 page, 1 context, 2 partition; 3 does nothing, while BUSY too, and a context that is not valid counts as one
outside the partition (log 78). -/
def State.tictl (s : State) (k scope c size : Nat) : State :=
  let x := s.core k
  match s.partOfCore k with
  | none => s.tiRefuse k
  | some p =>
    let outside := !(s.ctx c).live || (s.ctx c).d.part != p
    if scope = 3 then s
    else if x.tiWork.isSome ∨ (scope ≠ 2 ∧ outside) then s.tiRefuse k
    else
      let asn := (s.ctx c).d.asn
      let bytes := match size with | 0 => 2 ^ 16 | 1 => 2 ^ 21 | _ => 2 ^ 33
      s.invalidate k p (match scope with
        | 0 => .page asn (s.tiBase (x.tiva.zeroExtend 64 <<< 16)) bytes
        | 1 => .context asn
        | _ => .partition p)

/-- INVALIDATE_PAGE, R392. -/
def execInvalidatePage (k c size : Nat) (σ : State) : Out := .next (if σ.supervises k then σ.tictl k 0 c size else σ)
/-- INVALIDATE_CONTEXT, R392. -/
def execInvalidateContext (k c : Nat) (σ : State) : Out := .next (if σ.supervises k then σ.tictl k 1 c 0 else σ)
/-- INVALIDATE_PARTITION, R392. -/
def execInvalidatePartition (k : Nat) (σ : State) : Out := .next (if σ.supervises k then σ.tictl k 2 0 0 else σ)

/-- The lines of a prism in scope. -/
def State.tiLines (s : State) (w : TiWork) (p : Nat) : List Nat :=
  ((s.prism p).cache.map Prod.fst).filter fun k => w.covers s (k / 2 ^ 55) (keyVa k).toNat

/-- A prism writes back its lines in scope and gives them up; none while a write-back has to wait. -/
def State.tiPrism (s : State) (w : TiWork) (p : Nat) : Option State :=
  let ks := s.tiLines w p
  (s.writeBackAll p ks).map fun s => s.modPrism p fun x => { x with cache := x.cache.filter fun (k, _) => !ks.contains k }

/-- A request has been accepted and not yet performed: a vector access until the sequencer is done with it. -/
def Req.underWay (r : Req) : Bool :=
  match r.stage, r.op with
  | .accepted _ _, _ | .inWindow _ _ _, _ | .returning, .vload _ _ _ | .returning, .vstore _ _ => true
  | _, _ => false

/-- An invalidation waits for a request: one accepted in scope, or one of its core's, for the release of step 1; and for a ".d" update in
scope, which its batch performs. -/
def State.tiWaits (s : State) (k : Nat) (w : TiWork) : Bool :=
  s.reqs.any (fun (_, r) => r.underWay && (r.who == .core k || w.covers s (s.ctx r.ctx).d.asn (s.tiBase r.va).toNat)) ||
    s.slices.any fun (_, x) => x.records.any fun r => w.covers s (s.ctx r.c).d.asn (s.tiBase r.va).toNat

/-- Prisms in turn: those that can, write back and give up their lines. -/
def State.tiAll (s : State) (w : TiWork) : List Nat → State × Bool
  | [] => (s, true)
  | p :: ps =>
    match s.tiPrism w p with
    | some s => s.tiAll w ps
    | none => let (s, _) := (s.askStuck p).tiAll w ps; (s, false)

/-- INVALIDATION_DONE, R392. -/
def execInvalidationDone (k : Nat) (σ : State) : Out :=
  σ.whenDue (.invalidationDone k) fun σ =>
    match (σ.core k).tiWork, σ.partOfCore k with
    | some w, some p =>
      let (σ, ok) := (σ.tiDrop p w).tiAll w (σ.part p).prisms
      if ok ∧ !σ.tiWaits k w then σ.modCore k fun x => { x with tiWork := none } else σ.inTicks 16 (.invalidationDone k)
    | _, _ => σ

/-! Migration (R396 to R400). -/

/-- A command of a migration engine is refused with a code (R396); the busy state of a running command stays. -/
def State.migRefuse (s : State) (sl code : Nat) : State :=
  s.modSlice sl fun x => { x with mgerr := BitVec.ofNat 8 code, mgst := if x.mgst = 1 then 1 else 3 }

/-- A command starts; ERR keeps the code of the last refused one. -/
def State.migStart (s : State) (sl : Nat) (w : MigWork) : State :=
  (s.modSlice sl fun x => { x with mgst := 1, mig := w }).pushDue (.migrationCopyDone sl)

/-- The destination of a migration. -/
def Slice.mgDest (x : Slice) : Nat := x.mgpa.toNat * 65536

/-- The destination may be used: inside the partition's HBM ranges and allowed for a world. -/
def State.destOk (s : State) (sl : Nat) (w : Bool) (size : Nat) : Bool :=
  let dst := (s.slice sl).mgDest
  match s.partOfSlice sl with
  | some p => dst < 2 ^ 44 && (s.part p).inHbm dst size && (unitsOf 65536 dst size).all fun u => s.mayTouch w u.1
  | none => false

/-- OP 1 (R397). -/
def State.movePage (s : State) (sl c : Nat) : State :=
  let x := s.slice sl
  let va : Word := x.mgva.zeroExtend 64 <<< 16
  if x.mgst = 1 ∨ s.updates 1 sl then s.migRefuse sl 1
  else if s.whereIs va ≠ .here ∨ s.home c va ≠ some sl then s.migRefuse sl 2
  else match s.walk sl c (localVa va), walkEntry s (localVa va) levels (s.ctx c).d.root with
    | .leaf w size, some a =>
      if size ≠ 65536 ∨ leafVer w then s.migRefuse sl 3
      else if !s.destOk sl (s.ctx c).d.world 65536 then s.migRefuse sl 4
      else s.migStart sl (.page c (localVa va) x.mgDest a)
    | _, _ => s.migRefuse sl 3

/-- OP 2 (R399). -/
def State.moveArea (s : State) (sl : Nat) : State :=
  let x := s.slice sl
  if x.mgst = 1 ∨ s.updates 1 sl then s.migRefuse sl 1
  else if !s.destOk sl x.world (max 65536 x.areaBytes) then s.migRefuse sl 4
  else if x.sfrs = 0 then s.migRefuse sl 5
  else s.migStart sl (.area x.mgDest)

/-- The frames of one slice's versions placed at another: none where they do not fit. -/
def placeAll (y : Slice) : List VEntry → Option (List VEntry)
  | [] => some []
  | e :: l =>
    if e.st.created then
      match y.frameFor e.size with
      | none => none
      | some pool =>
        let e' := { e with pool := pool }
        (placeAll { y with versions := y.versions ++ [e'] } l).map (e' :: ·)
    else (placeAll { y with versions := y.versions ++ [e] } l).map (e :: ·)

/-- OP 3 (R400). The check of ERR 4 is made of MGPA here too, as R396 lists OP 3 in it, although nothing is moved there (log 70). -/
def State.moveHome (s : State) (sl sub : Nat) : State :=
  let x := s.slice sl
  let y := s.slice sub
  if x.mgst = 1 ∨ s.updates 1 sl then s.migRefuse sl 1
  else if !s.destOk sl x.world 65536 then s.migRefuse sl 4
  else if sl = sub ∨ s.partOfSlice sl ≠ s.partOfSlice sub ∨ (s.partOfSlice sl).isNone then s.migRefuse sl 5
  else if 8192 < y.versions.length + x.versions.length ∨ 4096 < y.parkq.length + x.parkq.length ∨ (placeAll y x.versions).isNone then
    s.migRefuse sl 6
  else (s.migStart sl (.home sub)).modSlice sl fun x => { x with paused := true }

/-- MOVE_PAGE, R397. -/
def execMovePage (sl c : Nat) (σ : State) : Out := .next (σ.movePage sl c)
/-- MOVE_FRAME_AREA, R399. -/
def execMoveFrameArea (sl : Nat) (σ : State) : Out := .next (σ.moveArea sl)
/-- TRANSFER_HOME, R400. -/
def execTransferHome (sl sub : Nat) (σ : State) : Out := .next (σ.moveHome sl sub)

/-- n bytes moved in a byte memory. -/
def moveBytes (m : KMap Byte) (src dst n : Nat) : KMap Byte :=
  (m.filter fun c => decide (src ≤ c.1 ∧ c.1 < src + n)).foldl (fun m c => writeByte (dst + (c.1 - src)) c.2 m)
    (m.filter fun c => !decide (dst ≤ c.1 ∧ c.1 < dst + n))

/-- A set of numbers copied from one range to another. -/
def moveSet (l : List Nat) (src dst n : Nat) : List Nat :=
  (l.filter fun i => decide (src ≤ i ∧ i < src + n)).foldl (fun l i => sadd (dst + (i - src)) l)
    (l.filter fun i => !decide (dst ≤ i ∧ i < dst + n))

/-- The requests that park behind a slice's migration are served again in arrival order. -/
def State.wakeBehind (s : State) (sl : Nat) : State :=
  let ids := (s.slice sl).parkq.filter fun id => (s.req id).map (·.stage) == some .behind
  ids.foldl (fun s id => s.pushDue (.acceptance id noAnswer)) s

/-- A migration has ended. -/
def State.migEnd (s : State) (sl : Nat) : State :=
  (s.modSlice sl fun x => { x with mig := .none, mgst := 2, paused := false }).wakeBehind sl

/-- ".d" records of a page that has moved are applied at its new frame. -/
def State.moveRecords (s : State) (c va dst : Nat) : State :=
  let move := fun (r : DRec) =>
    if (s.ctx r.c).d.asn = (s.ctx c).d.asn ∧ localVa r.va / 65536 = va / 65536 then { r with pa := dst + r.pa % 65536 } else r
  { s with slices := s.slices.map fun (kx : Nat × Slice) =>
      (kx.1, { kx.2 with hold := kx.2.hold.map move, runs := kx.2.runs.map fun (o, l) => (o, l.map move) }) }

/-- Steps 2 to 5 of R397: a poisoned granule stays poisoned at the new frame. -/
def State.finishPage (s : State) (sl c va dst leafAddr : Nat) : State :=
  let src := fieldAt (s.hbm64 leafAddr) 16 28 * 65536
  let s : State := (s.slice sl).cache.foldl (fun s (ln, _) => if ln * 512 / 65536 = src / 65536 then s.sliceEvict sl ln else s) s
  let s := { s with mem := moveBytes s.mem src dst 65536, memT := moveSet s.memT (src / 32) (dst / 32) 2048,
                    memP := moveSet s.memP (src / 64) (dst / 64) 1024 }
  let e := (s.hbm64 leafAddr &&& ~~~0xFFFFFFF0000#64) ||| BitVec.ofNat 64 dst
  let s := s.deviceWrite (s.slice sl).world leafAddr (toBytes 8 e.toNat)
  let s := s.moveRecords c va dst
  let asn := (s.ctx c).d.asn
  (s.modSlice sl fun x => { x with tlb := x.tlb.filter fun t => !t.covers asn va }).migEnd sl

/-- A step that names a slice names its substitute. -/
def redirectStep (sl sub : Nat) (i : Instr) : Instr :=
  let sub' := fun (n : Nat) => if n = sl then sub else n
  match i with
  | .seal n t v => .seal (sub' n) t v
  | .supersedeNotice n c b l v => .supersedeNotice (sub' n) c b l v
  | .batchClose n c q => .batchClose (sub' n) c q
  | .mergeWindowClose n id => .mergeWindowClose (sub' n) id
  | .prefetch n pa => .prefetch (sub' n) pa
  | .endMarker n d w => .endMarker (sub' n) d w
  | i => i

/-- The holding buffers of two slices in that of the second: what 16 records do not hold is written out as runs (R114). -/
def State.mergeHold (s : State) (sl sub : Nat) : Option State :=
  let all := sortD ((s.slice sub).hold ++ (s.slice sl).hold)
  if all.length ≤ 16 then some (s.modSlice sub fun y => { y with hold := all })
  else (s.writeRuns sub (runsOf all)).map fun s => s.modSlice sub fun y => { y with hold := [] }

/-- Steps 2 to 5 of R400; none while the substitute has lost the room that the command found (log 70). -/
def State.finishHome (s : State) (sl sub : Nat) : Option State :=
  let s := s.evictAll sl
  let x := s.slice sl
  let behind := x.parkq.filter fun id => (s.req id).map (·.stage) == some .behind
  let stay := x.parkq.filter fun id => !behind.contains id
  if 8192 < (s.slice sub).versions.length + x.versions.length ∨ 4096 < (s.slice sub).parkq.length + stay.length then none
  else (placeAll (s.slice sub) x.versions).bind fun moved => (s.mergeHold sl sub).map fun s =>
  let y := s.slice sub
  let s := s.setSlice sub { y with versions := y.versions ++ moved, parkq := y.parkq ++ stay, quota := y.quota ++ x.quota,
                                   runs := y.runs ++ x.runs, heldD := y.heldD ++ x.heldD, mc := y.mc ++ x.mc,
                                   marks := y.marks ++ x.marks }
  let s := s.modSlice sl fun x => { x with versions := [], parkq := behind, quota := [], hold := [], runs := [], heldD := [], mc := [],
                                           marks := [], tlb := [], cache := [], redirect := some sub }
  let sub' := fun (n : Nat) => if n = sl then sub else n
  let entry := fun (e : Entry) =>
    { e with closeAt := e.closeAt.map sub', holds := e.holds.map fun (h : Nat × Nat × Nat) => (sub' h.1, h.2.1, h.2.2) }
  let s := { s with parts := s.parts.map (fun (kp : Nat × Part) => (kp.1, { kp.2 with homes := kp.2.homes.map sub' })),
                    ctxs := s.ctxs.map (fun (kc : Nat × Context) => (kc.1, { kc.2 with window := kc.2.window.map entry })),
                    due := s.due.map (redirectStep sl sub), later := s.later.map fun (t, i) => (t, redirectStep sl sub i) }
  let s := s.migEnd sl
  (s.modSlice sl fun x => { x with parkq := [] }).retryCreations sub

/-- MIGRATION_COPY_DONE, R397. -/
def execMigrationCopyDone (sl : Nat) (σ : State) : Out :=
  σ.whenDue (.migrationCopyDone sl) fun σ =>
    let accepted := σ.reqs.any fun (_, r) => r.underWay && σ.home r.ctx r.va == some sl
    match (σ.slice sl).mig with
    | .none => σ
    | .page c va dst a => if accepted then σ.inTicks 16 (.migrationCopyDone sl) else σ.finishPage sl c va dst a
    | .area dst => (σ.modSlice sl fun x => { x with sfrb := BitVec.ofNat 28 (dst / 65536) }).migEnd sl
    | .home sub => if accepted then σ.inTicks 16 (.migrationCopyDone sl) else (σ.finishHome sl sub).getD (σ.inTicks 16 (.migrationCopyDone sl))

/-! The register space (R362, R363). -/

/-- The registers by what they belong to. -/
inductive Reg where
  | part (p off : Nat) | qmap (q : Nat) | nqpend (k : Nat) | ctxt (c : Nat) | pcfg (p : Nat) | sown (p i : Nat)
  | slice (sl off : Nat) | ti (k off : Nat) | hint | wfwd (port : Nat) | none
  deriving DecidableEq, Repr

/-- The register at an address. -/
def regAt (pa : Nat) : Reg :=
  let o := pa - 0xFF000000000
  if o < 0x100000 then .part (o / 0x10000) (o % 0x10000)
  else if o < 0x100200 then .qmap ((o - 0x100000) / 8)
  else if o < 0x100400 then .none
  else if o < 0x100500 then .nqpend ((o - 0x100400) / 8)
  else if o < 0x100800 then .none
  else if o < 0x100A00 then .ctxt ((o - 0x100800) / 8)
  else if o < 0x1000000 then .none
  else if o < 0x1100000 then
    let p := (o - 0x1000000) / 0x1000
    let r := o % 0x1000
    if r = 0 then .pcfg p
    else if 0x100 ≤ r ∧ r < 0x500 ∧ (r - 0x100) / 8 % 16 ≠ 15 then .sown p ((r - 0x100) / 8)
    else .sown p 1024
  else if o < 0x2000000 then .none
  else if o < 0x2020000 then .slice ((o - 0x2000000) / 0x100) (o % 0x100)
  else if o < 0x3000000 then .none
  else if o < 0x3002000 then .ti ((o - 0x3000000) / 0x100) (o % 0x100)
  else if o = 0x4000000 then .hint
  else if 0x4000100 ≤ o ∧ o < 0x4000180 then .wfwd ((o - 0x4000100) / 8)
  else .none

/-- A register lies within the reach of control core k (R363, R392). -/
def State.regMine (s : State) (k : Nat) (r : Reg) : Bool :=
  let own := s.partOfCore k
  own.isSome &&
    (match r with
      | .part p _ => own == some p
      | .qmap q => s.queueOf k q
      | .nqpend j => s.partOfCore j == own
      | .ctxt c => !s.ctxOutside k c
      | .pcfg p | .sown p _ => s.partOfPrism p == own
      | .slice sl _ => s.partOfSlice sl == own
      | .ti j _ => j == k
      | .hint | .wfwd _ | .none => true)

/-- 64 bits of a set of numbers from one on. -/
def maskOf (l : List Nat) (lo : Nat) : Word := (List.range 64).foldl (fun m i => setBit m i (l.contains (lo + i))) 0

/-- A register of a partition page (R364). -/
def Part.reg (p : Part) (off : Nat) : Word :=
  if off < 0x20 then maskOf p.prisms (off / 8 * 64)
  else if off < 0x60 then maskOf p.slices ((off - 0x20) / 8 * 64)
  else if off = 0x60 then maskOf p.cores 0
  else if off = 0x68 then zext64 p.ports
  else if off < 0xB0 then
    (match p.hbm[(off - 0x70) / 16]? with
      | some (b, l) => zext64 (if off % 16 = 0 then b else l) <<< 16
      | none => 0)
  else if off = 0xB0 then (zext64 p.hspB <<< 12) ||| zext64 p.hspN
  else 0

/-- What a register reads as; a write-only register, and an offset that no register occupies, read as zero. -/
def State.regValue (s : State) (r : Reg) : Word :=
  match r with
  | .part p off => (s.part p).reg off
  | .qmap q => s.qmapOf q
  | .nqpend k => kget 0 s.nqpend k
  | .ctxt c => (zext64 (s.ctx c).desc <<< 6) ||| zext64 (bit (s.ctx c).live)
  | .pcfg p =>
    let x := s.prism p
    (zext64 x.detl <<< 16) ||| BitVec.ofNat 64 ((if x.pin || s.holdsFixt p then 4 else 0) + x.state.code)
  | .sown p i => zext64 (kget 0 (s.prism p).sown i)
  | .slice sl off =>
    let x := s.slice sl
    match off with
    | 0x00 => (zext64 x.flow <<< 16) ||| zext64 x.tpool
    | 0x08 => zext64 x.sfrb <<< 16
    | 0x10 => zext64 x.sfrs <<< 16
    | 0x20 => zext64 x.mgva <<< 16
    | 0x28 => zext64 x.mgpa <<< 16
    | 0x38 => (zext64 x.mgerr <<< 8) ||| zext64 x.mgst
    | _ => 0
  | .ti k off =>
    let x := s.core k
    match off with
    | 0x00 => zext64 x.tiva <<< 16
    | 0x10 => BitVec.ofNat 64 ((if x.tiErr then 2 else 0) + (if x.tiWork.isSome then 1 else 0))
    | _ => 0
  | .wfwd p => zext64 (kget 0 s.wfwd p)
  | .hint | .none => 0

/-- A read of the register space by control core k at level 1: none is ACCESS. -/
def State.regRead (s : State) (k pa bytes : Nat) : Option Word :=
  if bytes ≠ 8 ∨ pa % 8 ≠ 0 ∨ !s.regMine k (regAt pa) then none else some (s.regValue (regAt pa))

/-- HINT (R437): none where the queue is not one of the core's partition. -/
def State.hintWrite (s : State) (k q : Nat) : Option State :=
  if 64 ≤ q then some s else if s.queueOf k q then some (s.raiseMsix q) else none

/-- HINT, R437. -/
def execHint (k q : Nat) (σ : State) : Out := .next (if σ.supervises k then (σ.hintWrite k q).getD σ else σ)

/-- A write of a register of a slice. -/
def State.sliceRegWrite (s : State) (sl off : Nat) (v : Word) : State :=
  match off with
  | 0x00 => s.scfgWrite sl v
  | 0x08 => s.sfrWrite sl false v
  | 0x10 => s.sfrWrite sl true v
  | 0x20 => s.modSlice sl fun x => { x with mgva := v.extractLsb' 16 48 }
  | 0x28 => s.modSlice sl fun x => { x with mgpa := v.extractLsb' 16 48 }
  | 0x30 =>
    (match fieldAt v 8 2 with
      | 1 => s.movePage sl (fieldAt v 0 6)
      | 2 => s.moveArea sl
      | 3 => s.moveHome sl (fieldAt v 16 9)
      | _ => s)
  | _ => s

/-- A write of a register of the invalidation block of core k. -/
def State.tiWrite (s : State) (k off : Nat) (v : Word) : State :=
  match off with
  | 0x00 => s.modCore k fun x => { x with tiva := v.extractLsb' 16 48 }
  | 0x08 => s.tictl k (fieldAt v 16 2) (fieldAt v 0 6) (fieldAt v 18 2)
  | 0x10 => s.modCore k fun x => { x with tiErr := x.tiErr && !bitAt v 1 }
  | _ => s

/-- A write of the register space by control core k at level 1: none is ACCESS. -/
def State.regWrite (s : State) (k pa bytes : Nat) (v : Word) : Option State :=
  if bytes ≠ 8 ∨ pa % 8 ≠ 0 ∨ !s.regMine k (regAt pa) then none
  else match regAt pa with
    | .part _ _ | .none => some s
    | .qmap q => some (s.qmapWrite q v)
    | .nqpend j => some { s with nqpend := kset j (kget 0 s.nqpend j &&& ~~~v) s.nqpend }
    | .ctxt c => some (if bitAt v 0 then s.ctxtSet k c v else s.ctxtClear c v)
    | .pcfg p => some (s.pcfgWrite p v)
    | .sown p i => some (if i < 128 then s.modPrism p fun x => { x with sown := kput 0 i (sownStored v) x.sown } else s)
    | .slice sl off => some (s.sliceRegWrite sl off v)
    | .ti j off => some (s.tiWrite j off v)
    | .hint => s.hintWrite k v.toNat
    | .wfwd p => some { s with wfwd := kput 0 p (v.setWidth 32) s.wfwd }

/-- REGISTER_WRITE, R363. -/
def execRegisterWrite (k pa : Nat) (v : Word) (σ : State) : Out :=
  .next (if σ.supervises k ∧ isRegister pa then (σ.regWrite k pa 8 v).getD σ else σ)

end Sys2Proof.Machine
end

