-- ==== Sys2Proof/Machine/Memory.lean ====
section
/-! DEFINITION. Global memory instructions (R228 to R233, R237 to R241, R304) and the steps of a request at its home slice: acceptance,
data return, atomics, deterministic batches (R113 to R117), reduction lines (R118), SC windows (R132, R133), poison (R231, R454), and the
limits of waits (R77). -/

namespace Sys2Proof.Machine

/-! Order of a slot's own accesses (R126). -/


/-- An SC operation of an agent has not been performed: younger accesses wait for it (R133). -/
def State.scPending (s : State) (a : Agent) : Bool := s.reqs.any fun (_, r) => r.who == a && r.op.isSc

/-- The fence that an SC operation is placed behind (R133): earlier SC operations are ordered by their windows. -/
def State.scRelease (s : State) (a : Agent) : Option State :=
  let plain := s.reqs.any fun (_, r) => r.who == a && r.op.fenced && !r.op.isSc
  if plain then none
  else match a with
    | .slot f _ => (s.flushPrism (prismOf f)).map fun s => s.forget (prismOf f)
    | _ => some s

/-! Physical accesses of a control core at level 1 (R362, R384). -/

/-- k bytes of HBM at a physical address: value, taint, poison. -/
def State.physRead (s : State) (pa k : Nat) : Got :=
  { bytes := readBytes s.mem pa k, taint := s.memT.contains (pa / 32), poison := s.memP.contains (pa / 64) }

/-- Bytes stored to HBM at a physical address. -/
def State.physWrite (s : State) (pa : Nat) (b : List Byte) (taint : Bool) : State :=
  s.hbmMerge (pa / 512) (placed (pa % 512) b) (span (pa % 512) b.length) (if taint then BitVec.allOnes 16 else 0) 0

/-- A physical access of core k to an address: its checks, then a register, or HBM. -/
def physAccess (σ : State) (k : Nat) (va : Word) (reg hbm : Nat → Out) : Out :=
  match σ.physOf va with
  | none => faultOut σ cNOMAP va
  | some pa =>
    if isRegister pa then reg pa
    else if !σ.mayTouch (σ.core k).wld pa then faultOut σ cACCESS va
    else hbm pa

/-! Loads (R232). -/

/-- A loaded value reaches its register, or a poison mark does (R231, R232). -/
def Thread.loaded (th : Thread) (t : LdTyp) (d : BitVec 5) (g : Got) (m : Mark) : Thread :=
  if g.poison then (th.wx d 0 false).mark d m
  else th.wx d (extendBytes (ldSigned t) (ldBytes t) (ofBytes g.bytes)) g.taint

/-- A prism's own update-only line is merged before its facets load or store it (R118). -/
def State.mergeOwn (s : State) (f c : Nat) (va : Word) : Option State :=
  let k := s.lineKey c va
  if (s.prismLine (prismOf f) k).upd.isSome then s.writeBackLine (prismOf f) k else some s

/-- A global load of a slot after its alignment check. -/
def loadSlot (σ : State) (th : Thread) (f n c : Nat) (va : Word) (t : LdTyp) (d : BitVec 5) : Out :=
  let k := ldBytes t
  counted σ (σ.slot f n).cnt.ld <|
    if σ.ownOver σ.turn va k ∨ σ.scPending σ.turn then stall σ clFENCE
    else watched σ [{ local' := false, base := va.toNat, len := k, rd := true }] fun σ =>
      match σ.mergeOwn f c va with
      | none => stall σ clACCEPT
      | some σ =>
        match σ.cached (prismOf f) c va k false, σ.prismRead (prismOf f) c va k with
        | true, some g => retire σ (th.loaded t d g { pc := th.pc, addr := va })
        | _, _ => send σ va (.load d t) Counts.addLd

/-- LD, R232. -/
def execLd (i : BitVec 12) (a : BitVec 5) (t : LdTyp) (d : BitVec 5) (σ : State) : Out :=
  issue σ { reads := [a], writes := [d] } fun th =>
    let va := th.rx a + imm12 i
    if va.toNat % ldBytes t ≠ 0 then faultOut σ cALIGN va
    else match σ.turn, σ.spaceOf σ.turn with
      | .slot f n, .ctx c => loadSlot σ th f n c va t d
      | .core k, .phys =>
        physAccess σ k va
          (fun pa => match σ.regRead k pa (ldBytes t) with
            | some v => retire σ (th.wx d v false)
            | none => faultOut σ cACCESS va)
          fun pa => retire σ (th.loaded t d (σ.physRead pa (ldBytes t)) { pc := th.pc, addr := va })
      | .core k, .ctx _ =>
        counted σ (σ.core k).cnt.ld <|
          if σ.ownOver σ.turn va (ldBytes t) ∨ σ.scPending σ.turn then stall σ clFENCE else send σ va (.load d t) Counts.addLd
      | _, _ => faultOut σ cNOMAP va

/-! Stores (R233). -/

/-- A store's bytes enter the prism cache of a facet: none while a write-back has to wait. -/
def State.storeIn (s : State) (f c : Nat) (va : Word) (k : Nat) (v : Word) (t : Bool) : Option State :=
  s.prismWrite f c va (toBytes k v.toNat) t

/-- A global store of a slot after its alignment check. -/
def storeSlot (σ : State) (th : Thread) (f n c : Nat) (va : Word) (k : Nat) (b : BitVec 5) : Out :=
  counted σ (σ.slot f n).cnt.st <|
    if σ.ownOver σ.turn va k ∨ σ.storing σ.turn ∨ σ.scPending σ.turn then stall σ clFENCE
    else watched σ [{ local' := false, base := va.toNat, len := k, wr := true }] fun σ =>
      if σ.cached (prismOf f) c va k true then
        match σ.storeIn f c va k (th.rx b) (th.tx b) with
        | none => stall σ clACCEPT
        | some σ => retire σ th
      else send σ va (.store k (th.rx b) (th.tx b)) Counts.addSt

/-- ST, R233. -/
def execSt (i : BitVec 12) (b a : BitVec 5) (t : StTyp) (σ : State) : Out :=
  issue σ { reads := [a, b] } fun th =>
    let va := th.rx a + imm12 i
    let k := stBytes t
    if va.toNat % k ≠ 0 then faultOut σ cALIGN va
    else match σ.turn, σ.spaceOf σ.turn with
      | .slot f n, .ctx c => storeSlot σ th f n c va k b
      | .core j, .phys =>
        physAccess σ j va
          (fun pa => match σ.regWrite j pa k (th.rx b) with
            | some σ => retire σ th
            | none => faultOut σ cACCESS va)
          fun pa => retire (σ.physWrite pa (toBytes k (th.rx b).toNat) (th.tx b)) th
      | .core j, .ctx _ =>
        counted σ (σ.core j).cnt.st <|
          if σ.ownOver σ.turn va k ∨ σ.scPending σ.turn then stall σ clFENCE else send σ va (.store k (th.rx b) (th.tx b)) Counts.addSt
      | _, _ => faultOut σ cNOMAP va

/-! Fences (R237). -/

/-- FENCE_REL, R237. -/
def execFenceRel (s : Scope) (σ : State) : Out :=
  issue σ {} fun t =>
    match σ.release σ.turn (wideScope s) with
    | none => stall σ clFENCE
    | some σ => retire σ t

/-- FENCE_ACQ, R237. -/
def execFenceAcq (s : Scope) (σ : State) : Out :=
  issue σ {} fun t =>
    match σ.acquire σ.turn (wideScope s) with
    | none => stall σ clFENCE
    | some σ => retire σ t

/-- FENCE_FULL, R237. -/
def execFenceFull (s : Scope) (σ : State) : Out :=
  issue σ {} fun t =>
    match σ.release σ.turn (wideScope s) with
    | none => stall σ clFENCE
    | some σ => retire (σ.refresh σ.turn (wideScope s)) t

/-! Atomics (R112, R113, R238 to R241). -/

/-- The new value at a target, with its taint: a relaxed floating-point atomic that writes taints (R240). -/
def amWrite (op : Nat) (t : AmTyp) (f : AmForm) (old : Nat) (v cmp : Word) (vt : Bool) : List Byte × Bool :=
  (toBytes (amBytes t) (amNew op t old v.toNat cmp.toNat), vt || (!t.isInt && f != .sc && f != .d))

/-- An atomic of a control core on a physical address: one step at HBM. -/
def amoPhys (σ : State) (th : Thread) (k : Nat) (va : Word) (op : Nat) (f : AmForm) (t : AmTyp) (v cmp : Word) (vt : Bool)
    (d : BitVec 5) : Out :=
  physAccess σ k va (fun _ => faultOut σ cACCESS va) fun pa =>
    let g := σ.physRead pa (amBytes t)
    if g.poison ∧ op ≠ opStore then
      (if d = 0 ∧ op ≠ opLoad then retire (σ.lateReportTo (.core k) σ.nextId { cause := cPOISON, pc := th.pc, addr := va }) th
       else retire σ ((th.wx d 0 false).mark d { pc := th.pc, addr := va }))
    else
      let old := ofBytes g.bytes
      let (b, taint) := amWrite op t f old v cmp vt
      retire (if op = opLoad then σ else σ.physWrite pa b taint) (if op = opStore then th else th.wx d (amResult t old) g.taint)

/-- The sequence number of the next ".d" atomic of a slot: of its task lane in a DET context, of the slot otherwise (R113). -/
def State.detSeq (s : State) (f n c seq : Nat) : Nat :=
  if s.isDet c seq then (((s.facet f).laneSeq.find? fun k => k.1 == (n, c, seq)).map (·.2)).getD 0 else (s.slot f n).seqNo

/-- A slot has made one more ".d" atomic. -/
def State.countDet (s : State) (f n c seq : Nat) : State :=
  let k := s.detSeq f n c seq + 1
  if s.isDet c seq then
    s.modFacet f fun x => { x with laneSeq := x.laneSeq.filter (fun e => e.1 != (n, c, seq)) ++ [((n, c, seq), k)] }
  else s.modSlot f n fun x => { x with seqNo := k }

/-- The count that an atomic joins (R190). -/
def amJoin (op : Nat) (d : BitVec 5) (c : Counts) : Counts :=
  if op = opLoad then c.addLd else if op = opStore ∨ d = 0 then c.addSt else c
def amCount (op : Nat) (d : BitVec 5) (c : Counts) : Nat := if op = opLoad then c.ld else if op = opStore ∨ d = 0 then c.st else 0

/-- The dirty bytes that a facet's prism has of the target sectors of an atomic are written back before it is sent (R112), or their
write-back waits at the slice and the atomic comes behind it (R87, R115); none while neither can be. -/
def State.flushTarget (s : State) (p c : Nat) (va : Word) (n : Nat) : Option State :=
  let k := s.lineKey c va
  let off := va.toNat % 512
  let lo := off / 32 * 32
  match s.writeBackPart p k (span lo ((off + n + 31) / 32 * 32 - lo)) with
  | some s => some s
  | none =>
    let s := s.askLine p k
    if s.reqs.any fun (_, r) => r.op == .writeBack p k then some s else none

/-- A global atomic of an agent in a context: the facet's dirty bytes of the target are written back, an SC form is announced behind its
fence, and the request is sent. -/
def amoSend (σ : State) (va : Word) (op : Nat) (t : AmTyp) (f : AmForm) (v cmp : Word) (vt : Bool) (d : BitVec 5) (c : Nat)
    (key : BitVec 64) : Out :=
  let flushed : Option State := match σ.turn with
    | .slot g _ => σ.flushTarget (prismOf g) c va (amBytes t)
    | _ => some σ
  match flushed with
  | none => stall σ clACCEPT
  | some σ =>
    if f = .sc then
      match σ.scRelease σ.turn with
      | none => stall σ clFENCE
      | some σ =>
        let w := σ.tick / 64
        let σ := { σ with scOpen := sadd w σ.scOpen }
        send σ va (.atomic op t f v cmp vt d (BitVec.ofNat 64 w)) (amJoin op d)
    else send σ va (.atomic op t f v cmp vt d key) (amJoin op d)

/-- An AMO instruction. A ".d" form that is both misaligned and past its last sequence number faults with ALIGN: the reference gives the two
checks no order (log 60). -/
def amoOp (σ : State) (op : Nat) (f : AmForm) (b a : BitVec 5) (t : AmTyp) (d : BitVec 5) : Out :=
  let rs := [a] ++ (if op = opLoad then [] else [b]) ++ (if op = opCas then [d] else [])
  issue σ { handler := f != .d, core := f != .d, reads := rs, writes := if op = opStore then [] else [d] } fun th =>
    let va := th.rx a
    let k := amBytes t
    let v := th.rx b
    let cmp := th.rx d
    let vt := op != opLoad && (th.tx b || (op == opCas && th.tx d))
    if va.toNat % k ≠ 0 then faultOut σ cALIGN va
    else match σ.turn, σ.spaceOf σ.turn with
      | .core j, .phys => amoPhys σ th j va op f t v cmp vt d
      | .slot g n, .ctx c =>
        let seq := ((σ.slot g n).owner.map Prod.snd).getD 0
        let no := σ.detSeq g n c seq
        if f = .d ∧ 65536 ≤ no then faultOut σ cILLEGAL
        else counted σ (amCount op d (σ.slot g n).cnt) <|
          if σ.ownOver σ.turn va k ∨ (f ≠ .sc ∧ σ.scPending σ.turn) then stall σ clFENCE
          else watched σ [{ local' := false, base := va.toNat, len := k, rd := op != opStore, wr := op != opLoad }] fun σ =>
            amoSend σ va op t f v cmp vt d c ((σ.slot g n).ord ++ BitVec.ofNat 16 no)
      | .core j, .ctx c =>
        counted σ (amCount op d (σ.core j).cnt) <|
          if σ.ownOver σ.turn va k ∨ (f ≠ .sc ∧ σ.scPending σ.turn) then stall σ clFENCE else amoSend σ va op t f v cmp vt d c 0
      | _, _ => faultOut σ cNOMAP va

/-- AMSWAP, R238. -/
def execAmswap (f : AmForm) (b a : BitVec 5) (t : AmTyp) (d : BitVec 5) (σ : State) : Out := amoOp σ opSwap f b a t d
/-- AMCAS, R238. -/
def execAmcas (f : AmForm) (b a : BitVec 5) (t : AmTyp) (d : BitVec 5) (σ : State) : Out := amoOp σ opCas f b a t d
/-- AMADD, R238. -/
def execAmadd (f : AmForm) (b a : BitVec 5) (t : AmTyp) (d : BitVec 5) (σ : State) : Out := amoOp σ opAdd f b a t d
/-- AMMIN, R238. -/
def execAmmin (f : AmForm) (b a : BitVec 5) (t : AmTyp) (d : BitVec 5) (σ : State) : Out := amoOp σ opMin f b a t d
/-- AMMAX, R238. -/
def execAmmax (f : AmForm) (b a : BitVec 5) (t : AmTyp) (d : BitVec 5) (σ : State) : Out := amoOp σ opMax f b a t d
/-- AMAND, R238. -/
def execAmand (f : AmForm) (b a : BitVec 5) (t : AmTyp) (d : BitVec 5) (σ : State) : Out := amoOp σ opAnd f b a t d
/-- AMOR, R238. -/
def execAmor (f : AmForm) (b a : BitVec 5) (t : AmTyp) (d : BitVec 5) (σ : State) : Out := amoOp σ opOr f b a t d
/-- AMXOR, R238. -/
def execAmxor (f : AmForm) (b a : BitVec 5) (t : AmTyp) (d : BitVec 5) (σ : State) : Out := amoOp σ opXor f b a t d
/-- LDSC, R238. -/
def execLdsc (b a : BitVec 5) (t : AmTyp) (d : BitVec 5) (σ : State) : Out := amoOp σ opLoad .sc b a t d
/-- STSC, R238. -/
def execStsc (b a : BitVec 5) (t : AmTyp) (d : BitVec 5) (σ : State) : Out := amoOp σ opStore .sc b a t d

/-- JOIN, R304. -/
def execJoin (a d : BitVec 5) (σ : State) : Out :=
  issue σ { core := false, handler := false, reads := [a], writes := [d] } fun th =>
    onSlot σ fun f n sl =>
      let va := th.rx a
      if va.toNat % 64 ≠ 0 then faultOut σ cALIGN va
      else counted σ (if d = 0 then sl.cnt.st else 0) <|
        watched σ [{ local' := false, base := va.toNat, len := 8, rd := true, wr := true }] fun σ =>
          match σ.release (.slot f n) true with
          | none => stall σ clFENCE
          | some σ => send σ va (.join d) fun k => if d = 0 then k.addSt else k

/-! What an atomic does at its home slice, and its end (R239, R454). -/

/-- Whether an atomic's instruction waits until it has been applied (R228). -/
def ReqOp.lateRetire : ReqOp → Bool
  | .atomic op _ f _ _ _ _ _ => f == .sc && (op == opLoad || op == opStore)
  | _ => false

/-- The clean bytes of an atomic's target in the prism of its slot are older than what it has read or written there, and are given up
(R122). -/
def State.dropTarget (s : State) (r : Req) : State :=
  match r.who with
  | .slot f _ => s.dropClean (prismOf f) (s.lineKey r.ctx r.va) (span (r.va.toNat % 512) r.op.size)
  | _ => s

/-- The end of an atomic for its agent: a result for X[d], or POISON (R454). An LDSC with d = 0 makes no late report: the reference names
every LDSC for the mark and every SC atomic with d = 0 but STSC for the report, and a mark on x0 is none (log 61). -/
def State.endAtomic (s : State) (id : Nat) (r : Req) (res : Option (Word × Bool)) : State :=
  let s := s.dropTarget r
  let d := r.op.dest
  let load := match r.op with | .atomic op _ _ _ _ _ _ _ => op == opLoad | _ => false
  let write := fun (t : Thread) => match res with
    | some (v, taint) => (t.await d false).wx d v taint
    | none => ((t.await d false).wx d 0 false).mark d { pc := r.pc, addr := r.va }
  let s := if r.op.lateRetire then s.acceptReq id write else s.modThread r.who write
  if res.isNone ∧ d = 0 ∧ !load then s.lateReq id cPOISON else s.endReq id

/-- A relaxed or SC atomic is applied, as one indivisible step. -/
def State.applyAtomic (s : State) (sl id : Nat) (r : Req) (pa : Nat) (leaf : Word) : State :=
  match r.op with
  | .atomic op t f v cmp vt _ _ =>
    let (g, s) := s.sliceRead sl pa (amBytes t) (leafDir leaf)
    if g.poison ∧ op ≠ opStore then s.endAtomic id r none
    else
      let old := ofBytes g.bytes
      let (b, taint) := amWrite op t f old v cmp vt
      let s := if op = opLoad then s else s.sliceWrite sl pa b taint (leafDir leaf)
      s.endAtomic id r (some (amResult t old, g.taint))
  | _ => s

/-- An atomic or a JOIN that an internal step applies at this device. -/
def appliedBy : Instr → Option Nat
  | .atomicApply j _ | .joinDecrement j _ => some j
  | _ => none

/-- An atomic or a JOIN that arrived at the slice before a request, and touches bytes of its target, is still to be applied (R112, R304). -/
def State.applyAhead (s : State) (id : Nat) (r : Req) : Bool :=
  (s.due.takeWhile fun i => appliedBy i != some id).any fun i => match (appliedBy i).bind s.req with
    | some q => overlaps (s.canon q.va) q.op.size (s.canon r.va) r.op.size
    | none => false

/-- ATOMIC_APPLY, R239. -/
def execAtomicApply (id : Nat) (ans : Answer) (σ : State) : Out :=
  .next (if ((σ.req id).map (σ.applyAhead id)).getD false then σ
    else let σ := σ.done (.atomicApply id noAnswer)
    match σ.req id with
    | none => σ
    | some r =>
      match r.stage, r.op, σ.whereIs r.va with
      | .accepted pa leaf, .atomic _ _ _ _ _ _ _ _, .here =>
        (match σ.home r.ctx r.va with
          | some sl => σ.applyAtomic sl id r pa leaf
          | none => σ)
      | .accepted _ _, .atomic _ t _ _ _ _ _ _, .device _ | .inWindow _ _ _, .atomic _ t _ _ _ _ _ _, .device _ =>
        σ.endAtomic id r (if ans.poison then none else some (amResult t (ofBytes ans.data), ans.taint))
      | _, _, _ => σ)

/-! JOIN at its home slice (R58, R304). -/

/-- The request is one of a thread of another device. -/
def State.foreign (s : State) (r : Req) : Bool := match r.who with | .peer t => t / 32768 != s.dev | _ => false

/-- The parent record of a join block joins its queue; that of a JOIN from another device goes back there with the answer. -/
def State.joinRecord (s : State) (id : Nat) (r : Req) (b : List Byte) : State :=
  let field := fun (o : Nat) => BitVec.ofNat 64 (fieldOf b o 8)
  let ord := fieldOf b 24 8
  if s.foreign r then s
  else match s.entry r.ctx r.seq with
  | none => s
  | some e =>
    if ord < e.hdr.total then
      let k : Cont := { c := r.ctx, seq := r.seq, code := field 0, frame := field 8, jaddr := field 16, ord := ord }
      s.joinCont ((e.prismOf ord).getD 0) k
    else s.lateReportTo r.who id { cause := cILLEGAL, pc := r.pc, addr := r.va }

/-- The decrement, as one indivisible step. -/
def State.applyJoin (s : State) (sl id : Nat) (r : Req) (pa : Nat) (leaf : Word) : State :=
  let (g, s) := s.sliceRead sl pa 8 (leafDir leaf)
  if g.poison then s.endAtomic id r none
  else
    let c : Word := BitVec.ofNat 64 (ofBytes g.bytes) - 1
    let s := s.sliceWrite sl pa (toBytes 8 c.toNat) false (leafDir leaf)
    let (rec', s) := s.sliceRead sl (pa + 32) 32 (leafDir leaf)
    let s := if c = 0 then s.joinRecord id r rec'.bytes else s
    s.endAtomic id r (some (c, g.taint))

/-- JOIN_DECREMENT, R304. -/
def execJoinDecrement (id : Nat) (ans : Answer) (σ : State) : Out :=
  .next (if ((σ.req id).map (σ.applyAhead id)).getD false then σ
    else let σ := σ.done (.joinDecrement id noAnswer)
    match σ.req id with
    | none => σ
    | some r =>
      match r.stage, r.op, σ.whereIs r.va with
      | .accepted pa leaf, .join _, .here =>
        (match σ.home r.ctx r.va with
          | some sl => σ.applyJoin sl id r pa leaf
          | none => σ)
      | .accepted _ _, .join _, .device _ =>
        if ans.poison then σ.endAtomic id r none
        else
          let c : Word := BitVec.ofNat 64 (ofBytes (ans.data.take 8)) - 1
          let σ := if c = 0 then σ.joinRecord id r ((ans.data.drop 8).take 32) else σ
          σ.endAtomic id r (some (c, ans.taint))
      | _, _, _ => σ)

/-! Deterministic atomics (R113 to R117). -/

/-- A ".d" atomic is placed in the holding buffer, behind what the prisms hold for its line (R118): it retires and leaves ST; it parks
while a full buffer cannot be written out. Records of equal keys are ordered by their arrival here (R113). -/
def State.placeD (s : State) (sl id : Nat) (r : Req) (pa : Nat) (leaf : Word) : State :=
  match r.op with
  | .atomic op t _ v _ _ _ key =>
    match (s.recall r.ctx r.va (amBytes t)).makeHold sl with
    | none => s.parkAt sl id r .onOverflow
    | some s =>
      let d : DRec := { dev := s.devOf r.who, c := r.ctx, seq := r.seq, va := r.va, key := key, no := s.nextId, pa := pa, dir := leafDir leaf,
                        op := op, t := t, v := v }
      let s := { s.leaveWaiters sl id with nextId := s.nextId + 1 }
      let s := s.modSlice sl fun y => { y with hold := insertD d y.hold }
      let s : State := match r.who with | .slot f n => s.countDet f n r.ctx r.seq | _ => s
      (s.acceptReq id).endReq id
  | _ => s

/-- HOLDING_BUFFER_RECORD, R114. -/
def execHoldingBufferRecord (id : Nat) (σ : State) : Out :=
  .next (let σ := σ.done (.holdingBufferRecord id)
    match σ.req id with
    | none => σ
    | some r =>
      match r.stage, σ.home r.ctx r.va with
      | .accepted pa leaf, some sl => σ.placeD sl id r pa leaf
      | _, _ => σ)

/-- One update of a batch (R114, R454): rounded RNE, no taint of its own; a tie of keys taints its sector; a poisoned target discards
it. Partial results of the line are recalled first (R118), and the prisms give up their clean bytes of the target, so that entries
after the batch see it (R143). -/
def State.updateD (s : State) (sl : Nat) (tie : Bool) (r : DRec) : State :=
  let s := s.recall r.c r.va (amBytes r.t)
  let (g, s) := s.sliceRead sl r.pa (amBytes r.t) r.dir
  if g.poison then s
  else
    let s := s.sliceWrite sl r.pa (amWrite r.op r.t .d (ofBytes g.bytes) r.v 0 tie).1 (tie || g.taint) r.dir
    s.prisms.foldl (fun s (p, _) => s.dropClean p (s.lineKey r.c r.va) (span (r.va.toNat % 512) (amBytes r.t))) s

/-- BATCH_CLOSE, R114. -/
def execBatchClose (sl c seq : Nat) (σ : State) : Out :=
  σ.whenDue (.batchClose sl c seq) fun σ =>
    let all := sortD ((σ.slice sl).records.filter (·.ofEntry c seq))
    let σ := σ.modSlice sl fun x => x.without c seq
    let σ : State := all.foldl (fun σ r => σ.updateD sl (1 < (all.filter fun q => q.key == r.key).length) r) σ
    let σ := σ.retryHeldD
    let σ := σ.modEntry c seq fun e => { e with closeAt := e.closeAt.filter (· != sl) }
    match σ.entry c seq with
    | some e => if e.closing && e.closeAt.isEmpty && e.closeDevs.isEmpty then σ.pushDue (.entryComplete c seq) else σ
    | none => σ

/-! Reduction lines (R118). -/

/-- A partial result joins an update-only line. -/
def addUpdate (op : Nat) (t : AmTyp) (off : Nat) (v : Word) (vt : Bool) : List (Nat × Word × Bool) → List (Nat × Word × Bool)
  | [] => [(off, v, vt)]
  | (o, w, wt) :: l =>
    if o = off then (o, BitVec.ofNat 64 (amNew op t w.toNat v.toNat 0), wt || vt) :: l else (o, w, wt) :: addUpdate op t off v vt l

/-- A ".r" atomic of a facet is held in its prism's cache: a line of another operation or type, and bytes the line holds, are written
back first; none while that has to wait. -/
def State.holdUpdate (s : State) (f c : Nat) (va : Word) (op : Nat) (t : AmTyp) (v : Word) (vt : Bool) : Option State :=
  let p := prismOf f
  let k := s.lineKey c va
  let off := va.toNat % 512
  let v := BitVec.ofNat 64 (v.toNat % 2 ^ (8 * amBytes t))
  let put := fun (s : State) (us : List (Nat × Word × Bool)) =>
    s.setPrismLine p k { s.prismLine p k with valid := 0, dirty := 0, rd := false, wr := false, ctx := c, upd := some (op, t, us) }
  match (s.prismLine p k).upd with
  | some (op', t', us) =>
    if op' = op ∧ t' = t then some (put s (addUpdate op t off v vt us))
    else (s.writeBackLine p k).map fun s => put s [(off, v, vt)]
  | none => ((s.writeBackLine p k).bind fun s => s.makeRoom p k).map fun s => put s [(off, v, vt)]

/-- REDUCTION_LINE_MERGE, R118. -/
def execReductionLineMerge (p asn line : Nat) (σ : State) : Out :=
  .next ((σ.done (.reductionLineMerge p asn line)).mergeUpdLine p (asn * 2 ^ 55 + line))

/-- WRITE_BACK, R80: a line of a prism's cache is written back and evicted, with its permissions (R228), or its write-back waits at the
slice; a slice's line is written to HBM and given up. -/
def execWriteBack (t : WbTarget) (σ : State) : Out :=
  .next (let σ := σ.done (.writeBack t)
    match t with
    | .prism p asn line =>
      let k := asn * 2 ^ 55 + line
      (match σ.writeBackLine p k with
        | some σ => σ.dropLine p k
        | none => σ.askLine p k)
    | .slice sl line => σ.sliceEvict sl line)

/-- A slice may prefetch a line: one of a page it translates and whose home for that line it is, that keeps lines, is not VERSIONED and does
not suppress prefetch (R84, R119). -/
def State.mayPrefetch (s : State) (sl pa : Nat) : Bool :=
  (s.slice sl).tlb.any fun e =>
    let base := fieldAt e.leaf 16 28 * 65536
    base ≤ pa && pa < base + e.size && !leafVer e.leaf && !leafDir e.leaf && !leafNoPrefetch e.leaf &&
      s.ctxs.any fun (c, x) => x.d.asn == e.asn && s.home c (BitVec.ofNat 64 (e.base + (pa - base))) == some sl

/-- PREFETCH, R119. -/
def execPrefetch (sl pa : Nat) (σ : State) : Out :=
  .next (let σ := σ.done (.prefetch sl pa)
    if σ.mayPrefetch sl pa then (σ.sliceRead sl (pa / 512 * 512) 512 false).2 else σ)

/-! Acceptance (R228, R229). -/

/-- What a request needs of its page (R389). -/
def ReqOp.access : ReqOp → Access
  | .load _ _ | .vload _ _ _ | .probe _ _ | .piece _ _ _ | .port false _ => .read
  | .store _ _ _ | .vstore _ _ | .writeBack _ _ | .record _ | .port true _ => .write
  | .fetch => .fetch
  | .atomic o _ _ _ _ _ _ _ => if o = opLoad then .read else if o = opStore then .write else .both
  | .join _ => .both
  | .vget _ _ _ _ | .vretain _ | .vquery _ _ | .vhold _ => .verRead
  | _ => .verWrite

/-- A versioned instruction's request. -/
def ReqOp.versioned (o : ReqOp) : Bool := o.access == .verRead || o.access == .verWrite

/-- The blocks of a page's grain that hold k bytes at an address are fetched into a line of a prism, which records the permission (R80,
R228); bytes with pending ".d" updates are not fetched. -/
def State.fillBlock (s : State) (p c : Nat) (va : Word) (k sl pa : Nat) (leaf : Word) : State :=
  let g := leafGrain leaf
  let ln := pa / 512
  let off := pa % 512 / g * g
  let n := (pa % 512 + k + g - 1) / g * g - off
  let dir := leafDir leaf
  let m := (s.slice sl).records.foldl (fun m r => if r.pa / 512 = ln then m &&& ~~~span (r.pa % 512) (amBytes r.t) else m) (span off n)
  let h := if dir then s.hbmLine ln off n else s.sliceLine sl ln off n
  (s.sliceRead sl (ln * 512 + off) n dir).2.prismFill p c (s.lineKey c va) h.data m h.taint h.poison (!leafPrivate leaf)

/-- A store's permission is recorded in a line (R228), where its set has a way for it. -/
def State.grantWrite (s : State) (p c : Nat) (va : Word) (leaf : Word) : State :=
  let k := s.lineKey c va
  match s.makeRoom p k with
  | none => s
  | some s => s.setPrismLine p k { s.prismLine p k with wr := true, shared := !leafPrivate leaf, ctx := c }

/-- The bytes that a slot reads: a valid byte of its prism's cache, or the home slice's (R127). -/
def State.mixed (s : State) (p c : Nat) (va : Word) (g : Got) : Got :=
  match s.prismRead p c va g.bytes.length with
  | some q => q
  | none =>
    let at' := fun (i : Nat) => s.prismRead p c (va + BitVec.ofNat 64 i) 1
    let has := fun (f : Got → Bool) => (List.range g.bytes.length).any fun i => ((at' i).map f).getD false
    { bytes := g.bytes.zipIdx.map fun (b, i) => ((at' i).bind fun q => q.bytes[0]?).getD b,
      taint := g.taint || has (·.taint), poison := g.poison || has (·.poison) }

/-- The data of a load on its way back. -/
def gotAnswer (g : Got) : Answer := { cause := none, data := g.bytes, taint := g.taint, poison := g.poison }

/-- A scalar load is accepted: it retires, its register interlocked, and its data, which are read now (log 51), follow. -/
def State.acceptLoad (s : State) (sl id : Nat) (r : Req) (d : BitVec 5) (k pa : Nat) (leaf : Word) : State :=
  let s := s.recall r.ctx r.va k
  let (g, s) := s.sliceRead sl pa k (leafDir leaf)
  match r.who with
  | .peer _ => s.endReq id
  | who =>
    let (g, s) : Got × State := match who with
      | .slot f _ =>
        let s := s.fillBlock (prismOf f) r.ctx r.va k sl pa leaf
        (s.mixed (prismOf f) r.ctx r.va g, s)
      | _ => (g, s)
    let s := (s.acceptReq id fun t => t.await d true).setReq id { r with stage := .returning }
    s.pushDue (.loadDataReturn id (gotAnswer g))

/-- A scalar store is accepted: it retires and enters the prism cache, or the home slice where it has none. -/
def State.acceptStore (s : State) (sl id : Nat) (r : Req) (k : Nat) (v : Word) (t : Bool) (pa : Nat) (leaf : Word) : State :=
  match r.who with
  | .slot f _ =>
    (match s.storeIn f r.ctx r.va k v t with
      | some s => ((s.grantWrite (prismOf f) r.ctx r.va leaf).acceptReq id).endReq id
      | none => s.inTicks 1 (.acceptance id noAnswer))
  | _ => (((s.recall r.ctx r.va k).sliceWrite sl pa (toBytes k v.toNat) t (leafDir leaf)).acceptReq id).endReq id

/-- The window of an SC request, which it carries in its key. -/
def ReqOp.window : ReqOp → Nat
  | .atomic _ _ _ _ _ _ _ key => key.toNat
  | _ => 0

/-- A slot or core waits for its SC window. -/
def State.waitWindow (s : State) (id : Nat) (r : Req) : State :=
  match r.who with
  | .slot f n => s.parkAs f n .sc r.va (some id) none
  | _ => s

/-- An atomic of a context is accepted. -/
def State.acceptAtomic (s : State) (id : Nat) (r : Req) (pa : Nat) (leaf : Word) : State :=
  match r.op with
  | .atomic op t f v _ vt d _ =>
    match f with
    | .d => (s.setReq id { r with stage := .accepted pa leaf }).pushFirst (.holdingBufferRecord id)
    | .sc =>
      let s := s.recall r.ctx r.va (amBytes t)
      let s := if r.op.lateRetire then s.waitWindow id r else s.acceptReq id fun th => th.await d true
      s.setReq id { r with stage := .inWindow r.op.window pa leaf }
    | _ =>
      let apply := fun (s : State) =>
        let s := (s.recall r.ctx r.va (amBytes t)).acceptReq id fun th => th.await d true
        (s.setReq id { r with stage := .accepted pa leaf }).pushDue (.atomicApply id noAnswer)
      match f, r.who with
      | .r, .slot g _ =>
        if leafRed (s.ctx r.ctx).d leaf then
          (match s.holdUpdate g r.ctx r.va op t v vt with
            | some s => (s.acceptReq id).endReq id
            | none => s.inTicks 1 (.acceptance id noAnswer))
        else apply s
      | _, _ => apply s
  | _ => s

/-- The pieces of a vector access are accepted one line after the other: what they read so far, and where each is. -/
def State.acceptLines (s : State) (id : Nat) (r : Req) (wr : Bool) (acc : List (Byte × Bool × Bool)) :
    List (Nat × Nat) → State × Option (List (Byte × Bool × Bool))
  | [] => (s, some acc)
  | (a, k) :: l =>
    let va : Word := BitVec.ofNat 64 a
    let r := { r with va := va }
    match s.home r.ctx va with
    | none => ((s.setReq id r).failReq id cNOMAP, none)
    | some sl =>
      if s.migrating sl r.ctx va then ((s.setReq id r).parkAt sl id r .behind, none)
      else if s.missAhead sl id r.ctx va then ((s.setReq id r).parkAt sl id r (.missing none), none)
      else match s.findAt sl r.ctx va (if wr then .write else .read) with
        | (.miss, s) => ((s.setReq id r).miss sl id, none)
        | (.fail cause, s) => ((s.setReq id r).failReq id cause, none)
        | (.at pa leaf, s) =>
          if s.dBlocked sl id r.ctx va pa k then (s.holdD sl id r, none)
          else
            let s := (s.unholdD sl id).leaveWaiters sl id
            let keep := fun (s : State) => match r.who with
              | .slot f _ => if wr then s.grantWrite (prismOf f) r.ctx va leaf else s.fillBlock (prismOf f) r.ctx va k sl pa leaf
              | _ => s
            if wr then (keep s).acceptLines id r wr acc l
            else
              let s := s.recall r.ctx va k
              let (g, s) := s.gather sl pa k (leafDir leaf)
              (keep s).acceptLines id r wr (acc ++ g) l

/-- A read of an instruction word or of a stream instruction that waited at its slice, and an access of this kind by a thread of another
device, are tried there: they wait on, fail, or are done (R87, R118, R178). The answer to another device is its own matter (log 13). -/
def State.acceptRead (s : State) (id : Nat) (r : Req) : State :=
  match s.standAt r.who id r.ctx r.va r.op.access with
  | (.nowhere, s) => s.failReq id cNOMAP
  | (.fail cause, s) => s.failReq id cause
  | (.at sl pa leaf, s) =>
    let s := s.recall r.ctx r.va r.op.size
    (match r.op, r.who with
      | .record b, .peer _ => (s.forgetReq id).sliceWrite sl pa b false (leafDir leaf)
      | _, .peer _ => s.forgetReq id
      | .probe n _, _ =>
        let (g, s) := s.sliceRead sl pa n (leafDir leaf)
        if g.poison then s.failReq id cPOISON
        else (s.leaveSlices id).setReq id { r with op := .probe n (some g.bytes), stage := .returning }
      | .fetch, a =>
        let g := s.codeWord a.prism r.ctx sl pa r.va (leafDir leaf)
        if g.poison then s.failReq id cPOISON else (s.forgetReq id).setIbuf a r.va g
      | _, _ => s.forgetReq id)
  | (w, s) => s.waitAt id w

/-- A vector access is accepted: it enters the sequencer, a load with the bytes that it reads, valid ones of the prism's cache among them
(R127). -/
def State.acceptVec (s : State) (id : Nat) (r : Req) (v : VIns) (n : Nat) (wr : Bool) : State :=
  match s.acceptLines id r wr [] (piecesOf v.xa.toNat n) with
  | (s, none) => s
  | (s, some got) =>
    (match r.who with
      | .slot f _ =>
        let v := { v with req := some id, id := id }
        let op : ReqOp := if wr then .vstore v n else .vload v n (s.overlay (prismOf f) r.ctx v.xa got)
        (s.setReq id { r with va := v.xa, op := op, stage := .returning }).enterVec f v 0
      | _ => s.endReq id)

/-- A level-1 access to the register space through a page of the supervisor (R363): none where the page is not one of it. -/
def State.acceptReg (s : State) (id : Nat) (r : Req) (found : Walk) : Option State :=
  match r.who with
  | .core k =>
    if (s.core k).level = 0 then none
    else match found with
      | .leaf w size =>
        let pa := leafPa w size (localVa r.va)
        if !isRegister pa ∨ !leafAllows r.op.access w then none
        else some (match r.op with
          | .load d t => (match s.regRead k pa (ldBytes t) with
            | some v => (s.acceptReq id fun th => th.wx d v false).endReq id
            | none => s.failReq id cACCESS)
          | .store n v _ => (match s.regWrite k pa n v with
            | some s => (s.acceptReq id).endReq id
            | none => s.failReq id cACCESS)
          | _ => s.failReq id cACCESS)
      | _ => none
  | _ => none

/-- The version that a versioned instruction names. -/
def ReqOp.ver : ReqOp → Nat
  | .create _ v _ _ _ _ _ | .vput v _ _ | .vseal v | .vget v _ _ _ | .vretain v | .vrelease v | .vdrop v | .vquery v _ | .vhold v => v
  | _ => 0

/-- Reads and drops of a version whose frame lies in an area that its slice moves park (R399); its creations do where they take their frame. -/
def State.areaBusy (s : State) (sl : Nat) (r : Req) : Bool :=
  (s.slice sl).movesArea && r.op.versioned &&
    (match (s.slice sl).versions.find? fun e =>
        e.ctx == r.ctx && e.ver == r.op.ver && e.tile ≤ localVa r.va && localVa r.va < e.tile + max 1 e.size with
      | some e => e.st.created && !e.pool
      | none => false)

/-- A request has been found at its page: what it does there. -/
def State.serve (s : State) (sl id : Nat) (r : Req) (pa : Nat) (leaf : Word) : State :=
  match r.op with
  | .load d t => s.acceptLoad sl id r d (ldBytes t) pa leaf
  | .store k v t => s.acceptStore sl id r k v t pa leaf
  | .atomic _ _ _ _ _ _ _ _ => s.acceptAtomic id r pa leaf
  | .join d =>
    ((s.recall r.ctx r.va 64).acceptReq id fun t => t.await d true).setReq id { r with stage := .accepted pa leaf }
      |>.pushDue (.joinDecrement id noAnswer)
  | _ => s

/-! The memory port (R424). -/

/-- The memory port's access at the home slice of an address on this device: a cause, or the bytes read. It looks without changing what it
looks at, and an update-only copy is recalled (R118). -/
def State.portAt (s : State) (c : Nat) (va : Word) (wr : Bool) (v : Word) : Except (BitVec 8) Got × State :=
  match s.home c va with
  | none => (.error cNOMAP, s)
  | some sl =>
    match (s.findAt sl c va (if wr then .write else .read)).1 with
    | .miss => (.error cNOMAP, s)
    | .fail cause => (.error cause, s)
    | .at pa leaf =>
      let s := s.recall c va 8
      let g := (s.sliceRead sl pa 8 (leafDir leaf)).1
      if g.poison then (.error cPOISON, s)
      else (.ok g, if wr then s.sliceWrite sl pa (toBytes 8 v.toNat) false (leafDir leaf) else s)

/-- The end of an access of the memory port: a read's data and taint stand in DMDATA and DMCTL, or 0 and the outcome. -/
def State.portEnds (s : State) (wr : Bool) : Except (BitVec 8) Got → State
  | .error cause => { s with dmdata := if wr then s.dmdata else 0 }.apst (apOf cause)
  | .ok g =>
    if wr then s.apst 0 else { s with dmdata := BitVec.ofNat 64 (ofBytes g.bytes), dmTaint := g.taint }.apst 0

/-- A ".d" atomic, or a versioned instruction: pending ".d" bytes do not hold it. -/
def ReqOp.passesD : ReqOp → Bool
  | .atomic _ _ f _ _ _ _ _ => f == .d
  | o => o.versioned

/-- Acceptance at a home slice of this device. -/
def State.acceptHere (s : State) (id : Nat) (r : Req) : State :=
  match r.op, s.home r.ctx r.va with
  | .fetch, _ | .probe _ _, _ | .record _, _ => s.acceptRead id r
  | .piece j _ _, _ => (match r.who with | .peer _ => s.acceptRead id r | _ => if (kfind j s.copies).isSome then s.copyStep j noAnswer else s.forgetReq id)
  | .writeBack p k, home =>
    (match s.writeBackLine p k, home with
      | some s, _ => s.forgetReq id
      | none, none => s.forgetReq id
      | none, some sl =>
        if s.migrating sl r.ctx r.va then s.parkAt sl id r .behind
        else match s.translate sl r.ctx (localVa r.va) with
          | (.miss, s) => s.miss sl id
          | (_, s) => s.holdD sl id r)
  | .port wr v, _ => ((s.forgetReq id).portAt r.ctx r.va wr v).2
  | .vhold ver, _ => (s.forgetReq id).decodeHold (match r.who with | .peer t => t / 32768 | _ => s.dev) r.ctx r.seq r.va ver
  | _, none => s.failReq id cNOMAP
  | .vload v n _, some _ => s.acceptVec id r v n false
  | .vstore v n, some _ => s.acceptVec id r v n true
  | _, some sl =>
    if s.migrating sl r.ctx r.va ∨ s.areaBusy sl r then s.parkAt sl id r .behind
    else if !s.level1 r.who ∧ s.missAhead sl id r.ctx r.va then s.parkAt sl id r (.missing none)
    else
      let (found, s) := s.translate sl r.ctx (localVa r.va)
      match s.acceptReg id r found with
      | some s => s
      | none =>
        match s.findAt sl r.ctx r.va r.op.access with
        | (.miss, s) => s.miss sl id
        | (.fail cause, s) => (s.leaveWaiters sl id).failReq id cause
        | (.at pa leaf, s) =>
          if r.op.versioned then (s.leaveWaiters sl id).acceptV sl id r (tileSize leaf)
          else if !r.op.passesD ∧ s.dBlocked sl id r.ctx r.va pa r.op.size then s.holdD sl id r
          else ((s.unholdD sl id).leaveWaiters sl id).serve sl id r pa leaf

/-- The port through which a request for another device leaves: the lowest-numbered working one of its mask (R440). -/
def State.portOf (s : State) (dev : Nat) : Option Nat :=
  (List.range 16).find? fun i => (kget 0 s.routes dev).getLsbD i && (kget {} s.ports i).trained

/-- A device has acknowledged: the port to it has got its flits through (R439). -/
def State.acked (s : State) (dev : Nat) : State :=
  match s.portOf dev with
  | some i => if (kget {} s.ports i).retried = 0 then s else { s with ports := kmod {} i (fun p => { p with retried := 0 }) s.ports }
  | none => s

/-- Acceptance by the owner of a remote address (R97, R228): a failing check, or what follows it on this device. -/
def State.acceptThere (s : State) (id : Nat) (r : Req) (ans : Answer) : State :=
  match ans.cause with
  | some c => s.failReq id c
  | none =>
    let going := fun (s : State) => s.setReq id { r with stage := .returning }
    match r.op, r.who with
    | .load d _, .slot f _ =>
      going ((s.prismFill (prismOf f) r.ctx (s.lineKey r.ctx r.va) 0 0 0 0 (!ans.priv)).acceptReq id fun t => t.await d true)
    | .load d _, _ => going (s.acceptReq id fun t => t.await d true)
    | .store k v t, .slot f _ =>
      (match s.storeIn f r.ctx r.va k v t with
        | some s => ((s.grantWrite (prismOf f) r.ctx r.va (ansLeaf ans)).acceptReq id).endReq id
        | none => s)
    | .store _ _ _, _ => (s.acceptReq id).endReq id
    | .vload v n _, .slot f _ =>
      let v := { v with req := some id, id := id }
      (s.setReq id { r with op := .vload v n [], stage := .returning }).enterVec f v 0
    | .vstore v n, .slot f _ =>
      let v := { v with req := some id, id := id }
      let s : State := (piecesOf v.xa.toNat n).foldl (fun s (a, _) => s.grantWrite (prismOf f) r.ctx (BitVec.ofNat 64 a) (ansLeaf ans)) s
      (s.setReq id { r with op := .vstore v n, stage := .returning }).enterVec f v 0
    | .atomic _ _ .d _ _ _ _ _, .slot f n =>
      let s := s.modEntry r.ctx r.seq fun e => { e with dDevs := sadd (fieldAt r.va 52 12) e.dDevs }
      ((s.countDet f n r.ctx r.seq).acceptReq id).endReq id
    | .atomic _ _ .sc _ _ _ d _, _ =>
      let s := if r.op.lateRetire then s.waitWindow id r else s.acceptReq id fun t => t.await d true
      s.setReq id { r with stage := .inWindow r.op.window 0 0 }
    | .atomic _ _ _ _ _ _ d _, _ | .join d, _ => (s.acceptReq id fun t => t.await d true).setReq id { r with stage := .accepted 0 0 }
    | .probe n _, _ =>
      if ans.poison then s.failReq id cPOISON else s.setReq id { r with op := .probe n (some ans.data), stage := .returning }
    | .record _, .core k => ((s.forgetReq id).unpark (.core k) id).enterHandler k r.ctx
    | .port wr _, _ =>
      (s.forgetReq id).portEnds wr (if ansBad ans then .error cPOISON else .ok { bytes := ans.data, taint := ans.taint, poison := false })
    | .fetch, a =>
      let g := s.codeOver a.prism r.ctx r.va { bytes := ans.data, taint := ans.taint, poison := ans.poison }
      if g.poison then s.failReq id cPOISON else (s.forgetReq id).setIbuf a r.va g
    | o, _ => if o.versioned then s.acceptRemoteV id r ans else s

/-! SC windows (R132, R133). -/

/-- Every device's end marker for a window has reached a slice. -/
def State.windowHere (s : State) (sl w : Nat) : Bool :=
  (s.dev :: s.domain).all fun d => (s.slice sl).marks.contains (d, w)

/-- SC requests whose home is a slice, in the order S. -/
def State.scAt (s : State) (sl : Nat) : List (Nat × Req) :=
  let l := s.reqs.filter fun (_, r) => r.op.isSc && s.whereIs r.va == .here && s.home r.ctx r.va == some sl
  let before := fun (x y : Nat × Req) =>
    let kx := s.tidOf x.2.who
    let ky := s.tidOf y.2.who
    decide (x.2.op.window < y.2.op.window) || (x.2.op.window == y.2.op.window && (decide (kx < ky) || (kx == ky && decide (x.1 < y.1))))
  l.foldl (fun out x => out.takeWhile (fun y => before y x) ++ [x] ++ out.dropWhile fun y => before y x) []

/-- SC operations applied in the order S as far as their windows have closed and they have been accepted. -/
def State.applyScGo (s : State) (sl : Nat) : List (Nat × Req) → State
  | [] => s
  | (id, r) :: l =>
    match r.stage with
    | .inWindow w pa leaf => if s.windowHere sl w then (s.applyAtomic sl id r pa leaf).applyScGo sl l else s
    | _ => s

/-- The SC operations of a slice that can be applied are; end markers of windows with none left are given up. -/
def State.applySc (s : State) (sl : Nat) : State :=
  let s := s.applyScGo sl (s.scAt sl)
  let left := (s.scAt sl).map fun (kr : Nat × Req) => kr.2.op.window
  s.modSlice sl fun x => { x with marks := x.marks.filter fun m => left.contains m.2 || !s.windowHere sl m.2 }

/-- The SC operations of every slice. -/
def State.applyScAll (s : State) : State :=
  if s.reqs.any fun (_, r) => r.op.isSc then s.slices.foldl (fun s (sl, _) => s.applySc sl) s else s

/-- SC_WINDOW_CLOSE, R133. -/
def execScWindowClose (w : Nat) (σ : State) : Out :=
  .next (let σ := σ.done (.scWindowClose w)
    if σ.scOpen.contains w ∧ w < σ.tick / 64 then
      let σ := { σ with scOpen := sdel w σ.scOpen }
      σ.parts.foldl (fun σ (_, p) => p.homes.dedup.foldl (fun σ sl => σ.pushDue (.endMarker sl σ.dev w)) σ) σ
    else σ)

/-- END_MARKER, R133. -/
def execEndMarker (sl dev w : Nat) (σ : State) : Out :=
  .next (let own := dev == σ.dev
    let ok := !own || σ.due.contains (.endMarker sl dev w)
    let σ := σ.done (.endMarker sl dev w)
    if ok ∧ (own || σ.domain.contains dev) then
      (σ.modSlice sl fun x => { x with marks := if x.marks.contains (dev, w) then x.marks else x.marks ++ [(dev, w)] }).applySc sl
    else σ)

/-- A request may be accepted now. -/
def Req.acceptable (r : Req) : Bool :=
  match r.stage with
  | .sent | .behind | .onBatch | .onOverflow => true
  | _ => false

/-- ACCEPTANCE, R228. -/
def execAcceptance (id : Nat) (ans : Answer) (σ : State) : Out :=
  .next (let σ := σ.done (.acceptance id noAnswer)
    match σ.req id with
    | none => σ
    | some r =>
      if !r.acceptable then σ
      else match σ.whereIs r.va with
        | .here => (σ.acceptHere id r).applyScAll
        | .device d => if r.stage = .sent then (σ.acked d).acceptThere id r ans else σ
        | .nowhere => σ.failReq id cNOMAP)

/-- REFUSED_REQUEST_RESEND, R86. -/
def execRefusedRequestResend (id : Nat) (σ : State) : Out :=
  .next (let due := σ.due.contains (.refusedRequestResend id) || σ.later.any fun l => l.2 == .refusedRequestResend id
    let σ := σ.done (.refusedRequestResend id)
    match σ.req id with
    | some r =>
      let refused : Bool := match r.stage with | .refusedFull _ => true | _ => false
      if due ∧ refused then (σ.setReq id { r with stage := .sent }).pushDue (.acceptance id noAnswer) else σ
    | none => σ)

/-- The address at which the blocks of a grain begin that an answer to a read of [va, va + n) holds, where it holds whole blocks (R80). -/
def ansBlock (a : Answer) (va n : Nat) : Option Nat :=
  ([32, 128, 512].find? fun g => (va + n + g - 1) / g * g - va / g * g == a.data.length).map fun g => va / g * g

/-- The sectors of the line that holds an address, as an answer whose data begin at b has them. -/
def ansBits (a : Answer) (b line : Nat) (g : Bool × Bool → Bool) : BitVec 16 :=
  (List.range 16).foldl (fun v i => setBit v i (g (ansSector a b (line * 512 + 32 * i - b)))) 0

/-- The data of a load of [va, va + n) on another device reach a slot: blocks of the page's grain enter the prism's cache (R80) with the
taint and poison of their sectors (R83); the load takes valid bytes of the prism's cache before them (R127). -/
def State.landRemote (s : State) (f : Nat) (r : Req) (va : Word) (n : Nat) (ans : Answer) : List (Byte × Bool × Bool) × State :=
  let base := ansBlock ans va.toNat n
  let s := match base with
    | none => s
    | some b =>
      (unitsOf 512 b ans.data.length).foldl
        (fun s (a, k) => s.prismFill (prismOf f) r.ctx (s.lineKey r.ctx (BitVec.ofNat 64 a)) (placed (a % 512) ((ans.data.drop (a - b)).take k))
          (span (a % 512) k) (ansBits ans b (a / 512) Prod.fst) (ansBits ans b (a / 512) Prod.snd) (!ans.priv))
        s
  let from' := base.getD va.toNat
  let got := (List.range n).map fun i =>
    let j := va.toNat + i - from'
    ((ans.data[j]?).getD 0, ansSector ans from' j)
  (s.overlay (prismOf f) r.ctx va got, s)

/-- What a scalar load makes of bytes with their taint and poison. -/
def gotOf (l : List (Byte × Bool × Bool)) : Got := { bytes := l.map Prod.fst, taint := l.any (·.2.1), poison := l.any (·.2.2) }

/-- LOAD_DATA_RETURN, R190. -/
def execLoadDataReturn (id : Nat) (ans : Answer) (σ : State) : Out :=
  .next (let due := σ.due.contains (.loadDataReturn id ans)
    let σ := σ.done (.loadDataReturn id ans)
    match σ.req id with
    | none => σ
    | some r =>
      if r.stage ≠ .returning ∨ (σ.whereIs r.va == .here && !due) then σ
      else match r.op with
        | .load d t =>
          let plain : Got := { bytes := ans.data, taint := ans.taint, poison := ans.poison }
          let (g, σ) := match r.who, σ.whereIs r.va with
            | .slot f _, .device _ => let (l, σ) := σ.landRemote f r r.va (ldBytes t) ans; (gotOf l, σ)
            | _, _ => (plain, σ)
          (σ.modThread r.who fun th => ((th.await d false).loaded t d g { pc := r.pc, addr := r.va })).endReq id
        | .vload v n _ =>
          (match r.who with
            | .slot f _ => let (got, σ) := σ.landRemote f r v.xa n ans; σ.setReq id { r with op := .vload v n got }
            | _ => σ)
        | _ => σ)

/-! The limits of waits (R77, R115, R245, R309). -/

/-- A wait of a slot has outlasted felim. -/
def State.limitSlot (s : State) (f n : Nat) : State :=
  let sl := s.slot f n
  match sl.park with
  | some p =>
    let merging := p.kind == .vpmrg && s.merges.any fun (_, m) => m.full && m.parts.any fun c => c.f == f && c.n == n
    let answered := ((p.req.bind fun id => kfind id s.flights).bind (·.reply)).isSome || merging
    if p.kind.limited ∧ !answered ∧ sl.felim ≠ 0 ∧ sl.felim.toNat < (s.parkedCycles f n).getD 0 then
      ((s.abandon f n).modSlot f n fun x => { x with rex := none }).takeFault (.slot f n) { cause := cWAITLIMIT, addr := p.addr }
    else s
  | none => s

/-- A request of a slot has waited at its slice longer than felim: a read of a version that has been accepted ends late, another access
precisely, and what was held behind it is tried again (R86, R91, R115, R245). -/
def State.limitReq (s : State) (id : Nat) : State :=
  match s.req id with
  | none => s
  | some r =>
    let felim := match r.who with | .slot f n => (s.slot f n).felim.toNat | _ => 0
    if felim = 0 ∨ r.elapsed + s.carried r.who id ≤ felim ∨ !s.felimRuns r then s
    else match r.stage with
      | .onVersion | .returning => s.lateReq id cWAITLIMIT
      | .refusedFull _ | .sent => s.failReq id cWAITLIMIT
      | _ => ((s.failReq id cWAITLIMIT).retryHeldD).applyScAll

/-- A refused message has waited longer than its sender's felim: a remote operation ends precisely, another message late (R77, R309). -/
def State.limitMsg (s : State) (id : Nat) : State :=
  match kfind id s.flights with
  | some w =>
    let felim := match w.who with | .slot f n => (s.slot f n).felim.toNat | _ => 0
    if felim ≠ 0 ∧ felim < w.elapsed + s.carried w.who id ∧ w.refused ∧ !w.entered then
      (match w.msg.op with
        | some (o, _) => s.replyFault w o cWAITLIMIT
        | none => s.lateMsg id cWAITLIMIT)
    else s
  | none => s

/-- A parked read of a version by a thread of another device is withdrawn there (R245). -/
def State.withdraw (s : State) (id : Nat) : State :=
  match s.req id with
  | some r => if s.foreign r ∧ r.stage = .onVersion then s.forgetReq id else s
  | none => s

/-- WAIT_LIMIT, R77. -/
def execWaitLimit (w : WaitRef) (σ : State) : Out :=
  .next (let σ := σ.done (.waitLimit w)
    match w with
    | .slot f n => σ.limitSlot f n
    | .req id => σ.limitReq id
    | .msg id => σ.limitMsg id)

end Sys2Proof.Machine
end

