-- ==== Sys2Proof/Machine/Privilege.lean ====
section
/-! DEFINITION. Interrupts of control cores (R347, R349) and the answers of a service core (R356, R357). -/

namespace Sys2Proof.Machine

/-- INTERRUPT, R349: due once the instruction at the boundary has been found to have no fault of its own. -/
def execInterrupt (k : Nat) (σ : State) : Out :=
  σ.whenDue (.interrupt k) fun σ =>
    match (σ.core k).atBoundary, (σ.core k).interrupt with
    | true, some i => σ.interruptCore k i
    | _, _ => σ

/-- A core that waits in a WAITI, which an enabled pending interrupt ends (R344). -/
def Core.waitEnds (c : Core) : Bool :=
  c.run == .running && (match c.park with | some p => p.kind == .waitCnt | none => false) && (c.sip &&& c.sie) != 0

/-- TIMER, R347. -/
def execTimer (k : Nat) (σ : State) : Out :=
  .next (if (σ.core k).sip.getLsbD 0 ∧ (σ.core k).waitEnds then σ.retireAs (.core k) (σ.core k).th else σ)

/-! The fault queue (R356, R357). -/

/-- FAULT_QUEUE_REPOST, R356. -/
def execFaultQueueRepost (id : Nat) (σ : State) : Out :=
  σ.whenDue (.faultQueueRepost id) fun σ =>
    match σ.req id with
    | some r =>
      (match r.stage, (σ.ctx r.ctx).d.score with
        | .missing none, some core => if σ.awaited r.ctx r.va then σ else σ.post id r core
        | _, _ => σ)
    | none => σ

/-- The parked requests that a token of KIND 1 answers: those to the granule of the request that was posted (R394). -/
def State.answered (s : State) (tok : Nat) : List Nat :=
  match s.reqs.find? fun (kr : Nat × Req) => kr.2.stage == .missing (some tok) with
  | none => []
  | some (_, r) =>
    match s.home r.ctx r.va with
    | none => []
    | some sl => (s.slice sl).parkq.filter fun id =>
      match s.req id with
      | some q => q.ctx == r.ctx && granule q.va == granule r.va && (match q.stage with | .missing _ => true | _ => false)
      | none => false

/-- The context of the stream fault that a token names. -/
def State.faultOf (s : State) (tok : Nat) : Option (Nat × Option Word) :=
  s.ctxs.findSome? fun (kc : Nat × Context) =>
    match kc.2.phase with
    | .service t ipc => if t = tok then some (kc.1, ipc) else none
    | _ => none

/-- A stream fault answered by the service core: the window acts on it at the next boundary of the stream. -/
def State.answerService (s : State) (c : Nat) (ipc : Option Word) (resume : Bool) : State :=
  (s.modCtx c fun x => { x with phase := .answered resume ipc }).pushDue (.faultDelivery c)

/-- VERDICT 0: every parked request of the page is tried again, in parking order. -/
def State.verdictRetry (s : State) (tok : Nat) : State :=
  match s.answered tok, s.faultOf tok with
  | [], some (c, ipc) => s.answerService c ipc true
  | ids, _ =>
    ids.foldl (fun s id => match s.req id with
      | some r =>
        let s : State := match s.home r.ctx r.va with | some sl => s.leaveWaiters sl id | none => s
        (s.setReq id { r with stage := .sent }).pushDue (.acceptance id noAnswer)
      | none => s) s

/-- VERDICT 1 and 2: every parked request of the page ends with the cause; a stream fault is abandoned. -/
def State.verdictFail (s : State) (tok : Nat) (cause : BitVec 8) : State :=
  match s.answered tok, s.faultOf tok with
  | [], some (c, ipc) => s.answerService c ipc false
  | ids, _ =>
    (ids.foldl (fun s id => match s.req id with
      | some r =>
        let s : State := match s.home r.ctx r.va with | some sl => s.leaveWaiters sl id | none => s
        s.failReq id cause
      | none => s) s).applyScAll

/-- SFRPLY_RETRY, R357. -/
def execSfrplyRetry (k tok : Nat) (σ : State) : Out := σ.whenDue (.sfrplyRetry k tok) fun σ => σ.verdictRetry tok
/-- SFRPLY_NOMAP, R357. -/
def execSfrplyNomap (k tok : Nat) (σ : State) : Out := σ.whenDue (.sfrplyNomap k tok) fun σ => σ.verdictFail tok cNOMAP
/-- SFRPLY_ACCESS, R357. -/
def execSfrplyAccess (k tok : Nat) (σ : State) : Out := σ.whenDue (.sfrplyAccess k tok) fun σ => σ.verdictFail tok cACCESS

end Sys2Proof.Machine
end

