-- ==== Sys2Proof/Machine/Preempt.lean ====
section
/-! DEFINITION. Pre-emption of a facet: the save (R358, R359), the answers of slices to withdrawals, and the resume (R360, R361). -/

namespace Sys2Proof.Machine

/-! The save area (R359). -/

/-- A trap record in bytes (R353), and back: software may have written it, and a reserved cause reads back as 0x01 (R17). -/
def TrapRec.encoded (r : TrapRec) : List Byte :=
  toBytes 1 r.cause.toNat ++ toBytes 1 r.flg.toNat ++ toBytes 2 r.mask.toNat ++ toBytes 4 0 ++ toBytes 8 r.pc.toNat ++ toBytes 8 r.addr.toNat ++
    toBytes 8 r.info.toNat
def trapOf (b : List Byte) : TrapRec :=
  let u := fun o n => fieldOf b o n
  { cause := causeStored (BitVec.ofNat 8 (u 0 1)), late := u 1 1 % 2 == 1, win := u 1 1 / 2 % 2 == 1, dbg := u 1 1 / 4 % 2 == 1,
    mask := BitVec.ofNat 16 (u 2 2), pc := BitVec.ofNat 64 (u 8 8), addr := BitVec.ofNat 64 (u 16 8), info := BitVec.ofNat 64 (u 24 8) }

/-- n bytes of zeros. -/
def zeros (n : Nat) : List Byte := List.replicate n 0

/-- The control registers of a slot record, in the order of R359. -/
def Slot.csrs (sl : Slot) : List Word :=
  [zext64 sl.th.rnd, zext64 sl.th.stat, zext64 sl.slim, zext64 sl.felim, zext64 sl.bap, zext64 sl.cpt, sl.mcm, zext64 sl.mcb, zext64 sl.ord,
   sl.wid, zext64 sl.vl, sl.th.rkey, sl.th.rctr, zext64 sl.msrc, sl.cnt.packed]

/-- A slot record of a task of context c. -/
def Slot.record (sl : Slot) (c : Nat) : List Byte :=
  let state := 1 + (if sl.trap.isSome then 2 else 0) + (if sl.rex.isSome then 4 else 0) + (if sl.msrcT then 8 else 0)
  ((List.range 31).flatMap fun i => toBytes 8 (sl.th.rx (BitVec.ofNat 5 (i + 1))).toNat) ++ toBytes 4 (sl.th.xt &&& ~~~1#32).toNat ++
    toBytes 1 (sl.th.p ||| 1#8).toNat ++ toBytes 1 c ++ toBytes 2 state ++ toBytes 8 sl.th.pc.toNat ++
    (sl.csrs.flatMap fun w => toBytes 8 w.toNat) ++ toBytes 8 (sl.rex.getD 0) ++ toBytes 8 sl.loop ++
    toBytes 8 (sl.lb + sl.lsize * 2 ^ 32) ++ toBytes 8 sl.pmc ++ ((sl.trap.map (·.encoded)).getD (zeros 32)) ++
    ((sl.mbox.flatMap (·.encoded)) ++ zeros 256).take 256 ++ zeros 320

/-- A message with what an entry in memory holds (R308); which entry of its sender it belongs to, and its number, are not there. -/
def Msg.reread (m : Msg) (b : List Byte) : Msg :=
  let u := fun o n => fieldOf b o n
  { m with pay := BitVec.ofNat 128 (u 0 16), hnd := BitVec.ofNat 64 (u 0x10 8), src := BitVec.ofNat 28 (u 0x18 4), tag := BitVec.ofNat 8 (u 0x1C 1),
           tnt := BitVec.ofNat 4 (u 0x1D 1) }

/-- Messages with what consecutive entries in memory hold. -/
def rereadMsgs (l : List Msg) (b : List Byte) : List Msg := l.zipIdx.map fun (m, i) => m.reread ((b.drop (32 * i)).take 32)

/-- A saved slot with what its record now holds (R360). The record's counts are those of the requests that are sent again, and its mailbox
has as many entries as were saved (log 37). -/
def Slot.restored (sl : Slot) (b : List Byte) : Slot :=
  let u := fun o n => fieldOf b o n
  let w := fun o => BitVec.ofNat 64 (u o 8)
  let state := u 0xFE 2
  let th : Thread :=
    { sl.th with x := Vector.ofFn fun (i : Fin 32) => if i.val = 0 then 0 else w (8 * (i.val - 1)), xt := BitVec.ofNat 32 (u 0xF8 4) &&& ~~~1#32,
                 p := BitVec.ofNat 8 (u 0xFC 1) ||| 1#8, pc := w 0x100 &&& ~~~3#64, rnd := rndStored (BitVec.ofNat 32 (u 0x108 4)),
                 stat := BitVec.ofNat 21 (u 0x110 8), ppc := w 0x100 &&& ~~~3#64, rkey := w 0x160, rctr := w 0x168 }
  { sl with th := th, slim := BitVec.ofNat 18 (u 0x118 8), felim := BitVec.ofNat 32 (u 0x120 8), bap := BitVec.ofNat 21 (u 0x128 8),
            cpt := cptStored (w 0x130), mcm := w 0x138, mcb := BitVec.ofNat 11 (u 0x140 8) &&& 0x7C0#11, ord := BitVec.ofNat 48 (u 0x148 8),
            wid := w 0x150, vl := vlStored (w 0x158), msrc := BitVec.ofNat 28 (u 0x170 8), msrcT := state / 8 % 2 == 1,
            lb := u 0x190 4 % 2 ^ 18, lsize := u 0x194 4 % 2 ^ 19, pmc := u 0x198 8,
            rex := if state / 4 % 2 = 1 then some (u 0x180 8) else none, loop := u 0x188 8, mbox := rereadMsgs sl.mbox (b.drop 0x1C0),
            trap := if state / 2 % 2 = 1 then some (trapOf ((b.drop 0x1A0).take 32)) else none }

/-- What the request list holds: withdrawn requests, refused messages and late reports. -/
inductive Listed where
  | req (id : Nat) (r : Req) | msg (id : Nat) (w : Flight) | late (r : LateRep)
  deriving DecidableEq, Repr

/-- The issue number of an item, its KIND, and its records for slot n: a message takes two. -/
def listedNo : Listed → Nat
  | .req id _ | .msg id _ => id
  | .late r => r.no
def listedKind : Listed → Nat
  | .req _ r => (match r.op with | .vretain _ => 2 | _ => 1)
  | .msg _ _ => 3
  | .late _ => 4
def listedBytes (i : Listed) (n : Nat) : List Byte :=
  toBytes 1 (listedKind i) ++ toBytes 1 n ++ zeros 2 ++ (match i with
    | .req _ r => (match r.op with
      | .vget ver la _ _ => toBytes 4 ver ++ toBytes 8 r.va.toNat ++ toBytes 8 la ++ zeros 8
      | .vretain ver => toBytes 4 ver ++ toBytes 8 r.va.toNat ++ zeros 16
      | _ => zeros 28)
    | .msg _ w => zeros 28 ++ w.msg.encoded
    | .late r => toBytes 4 r.cause.toNat ++ toBytes 8 r.pc.toNat ++ toBytes 8 r.addr.toNat ++ toBytes 8 r.info.toNat)

/-- An item with what its records hold. -/
def listedReread (i : Listed) (b : List Byte) : Listed :=
  let u := fun o n => fieldOf b o n
  let va := BitVec.ofNat 64 (u 8 8)
  match i with
  | .req id r => .req id (match r.op with
    | .vget _ _ lb lsize => { r with va := va, op := .vget (u 4 4) (u 16 8) lb lsize }
    | .vretain _ => { r with va := va, op := .vretain (u 4 4) }
    | _ => r)
  | .msg id w => .msg id { w with msg := w.msg.reread (b.drop 32) }
  | .late r => .late { r with cause := causeStored (BitVec.ofNat 8 (u 4 4)), pc := va, addr := BitVec.ofNat 64 (u 16 8), info := BitVec.ofNat 64 (u 24 8) }

/-- Items placed in issue order. -/
def insertIssued (x : Listed) : List Listed → List Listed
  | [] => [x]
  | y :: l => if listedNo x < listedNo y then x :: y :: l else y :: insertIssued x l

/-- The items of slot n in issue order. -/
def Stash.listed (t : Stash) (n : Nat) : List Listed :=
  let mine := fun (a : Agent) => match a with | .slot _ m => m == n | _ => false
  let l := ((t.reqs.filter fun (kr : Nat × Req) => mine kr.2.who).map fun kr => .req kr.1 kr.2) ++
    ((t.refused.filter fun (kw : Nat × Flight) => mine kw.2.who).map fun kw => .msg kw.1 kw.2) ++ (kget {} t.slots n).late.map .late
  l.foldl (fun out x => insertIssued x out) []

/-- The request list: the items of the slots, slot by slot. -/
def Stash.requestList (t : Stash) : List Byte := (List.range 15).flatMap fun n => (t.listed n).flatMap fun i => listedBytes i n

/-- The records of a request list as items: where each begins, its slot and its KIND. -/
def listRecords (b : List Byte) : Nat → Nat → List (Nat × Nat × Nat)
  | 0, _ => []
  | k + 1, i =>
    let kind := fieldOf b (32 * i) 1
    (i, fieldOf b (32 * i + 1) 1, kind) :: (if kind = 3 then listRecords b (k - 1) (i + 2) else listRecords b k (i + 1))

/-- The items of slot n as a request list of k records in memory now holds them (R360): what a record has no place for is as it was saved. -/
def Stash.reread (t : Stash) (b : List Byte) (k n : Nat) : List Listed :=
  (((listRecords b k 0).filter fun r => r.2.1 == n).zip (t.listed n)).filterMap fun ((i, _, kind), x) =>
    if kind = listedKind x then some (listedReread x ((b.drop (32 * i)).take 64)) else none

/-- Lanes of a facet as area bytes, 2 KiB each: in 32-bit words v0 to v15 of slot 0, of slot 1 and so on, then w0 to w15 (log 37). -/
def laneBytes (v : KMap VReg) (j : Nat) : List Byte :=
  ((List.range 272).flatMap fun k => toBytes 4 ((kget {} v k).bits.extractLsb' (32 * j) 32).toNat) ++ zeros 960

/-- Register k of the lanes of a facet read back: the area has no place for the taint. -/
def rereadReg (v : KMap VReg) (word : Nat → Nat → Nat) (lanes k : Nat) : VReg :=
  { bits := BitVec.ofNat 8192 ((List.range lanes).foldl (fun n j => n + word j k * 2 ^ (32 * j)) 0), taint := (kget {} v k).taint }

/-- Bytes the device writes into a save area, in pieces that lie in one region each. -/
def State.areaWrite (s : State) (w : Bool) (pa : Nat) (b : List Byte) : State :=
  (List.range ((b.length + 1023) / 1024)).foldl (fun s i => s.deviceWrite w (pa + 1024 * i) ((b.drop (1024 * i)).take 1024)) s

/-- n bytes the reference leaves open (log 7). -/
def State.freeBytes (s : State) (n : Nat) : List Byte × State :=
  ((List.range n).map (fun i => (Config.freeWord (s.free + i)).setWidth 8), { s with free := s.free + n })

/-- Words of local store as area bytes: full-empty bit and taint bit of each word, four words a byte. -/
def Facet.feBytes (x : Facet) (lo n : Nat) : List Byte :=
  (List.range n).map fun i => BitVec.ofNat 8 ((List.range 4).foldl (fun m j =>
    let w := x.word (lo + 4 * i + j)
    m + (if w.empty then 4 ^ j else 0) + (if w.taint then 2 * 4 ^ j else 0)) 0)

/-- The accumulators of a binding as area bytes, 16 KiB each. -/
def accBytes (b : Binding) : List Byte :=
  (List.range 8).flatMap fun j => toBytes 16384 (kget {} b.acc j).bits.toNat


/-- The save area of a facet is written (R359, step 6): the parts in use. -/
def State.writeArea (s : State) (f : Nat) (t : Stash) : State :=
  let x := s.facet f
  let w := (s.prism (prismOf f)).world
  let a := x.saveArea
  let mask := t.slots.foldl (fun m (n, _) => m + 2 ^ n) 0
  let s : State := t.slots.foldl (fun s (n, sl) =>
    let c := (sl.owner.map Prod.fst).getD 0
    let s := s.areaWrite w (a + 0x400 + 1024 * n) (sl.record c)
    let s := s.areaWrite w (a + 0xE8000 + sl.lb) (x.lsBytes sl.lb sl.lsize)
    s.areaWrite w (a + 0x128000 + sl.lb / 16) (x.feBytes (sl.lb / 4) (sl.lsize / 16))) s
  let nq := t.mq0.length + t.mq1.length
  let (q, s) := s.freeBytes (32 * (nq + t.streams.length))
  let s := s.areaWrite w (a + 0x4000) q
  let s := s.areaWrite w (a + 0x5000) (x.divMsgs.flatMap (·.encoded))
  let l := t.requestList
  let s := s.areaWrite w (a + 0x8000) l
  let s := match t.bind0 with | some b => s.areaWrite w (a + 0x28000) (accBytes b) | none => s
  let s := match t.bind1 with | some b => s.areaWrite w (a + 0x48000) (accBytes b) | none => s
  let s := s.areaWrite w (a + 0x68000) ((List.range t.grant).flatMap (laneBytes t.v))
  let b0 := t.bind0.isSome.toNat
  let b1 := t.bind1.isSome.toNat
  let ctxq := (t.bind0.map (·.ctx)).getD 0 + 256 * (t.bind1.map (·.ctx)).getD 0
  s.areaWrite w a (toBytes 4 2 ++ toBytes 2 f ++ toBytes 2 mask ++ toBytes 2 t.grant ++ toBytes 1 (b0 + 2 * b1 + 4 * b0 + 8 * b1) ++
    toBytes 1 nq ++ toBytes 4 (l.length / 32) ++ toBytes 2 x.divMsgs.length ++ toBytes 2 ctxq ++ toBytes 4 0 ++ toBytes 8 x.cyc ++ zeros 992)

/-! The save (R358). -/

/-- The status word of a save area, and SIP.PRE of the core that asked. -/
def State.areaStatus (s : State) (f save st : Nat) : State := s.areaWrite (s.prism (prismOf f)).world save (toBytes 4 st)
def State.raisePre (s : State) (k : Nat) : State := s.modCore k fun x => { x with sipPre := true }

/-- A facet lies in the partition of a control core. -/
def State.facetOf (s : State) (k f : Nat) : Bool := (s.partOfCore k).isSome && s.partOfCore k == s.partOfPrism (prismOf f)

/-- The tile slots of a facet that hold tasks. -/
def Facet.taskSlots (x : Facet) : List Nat :=
  (List.range 15).filter fun n => match (x.slot n).job with | .task _ _ _ _ => true | _ => false

/-- A slot stops (step 1): an instruction that has not retired is abandoned, where nothing holds it, with its fetches and reads. -/
def State.stopSlot (s : State) (f n : Nat) : State :=
  if !s.stoppable f n then s
  else
    let fetches := (s.reqs.filter fun (kr : Nat × Req) =>
      kr.2.who == .slot f n && (match kr.2.op with | .fetch | .probe _ _ => true | _ => false)).map Prod.fst
    let s := fetches.foldl (fun s id => s.forgetReq id) s
    if (s.slot f n).park.isSome then s.abandon f n else s

/-- The loop that a stopped slot was entering is taken back: its pc is at the VLOOP, with the count that remains (R265); what its body has
sent is withdrawn, and no register awaits it any more. -/
def State.rewindLoop (s : State) (f n : Nat) : State :=
  let sl := s.slot f n
  if sl.loopLeft = 0 ∨ sl.park.isSome then s
  else
    let mine := fun (i : SeqItem) => i.filling && i.slot == n
    let item := ((s.facet f).seqQ.find? mine).getD { body := [] }
    let s := (item.body.filterMap (·.req)).foldl (fun s id => s.endReq id) s
    let s := s.modSlot f n fun x =>
      let th := item.body.foldl (fun th v => th.await (vinfo v.ins v.fd).xd false) x.th
      { x with loopLeft := 0, loop := item.count, th := { th with pc := th.pc - BitVec.ofNat 64 (4 * (item.body.length + 1)) } }
    s.modFacet f fun x => { x with seqQ := x.seqQ.filter fun i => !mine i }

/-- A copy of a facet under way has to let an unread matrix entry read first (R135). -/
def State.copyAwaits (s : State) (f : Nat) (e : MxEntry) : Bool :=
  s.copies.any fun (_, c) => c.f == f && !c.toGlobal && !c.finished && c.ahead.contains e.id &&
    e.readRanges.any fun (a, k) => overlaps a k (c.la + c.done) (c.len - c.done)

/-- How many entries of a queue a save lets complete: those that have begun reading, and those up to the last one that a copy under way
awaits, which weaken R135 otherwise (R146, log 55). -/
def State.mxFirst (s : State) (f : Nat) (m : MQueue) : Nat :=
  m.entries.zipIdx.foldl (fun n (e, i) => if e.stage != .queued || s.copyAwaits f e then i + 1 else n) 0

/-- The other entries of both queues go to the saved state (step 4); their operations stay in MX. -/
def State.stashQueues (s : State) (f : Nat) : State :=
  let x := s.facet f
  let n0 := s.mxFirst f x.mq0
  let n1 := s.mxFirst f x.mq1
  s.setFacet f
    { x with stash := x.stash.map (fun (t : Stash) => { t with mq0 := x.mq0.entries.drop n0, mq1 := x.mq1.entries.drop n1 }),
             mq0 := { x.mq0 with entries := x.mq0.entries.take n0, waiting := if n0 = 0 then none else x.mq0.waiting },
             mq1 := { x.mq1 with entries := x.mq1.entries.take n1, waiting := if n1 = 0 then none else x.mq1.waiting } }

/-- Refused messages of the facet's tasks go to the request list, and leave ST until they are sent again; with them those that wait behind
one of their sender for the same mailbox (R146). -/
def State.stashRefused (s : State) (f : Nat) : State :=
  s.flights.foldl (fun s (id, w) =>
    let behind := (((s.facet f).stash.map (·.refused)).getD []).any fun (_, v) => v.who == w.who && v.target == w.target
    if (match w.who with | .slot g _ => g == f | _ => false) && (w.refused || behind) && !w.entered && w.msg.op.isNone then
      (({ s with flights := kdel id s.flights }).modCnt w.who Counts.subSt).modFacet f fun x =>
        { x with stash := x.stash.map fun (t : Stash) => { t with refused := t.refused ++ [(id, { w with refused := true })] } }
    else s) s

/-- The retired readers of a facet that may still be parked at a slice are withdrawn (step 3): an answer becomes due from this device's
slices. -/
def State.withdrawReaders (s : State) (f : Nat) : State :=
  s.reqs.foldl (fun s (id, r) =>
    let mine := match r.who with | .slot g _ => g == f | _ => false
    let read := match r.op with | .vget _ _ _ _ | .vretain _ => true | _ => false
    if mine && read && s.whereIs r.va == .here then s.pushDue (.withdrawalAnswer id true) else s) s

/-- The message entries of slot 15 that no handler has taken go to the handler region. -/
def State.divertWaiting (s : State) (f : Nat) : State :=
  let sl := s.slot f 15
  (s.setSlot f 15 { sl with mbox := [], spill := [] }).modFacet f fun x => { x with divMsgs := x.divMsgs ++ sl.mbox ++ sl.spill }

/-- The late reports of a facet's slots that stand at a boundary are taken before the save (R351). -/
def State.takeLates (s : State) (f : Nat) : State :=
  (s.facet f).taskSlots.foldl (fun s n =>
    let sl := s.slot f n
    if sl.late.isEmpty || sl.trap.isSome || sl.park.isSome then s else s.takeLate (.slot f n)) s

/-- Steps 1 to 4 of a save begin: a loop whose body a slot was entering is left at its VLOOP. -/
def State.beginSave (s : State) (k f save : Nat) : State :=
  let s := (s.areaStatus f save 1).takeLates f
  let s : State := (s.facet f).taskSlots.foldl (fun s n => (s.stopSlot f n).rewindLoop f n) s
  let s := s.modFacet f fun x =>
    { x with save := .draining, saveArea := save, saveCore := k, stash := some { grant := x.grant, kept := x.kept }, diverting := true,
             divMsgs := [] }
  let s := { s with later := s.later.filter fun l => l.2 != Instr.collectionWindowClose f }
  let s := if (s.facet f).winFpx.isEmpty then s else s.pushDue (.collectionWindowClose f)
  ((((s.divertWaiting f).withdrawReaders f).stashQueues f).stashRefused f).pushDue (.saveDrainEnd f)

/-- A save or resume is refused. -/
def State.refuseSave (s : State) (k f save : Nat) : State := (s.areaStatus f save 3).raisePre k

/-- SPRE_SAVE, R358. -/
def execSpreSave (k f save : Nat) (σ : State) : Out :=
  σ.whenDue (.spreSave k f save) fun σ =>
    let x := σ.facet f
    if !σ.facetOf k f ∨ x.stash.isSome ∨ x.save ≠ .idle then σ.refuseSave k f save else σ.beginSave k f save

/-- A slice has removed a waiter: the request goes to the request list, and its operation stays in VG. -/
def State.withdrawn (s : State) (f id : Nat) (r : Req) : State :=
  let s := s.forgetReq id
  let s : State := match s.whereIs r.va, s.home r.ctx r.va, r.op with
    | .here, some sl, .vget ver _ _ _ | .here, some sl, .vretain ver => s.settleV sl r.ctx (localVa r.va) ver
    | _, _, _ => s
  s.modFacet f fun x => { x with stash := x.stash.map fun (t : Stash) => { t with reqs := kset id r t.reqs } }

/-- WITHDRAWAL_ANSWER, R358. -/
def execWithdrawalAnswer (id : Nat) (removed : Bool) (σ : State) : Out :=
  .next (let due := σ.due.contains (.withdrawalAnswer id removed)
    let σ := σ.done (.withdrawalAnswer id removed)
    match σ.req id with
    | none => σ
    | some r =>
      match r.who, r.op with
      | .slot f _, .vget _ _ _ _ | .slot f _, .vretain _ =>
        if (σ.facet f).save ≠ .draining then σ
        else if σ.whereIs r.va = .here then (if due ∧ r.stage = .onVersion then σ.withdrawn f id r else σ)
        else if r.stage = .returning ∧ removed then σ.withdrawn f id r else σ
      | _, _ => σ)

/-- Nothing of a facet is under way any more: no request, copy or message of its slots but those that wait in its own handler region,
no entry of the sequencer or of a queue, no handler. -/
def State.drainedSave (s : State) (f : Nat) : Bool :=
  let x := s.facet f
  let mine := fun (a : Agent) => match a with | .slot g _ => g == f | _ => false
  !(s.reqs.any fun (_, r) => mine r.who) && !(s.copies.any fun (_, c) => c.f == f) &&
    !(s.flights.any fun (id, w) => mine w.who && !(w.entered && x.divMsgs.any (·.id == id))) &&
    x.seqQ.isEmpty && x.inflight.isEmpty && x.mq0.entries.isEmpty && x.mq1.entries.isEmpty && x.taskSlots.all (fun n => (x.slot n).park.isNone) &&
    (match (x.slot 15).job with | .handler _ _ _ => false | _ => true) && x.winFpx.isEmpty

/-- Step 7: slots and local store are free, the grant and the bindings end; a remainder that a slot held goes back to its prism. -/
def State.freeSaved (s : State) (f : Nat) : State :=
  let s : State := ((s.facet f).slots.filter fun (kn : Nat × Slot) => kn.2.heldFor.isSome).foldl (fun s (n, sl) =>
    let s : State := match sl.rem, sl.heldFor with
      | some (a, b), some (c, seq) =>
        s.modPrism (prismOf f) fun x => { x with ranges := x.ranges ++ [{ c := c, seq := seq, lo := a, hi := b }] }
      | _, _ => s
    s.setSlot f n { stalls := sl.stalls, sdc := { grp := sl.sdc.grp, pair := sl.sdc.pair } }) s
  let s := s.modFacet f fun x =>
    { x.regrant 0 with kept := false, reserved := 0, unmet := 0, v := [], streams := [], sb := [],
                       parked := [], ls := [], mq0 := { x.mq0 with bind := none, waiting := none }, mq1 := { x.mq1 with bind := none, waiting := none } }
  s.endBindings f

/-- Steps 5 to 7, once the facet has drained and its dirty lines are written back. -/
def State.finishSave (s : State) (f : Nat) : State :=
  let x := s.facet f
  let slots : KMap Slot := x.taskSlots.map fun n =>
    let sl := (x.slot n).showMx 3
    (n, { sl with rem := none, th := { sl.th with lat := [] } })
  let t := x.stash.getD {}
  let here := fun (n : Nat) => x.taskSlots.contains n
  let mine := fun (a : Agent) => match a with | .slot _ n => here n | _ => false
  let t : Stash := { t with mq0 := t.mq0.filter (fun e => here e.slot), mq1 := t.mq1.filter (fun e => here e.slot),
                            reqs := t.reqs.filter (fun kr => mine kr.2.who), refused := t.refused.filter fun kw => mine kw.2.who }
  let t : Stash := { t with slots := slots, bind0 := x.mq0.bind, bind1 := x.mq1.bind, streams := x.streams, v := x.v, grant := x.grant,
                                          kept := x.kept }
  let s := s.writeArea f t
  let s := (s.modFacet f fun x => { x with stash := some t, save := .idle }).freeSaved f
  s.raisePre x.saveCore

/-- SAVE_DRAIN_END, R358. -/
def execSaveDrainEnd (f : Nat) (σ : State) : Out :=
  σ.whenDue (.saveDrainEnd f) fun σ =>
    if (σ.facet f).save ≠ .draining then σ
    else
      let stop := fun (σ : State) (n : Nat) => (if (σ.slot f n).park.isSome then σ.stopSlot f n else σ).rewindLoop f n
      let σ := ((σ.facet f).taskSlots.foldl stop σ).stashRefused f
      if !σ.drainedSave f then σ
      else match σ.writeBackAll (prismOf f) (((σ.facet f).dirtied).map fun (a, l) => a * 2 ^ 55 + l) with
        | none => σ.askStuck (prismOf f)
        | some σ => σ.finishSave f

/-! The resume (R360). -/

/-- A halted slot as it goes on (R409, R414). -/
def Slot.resumed (sl : Slot) (skip : Bool) : Slot :=
  { sl with trap := none, held := none, fpx := false,
            sdc := { sl.sdc with skip := skip && sl.sdc.skip, held := false, haltReq := none, wish := none } }

/-- What a debugger has asked of a saved slot takes effect (R361). -/
def Slot.granted (sl : Slot) : Slot :=
  match sl.sdc.wish with
  | none => sl
  | some step => let y := sl.resumed true; { y with sdc := { y.sdc with stepping := if step then some false else none } }

/-- A reader that was withdrawn is sent to its slice again, which accepts, parks or refuses it like any other (R86): its instruction has
retired. -/
def State.sendReader (s : State) (f id : Nat) (r : Req) : State :=
  let n := match r.who with | .slot _ n => n | _ => 0
  let lock : List SbEntry := match r.op with
    | .vget _ la _ _ =>
      [{ op := id, slot := n, kind := .vget, dir := false, laddr := la, len := (s.tileSizeAt r.ctx r.va).getD 0, gaddr := r.va }]
    | _ => []
  let s := s.modFacet f fun x => { x with sb := x.sb ++ lock }
  if s.whereIs r.va = .here then (s.setReq id { r with stage := .sent, again := true }).pushDue (.acceptance id noAnswer)
  else s.setReq id { r with stage := .returning }

/-- The entry of a task is still unretired. -/
def State.unretired (s : State) (sl : Slot) : Bool :=
  match sl.owner with
  | some (c, seq) => (s.entry c seq).isSome
  | none => false

/-- The saved slots that are restored: VALID in their record, and of an unretired entry. -/
def State.validSlots (s : State) (a : Nat) (t : Stash) : KMap Slot :=
  t.slots.filter fun (n, sl) => s.hbmRead (a + 0x400 + 1024 * n + 0xFE) 1 % 2 == 1 && s.unretired sl

/-- The local store of a slot is read back from the area. -/
def State.readLs (s : State) (f a : Nat) (sl : Slot) : State :=
  let words := (List.range (sl.lsize / 4)).map fun i =>
    let w := sl.lb / 4 + i
    let fe := s.hbmRead (a + 0x128000 + w / 4) 1 / 4 ^ (w % 4)
    (w, ({ data := BitVec.ofNat 32 (s.hbm32 (a + 0xE8000 + 4 * w)), empty := fe % 2 == 1, taint := fe / 2 % 2 == 1 } : LsWord))
  s.modFacet f fun x => words.foldl (fun x (iw : Nat × LsWord) => x.setWord iw.1 iw.2) x

/-- What the header of a save area holds (R359): the grant, the contexts of the queues whose accumulators were saved, and how many records
and handler messages there are. -/
structure SaveHead where
  grant : Nat
  bind0 : Option Nat
  bind1 : Option Nat
  nreq  : Nat
  nh    : Nat

/-- The header of a save area; a grant is at most 256 lanes in multiples of 8 (R255). -/
def State.readHead (s : State) (a : Nat) : SaveHead :=
  let qb := s.hbmRead (a + 0x0A) 1
  let q := fun i => if qb / 2 ^ i % 2 = 1 then some (s.hbmRead (a + 0x12 + i) 1 % 64) else none
  { grant := min 256 (s.hbmRead (a + 0x08) 2 / 8 * 8), bind0 := q 0, bind1 := q 1, nreq := min 4096 (s.hbmRead (a + 0x0C) 4),
    nh := s.hbmRead (a + 0x10) 2 }

/-- A binding to an engine with its accumulators as the area holds them, which has no place for their taint. -/
def State.readAcc (s : State) (a c engine : Nat) (old : Option Binding) : Binding :=
  { engine := engine, ctx := c,
    acc := (List.range 8).map fun j =>
      (j, { bits := BitVec.ofNat 131072 (s.hbmRead (a + 16384 * j) 16384), taint := (kget {} ((old.map Binding.acc).getD []) j).taint }) }

/-- The contents of the lanes as the area holds them. -/
def State.readLanes (s : State) (a lanes : Nat) (t : Stash) : KMap VReg :=
  ((List.range 272).map fun k => (k, rereadReg t.v (fun j k => s.hbm32 (a + 0x68000 + 2048 * j + 4 * k)) lanes k)).filter fun kv => kv.2 != {}

/-- The engines that a resume needs, where they are free. -/
def State.enginesFor (s : State) (f : Nat) (h : SaveHead) : Option (List Nat) :=
  let free := (List.range 4).filter fun e => !(s.enginesUsed (prismOf f)).contains e
  if h.bind0.isSome.toNat + h.bind1.isSome.toNat ≤ free.length then some free else none

/-- The grant of a saved facet with its lanes, and its queues with their bindings and entries, are restored (R360 steps 1 and 2). -/
def State.restoreFacet (s : State) (f a : Nat) (t : Stash) (h : SaveHead) (alive : Nat → Bool) (engines : List Nat) : State :=
  let bind0 := h.bind0.map fun c => s.readAcc (a + 0x28000) c (engines[0]?.getD 0) t.bind0
  let bind1 := h.bind1.map fun c => s.readAcc (a + 0x48000) c ((engines[h.bind0.isSome.toNat]?).getD 0) t.bind1
  let stays := fun (e : MxEntry) => alive e.slot
  let v := s.readLanes a h.grant t
  s.modFacet f fun x =>
    { x with grant := h.grant, kept := t.kept, reserved := 0, unmet := 0, v := v, streams := t.streams.filter (fun (_, st) => alive st.slot),
             mq0 := { x.mq0 with entries := t.mq0.filter stays, bind := bind0, boundAt := x.cyc },
             mq1 := { x.mq1 with entries := t.mq1.filter stays, bind := bind1, boundAt := x.cyc } }

/-- An item of the request list is sent again (R360 step 4): a late report is pending already. -/
def State.sendListed (s : State) (f : Nat) : Listed → State
  | .req id r => s.sendReader f id r
  | .msg id w => (({ s with flights := kset id w s.flights }).modCnt w.who Counts.addSt).pushDue (.messageResend id)
  | .late _ => s

/-- Steps 1 to 6 of a resume, its lanes and engines being free. -/
def State.finishResume (s : State) (k f a : Nat) (t : Stash) (h : SaveHead) (engines : List Nat) : State :=
  let keep := s.validSlots a t
  let alive := fun (n : Nat) => keep.any (·.1 == n)
  let list := readBytes s.mem (a + 0x8000) (32 * h.nreq)
  let slots : KMap Slot := keep.map fun (n, sl) =>
    let late := (t.reread list h.nreq n).filterMap fun i => match i with | .late r => some r | _ => none
    (n, { sl.restored (readBytes s.mem (a + 0x400 + 1024 * n) 1024) with late := late })
  let items := keep.flatMap fun (n, _) => t.reread list h.nreq n
  let div := rereadMsgs ((s.facet f).divMsgs.take h.nh) (readBytes s.mem (a + 0x5000) 4096)
  let s : State := t.slots.foldl (fun s (n, sl) => if alive n then s else s.killSaved f n sl) s
  let s : State := slots.foldl (fun s (_, sl) => s.readLs f a sl) s
  let s := s.restoreFacet f a t h alive engines
  let old := (s.facet f).slots
  let s : State := slots.foldl (fun s (n, sl) =>
    let was := kget {} old n
    s.setSlot f n { sl.granted with stalls := was.stalls, sdc := { sl.granted.sdc with grp := was.sdc.grp, pair := was.sdc.pair }, wakeAt := 0 }) s
  let s := (s.mxWaits f false).mxWaits f true
  let s : State := items.foldl (fun s i => s.sendListed f i) s
  let s : State := s.modFacet f fun x => { x with stash := none, save := .idle, diverting := false, divMsgs := [] }
  let s : State := div.foldl (fun s m => (s.enqueue f 15 m).getD (s.modSlot f 15 fun x => { x with spill := x.spill ++ [m] })) s
  let s : State := keep.foldl (fun s (n, _) => s.modSlot f n fun x =>
    { x with mbox := (x.mbox ++ x.spill).take 8, spill := (x.mbox ++ x.spill).drop 8 }) s
  (((s.endBindings f).serviceDue f).areaStatus f a 5).raisePre k

/-- Lanes of a resume are free: of those kept for DET tasks, or free and reserved ones (R257). -/
def State.lanesFor (s : State) (f : Nat) (t : Stash) (h : SaveHead) : Bool :=
  if t.kept then 32 ≤ s.keptFree (prismOf f) else h.grant ≤ s.lanesFree (prismOf f) + (s.facet f).reserved

/-- A resume goes on, or waits: for a claim of lanes that others meet at their re-negotiation points, or for an engine. -/
def State.tryResume (s : State) (k f a : Nat) : State :=
  match (s.facet f).stash with
  | none => s
  | some t =>
    let h := s.readHead a
    match s.lanesFor f t h, s.enginesFor f h with
    | true, some es => s.finishResume k f a t h es
    | ok, _ =>
      let s := if ok || t.kept then s else s.modFacet f fun x => { x with unmet := h.grant - x.reserved }
      s.inTicks 16 (.spreResume k f a)

/-- A facet may read a whole save area (R402). -/
def State.areaReadable (s : State) (w : Bool) (a : Nat) : Bool := (List.range 0x12C).all fun i => s.mayTouch w (a + 4096 * i)

/-- SPRE_RESUME, R360; a facet outside the core's partition is refused as a mismatch is (log 37). -/
def execSpreResume (k f save : Nat) (σ : State) : Out :=
  σ.whenDue (.spreResume k f save) fun σ =>
    let x := σ.facet f
    let w := (σ.prism (prismOf f)).world
    let readable := σ.areaReadable w save && σ.hbmRead (save + 4) 2 == f
    match x.save with
    | .restoring => if x.saveArea = save then σ.tryResume k f save else σ.refuseSave k f save
    | .draining => σ.refuseSave k f save
    | .idle =>
      if !σ.facetOf k f ∨ x.stash.isNone ∨ x.holdsTask ∨ !readable then σ.refuseSave k f save
      else
        let σ := (σ.areaStatus f save 4).modFacet f fun x => { x with save := .restoring, saveArea := save, saveCore := k }
        σ.tryResume k f save

end Sys2Proof.Machine
end

