-- ==== Sys2Proof/Machine/Debug.lean ====
section
/-! DEFINITION. The debug aperture (R404 to R406, R421 to R424), attaching, breakpoints and watchpoints (R407 to R414), halting, holding
and stepping (R415 to R420), stall accounting and trace control (R427, R429), triggers and snapshots (R430 to R434). -/

namespace Sys2Proof.Machine

/-! Outcomes and reach (R405). -/

/-- A prism, a slice, lies within the aperture's reach. -/
def State.reachesPrism (s : State) (p : Nat) : Bool :=
  ((s.partOfPrism p).map fun i => s.apParts.getLsbD i).getD false && (s.apSec || !(s.prism p).world)
def State.reachesSlice (s : State) (n : Nat) : Bool :=
  ((s.partOfSlice n).map fun i => s.apParts.getLsbD i).getD false && (s.apSec || !(s.slice n).world)

/-- A trigger channel that holds a group belongs to its context, and one that holds none to every partition (log 76). -/
def State.reachesChan (s : State) (k : Nat) : Bool :=
  let c := kget {} s.chans k
  if c.hold then s.reachable c.hctx.toNat else s.apParts != 0

/-- A snapshot block lies within reach; those of an apex and of an HBM controller belong to every partition. -/
def State.reachesBlock (s : State) (i : Nat) : Bool :=
  if i < 2048 then s.reachesPrism (prismOf i)
  else if i < 2560 then s.reachesSlice (i - 2048)
  else if i < 2576 then s.apParts != 0
  else if i < 2592 then s.parts.any fun (p, x) => s.apParts.getLsbD p && x.ports.getLsbD (i - 2576)
  else s.reachesPrism (i - 2592)

/-! Halting and resuming a slot (R409, R414 to R416, R419). -/

/-- A slot runs a task or a handler and is not halted. -/
def Slot.runs (sl : Slot) : Bool := sl.job != .vacant && sl.trap.isNone

/-- A halt request reaches a running slot (R416): one that is parked or stalled abandons its instruction; another stops at its next
boundary. Slot 15 halts without a handler too, which stops message service. -/
def State.requestHalt (s : State) (f n : Nat) (info : BitVec 8) : State :=
  let sl := s.slot f n
  if n = 15 ∧ sl.job = .vacant ∧ sl.trap.isNone then s.meetHalt f n info
  else if !sl.runs then s
  else if sl.park.isSome && s.stoppable f n then s.meetHalt f n info
  else s.modSlot f n fun x => { x with sdc := { x.sdc with haltReq := some info } }

/-- HALT; NOTHALTED where the slot is halted or holds no task. -/
def State.haltDebug (s : State) (f n : Nat) : State :=
  if (s.slot f n).runs ∨ (n = 15 ∧ (s.slot f n).trap.isNone) then s.requestHalt f n 0xFF else s.apst apNOTHALTED

/-- The held report of a slot is sent (R409): of an FPX whose collection window is open by the close of the window, with its mask. A user
handler ends with it (R316). -/
def State.sendHeld (s : State) (f n : Nat) : State :=
  let sl := s.slot f n
  match sl.held, sl.job with
  | some r, .task c seq _ _ =>
    let s := s.modSlot f n fun x => { x with held := none }
    if (s.facet f).winFpx.contains n then s else s.sendReport f n c seq r
  | some r, .handler c seq msg =>
    let t := (s.detach f n).endHandler f n msg
    if s.strange sl then t else t.sendReport f n c seq r
  | _, _ => s

/-- REL. -/
def State.relDebug (s : State) (f n : Nat) : State := if (s.slot f n).held.isSome then s.sendHeld f n else s.apst apNOTHALTED

/-- A saved slot changed. -/
def State.modSaved (s : State) (f n : Nat) (g : Slot → Slot) : State :=
  s.modFacet f fun x => { x with stash := x.stash.map fun (t : Stash) => { t with slots := t.slots.map fun (ks : Nat × Slot) =>
    if ks.1 = n then (n, g ks.2) else ks } }

/-- A halted slot goes on at its pc (R409, R414): its report is discarded; by RUN or a step, `skip`, its first instruction skips the checks
that SDC.SKIP says. -/
def State.resumeSlot (s : State) (f n : Nat) (skip : Bool) : State :=
  (s.modSlot f n fun x => x.resumed skip).modFacet f fun x => { x with winFpx := sdel n x.winFpx }

/-- RUN. -/
def State.runDebug (s : State) (f n : Nat) : State :=
  if (s.slot f n).trap.isSome then s.resumeSlot f n true else s.apst apNOTHALTED

/-- STEP; of a saved slot it waits for the resume (R361). -/
def State.stepDebug (s : State) (f n : Nat) : State :=
  if (s.slot f n).trap.isSome then
    (s.resumeSlot f n true).modSlot f n fun x => { x with sdc := { x.sdc with stepping := some false } }
  else if (s.slot f n).job = .vacant ∧ (kget {} (s.facet f).savedSlots n).trap.isSome then
    s.modSaved f n fun x => { x with sdc := { x.sdc with wish := some true } }
  else s.apst apNOTHALTED

/-- An action on a slot, where the slot lies within reach. -/
def State.onReach (s : State) (f n : Nat) (g : State → State) : State :=
  if 2048 ≤ f ∨ 16 ≤ n then s.apst apBADADDR else if !s.reachesPrism (prismOf f) then s.apst apDENIED else g (s.apst 0)

/-- HALT, R416. -/
def execHalt (f n : Nat) (σ : State) : Out := .next (σ.onReach f n fun σ => σ.haltDebug f n)
/-- REL, R409. -/
def execRel (f n : Nat) (σ : State) : Out := .next (σ.onReach f n fun σ => σ.relDebug f n)
/-- RUN, R415. -/
def execRun (f n : Nat) (σ : State) : Out := .next (σ.onReach f n fun σ => σ.runDebug f n)
/-- STEP, R419. -/
def execStep (f n : Nat) (σ : State) : Out := .next (σ.onReach f n fun σ => σ.stepDebug f n)

/-! Hold groups (R418). -/

/-- A slot with a context's work belongs to a group of a set. -/
def Slot.memberOf (sl : Slot) (c : Nat) (g : BitVec 16) : Bool :=
  (sl.owner.map Prod.fst) == some c && sl.sdc.memb && g.getLsbD sl.sdc.grp.toNat

/-- The slots of a context that belong to a group of a set, and the saved ones. -/
def State.members (s : State) (c : Nat) (g : BitVec 16) : List (Nat × Nat) :=
  s.facets.flatMap fun (f, x) => x.slots.filterMap fun (n, sl) => if sl.memberOf c g then some (f, n) else none
def State.savedMembers (s : State) (c : Nat) (g : BitVec 16) : List (Nat × Nat) :=
  s.facets.flatMap fun (f, x) => x.savedSlots.filterMap fun (n, sl) => if sl.memberOf c g then some (f, n) else none

/-- HSET: every member's HELD bit is set, and a halt request is sent to it, which a saved one meets when it is resumed. -/
def State.holdGroups (s : State) (c : Nat) (g : BitVec 16) : State :=
  let s : State := (s.members c g).foldl
    (fun s (f, n) => (s.modSlot f n fun x => { x with sdc := { x.sdc with held := true } }).requestHalt f n 0xFF) s
  let s : State := (s.savedMembers c g).foldl (fun s (f, n) => s.modSaved f n fun x =>
    { x with sdc := { x.sdc with held := true, haltReq := if x.trap.isNone then some 0xFF else x.sdc.haltReq } }) s
  s.modCtx c fun x => { x with dbg := { x.dbg with hstat := x.dbg.hstat ||| g } }

/-- The hold of a slot's group is gone, and its request where it has not been met yet. -/
def Slot.letGo (sl : Slot) : Slot :=
  { sl with sdc := { sl.sdc with held := false, haltReq := if sl.sdc.held && sl.sdc.haltReq == some 0xFF then none else sl.sdc.haltReq } }

/-- HCLR: every member goes on that is halted with HELD set, which a halt for another cause has cleared; a saved one when it is resumed. -/
def State.releaseGroups (s : State) (c : Nat) (g : BitVec 16) : State :=
  let s : State := (s.members c g).foldl (fun s (f, n) =>
    let sl := s.slot f n
    if sl.trap.isSome && sl.sdc.held then s.resumeSlot f n false else s.modSlot f n Slot.letGo) s
  let s : State := (s.savedMembers c g).foldl (fun s (f, n) => s.modSaved f n fun x =>
    if x.trap.isSome && x.sdc.held then { x.letGo with sdc := { x.letGo.sdc with wish := some false, skip := false } } else x.letGo) s
  s.modCtx c fun x => { x with dbg := { x.dbg with hstat := x.dbg.hstat &&& ~~~g } }

/-- An action on a context's debug block, where the context lies within reach. -/
def State.onCtx (s : State) (c : Nat) (g : State → State) : State :=
  if 64 ≤ c then s.apst apBADADDR else if !s.reachable c then s.apst apDENIED else g (s.apst 0)

/-- HSET, R418. -/
def execHset (c : Nat) (g : BitVec 16) (σ : State) : Out := .next (σ.onCtx c fun σ => σ.holdGroups c g)
/-- HCLR, R418. -/
def execHclr (c : Nat) (g : BitVec 16) (σ : State) : Out := .next (σ.onCtx c fun σ => σ.releaseGroups c g)

/-- The slots that run a context's work. -/
def State.slotsOf (s : State) (c : Nat) : List (Nat × Nat) :=
  s.facets.flatMap fun (f, x) => x.slots.filterMap fun (n, sl) => if (sl.owner.map Prod.fst) = some c then some (f, n) else none

/-- A halt that the debugger made: by a breakpoint, a watchpoint, a hold, a halt request, a step or HTS. -/
def TrapRec.byDebugger (t : TrapRec) : Bool := t.cause == cBKPT || t.cause == cWATCH || t.cause == cSTEP

/-- The hold, and a request of HTS, of a slot are gone. -/
def Slot.detached (sl : Slot) : Slot :=
  let x := sl.letGo
  { x with sdc := { x.sdc with haltReq := if x.sdc.haltReq = some 0xFE then none else x.sdc.haltReq } }

/-- A saved slot of a detached context: it goes on when it is resumed, or its claimed report is sent. -/
def State.detachSaved (s : State) (f n : Nat) (sl : Slot) : State :=
  let s := s.modSaved f n Slot.detached
  match sl.trap, sl.held, sl.owner with
  | some t, some r, some (c, seq) =>
    if t.byDebugger then s.modSaved f n fun x => { x with sdc := { x.sdc with wish := some false } }
    else (s.modSaved f n fun x => { x with held := none }).sendReport f n c seq r
  | some t, _, _ => if t.byDebugger then s.modSaved f n fun x => { x with sdc := { x.sdc with wish := some false } } else s
  | _, _, _ => s

/-- ATT is cleared (R408): what the debugger halted goes on, claimed reports are sent, and the hold groups are cleared. -/
def State.detachDebug (s : State) (c : Nat) : State :=
  let s := s.modCtx c fun x => { x with dbg := { x.dbg with att := false, hstat := 0 } }
  let saved := s.facets.flatMap fun (f, x) => x.savedSlots.filterMap fun (n, sl) =>
    if (sl.owner.map Prod.fst) = some c then some (f, n, sl) else none
  let s : State := (s.slotsOf c).foldl (fun s (f, n) =>
    let s : State := match (s.slot f n).trap with
      | some t => if t.byDebugger then s.resumeSlot f n true else s.sendHeld f n
      | none => s
    s.modSlot f n Slot.detached) s
  saved.foldl (fun s (f, n, sl) => s.detachSaved f n sl) s

/-- DETACH, R408. -/
def execDetach (c : Nat) (σ : State) : Out := .next (σ.onCtx c fun σ => if (σ.ctx c).dbg.att then σ.detachDebug c else σ)

/-! Breakpoints and watchpoints (R411, R413). -/

/-- A slot is at a boundary, about to issue. -/
def State.aboutToIssue (s : State) (f n : Nat) : Bool :=
  (s.slot f n).candidate (s.facet f).cyc && (s.facet f).save != .draining && (s.slot f n).late.isEmpty

/-- BREAKPOINT_MATCH, R411. A breakpoint that halts does so before its instruction issues; the counts and events of others
belong to the issue itself. -/
def execBreakpointMatch (f n : Nat) (σ : State) : Out :=
  .next (if σ.aboutToIssue f n then (match σ.breakSlot f n with | (σ', true) => σ' | _ => σ) else σ)

/-- A watchpoint of a slot's context that halts, and the byte it watches. -/
def State.watches (s : State) (c j : Nat) (a : Nat) : Bool :=
  let d := (s.ctx c).dbg
  let w := kget 0 d.wpc j
  let p := kget 0 d.wpa j
  let base := if bitAt w 3 then fieldAt p 0 18 else p.toNat
  let len := if fieldAt w 32 16 = 0 then 1 else fieldAt w 32 16
  d.att && bitAt w 0 && !bitAt w 4 && fieldAt w 48 16 ≤ 1 && base ≤ a && a < base + len

/-- WATCHPOINT_MATCH, R413. The instruction at a slot's boundary touches byte a, as the step says: the slot halts before the
access is sent. -/
def execWatchpointMatch (f n j a : Nat) (σ : State) : Out :=
  .next (match (σ.slot f n).owner with
    | some (c, _) =>
      if j < 4 ∧ σ.aboutToIssue f n ∧ !(σ.slot f n).sdc.skip ∧ σ.watches c j a then
        σ.haltSlot f n { cause := cWATCH, dbg := true, pc := (σ.slot f n).th.pc, addr := BitVec.ofNat 64 a, info := BitVec.ofNat 64 j }
      else σ
    | none => σ)

/-! The memory port (R424). -/

/-- An access of the port starts: a misaligned address is BADADDR, one of no device NOMAP; at an address of another device it is served there,
and this device goes on with the answer (log 13). -/
def State.portStart (s : State) (c : Nat) (wr : Bool) : State :=
  let s := { s with dmctx := BitVec.ofNat 6 c, dmwr := wr, dmTaint := false, reqs := s.reqs.filter fun (kr : Nat × Req) => !kr.2.op.isPort }
  if s.dmva.toNat % 8 ≠ 0 then { s with dmdata := if wr then s.dmdata else 0 }.apst apBADADDR
  else match s.whereIs s.dmva with
    | .here => let (r, s) := s.portAt c s.dmva wr s.dmdata; s.portEnds wr r
    | .device _ => (s.newReq (.peer (s.dev * 0x8000)) c s.dmva 0 (.port wr s.dmdata)).2
    | .nowhere => s.portEnds wr (.error cNOMAP)

/-- MEMORY_PORT_READ, R424. -/
def execMemoryPortRead (c : Nat) (σ : State) : Out := .next (σ.onCtx c fun σ => σ.portStart c false)
/-- MEMORY_PORT_WRITE, R424. -/
def execMemoryPortWrite (c : Nat) (σ : State) : Out := .next (σ.onCtx c fun σ => σ.portStart c true)

/-! Stall accounting (R427). -/

/-- CLR. -/
def State.clearCounters (s : State) (f : Nat) : State :=
  s.modFacet f fun x => { x with hist := [], slots := x.slots.map fun (ks : Nat × Slot) => (ks.1, { ks.2 with stalls := [] }) }

/-- An action on a facet window, where the facet lies within reach. -/
def State.onFacet (s : State) (f : Nat) (g : State → State) : State :=
  if 2048 ≤ f then s.apst apBADADDR else if !s.reachesPrism (prismOf f) then s.apst apDENIED else g (s.apst 0)

/-- CLR, R427. -/
def execClr (f : Nat) (σ : State) : Out := .next (σ.onFacet f fun σ => σ.clearCounters f)

/-! Triggers (R430 to R433). -/

def State.chan (s : State) (k : Nat) : Chan := kget {} s.chans k
def State.setChan (s : State) (k : Nat) (c : Chan) : State := { s with chans := kset k c s.chans }

/-- TSW, R432. -/
def execTsw (k : Nat) (σ : State) : Out :=
  .next (if 32 ≤ k then σ.apst apBADADDR else if !σ.reachesChan k then σ.apst apDENIED else (σ.apst 0).emit (eventName 5 k))

/-- TIME_BASE_COMPARE, R431. -/
def execTimeBaseCompare (k : Nat) (σ : State) : Out := σ.whenDue (.timeBaseCompare k) fun σ => σ.emit (eventName 6 k)

/-- TEST_PORT_TRIGGER, R431. -/
def execTestPortTrigger (σ : State) : Out := .next (σ.emit (eventName 1 0))

/-- A trigger record of tick `ts` of every facet that traces them (R428). -/
def State.traceTrigger (s : State) (k ts : Nat) : State :=
  let put := fun (x : Facet) =>
    if x.trace.en && x.trace.kinds.getLsbD 6 then
      { x with trace := x.trace.record ts 0 (traceRecord ts 7 0 0 0 (BitVec.ofNat 64 k)) }
    else x
  { s with facets := s.facets.map fun (kx : Nat × Facet) => (kx.1, put kx.2) }

/-- The start of a channel is forwarded by every port that works and whose WFWD names it (R443). -/
def State.forwardStart (s : State) (k ts : Nat) : State :=
  let out := (List.range 16).filter fun p => (kget 0 s.wfwd p).getLsbD k && (kget {} s.ports p).trained
  { s with trgs := s.trgs ++ out.map fun p => (p, k, ts) }

/-- Channel k starts in tick `ts`, its actions following n ticks later (R430, R433, R443); a disabled channel does not, and neither does one
that was running in that tick. A stop event of that tick, or one that has come since, then stops it. -/
def State.startChannel (s : State) (k ts n : Nat) (late : Bool) : State :=
  let c := s.chan k
  if c.run ∨ !c.en ∨ (c.past.any fun w => decide (w.1 ≤ ts) && decide (ts ≤ w.2)) then s
  else
    let s := (s.setChan k { c with run := true, tbeg := BitVec.ofNat 64 ts }).forwardStart k ts
    let s := (({ s with actions := s.actions ++ [(ts + n, k, true, late)] }).traceTrigger k ts).emitAt (eventName 7 k) ts
    match kfind c.stopev.toNat s.events with
    | some t => if ts ≤ t then s.pushDue (.channelStop k) else s
    | none => s

/-- Channel k stops in tick `ts`. -/
def State.stopChannel (s : State) (k ts n : Nat) (late : Bool) : State :=
  let c := s.chan k
  if !c.run then s
  else
    let past := (c.past.filter fun w => decide (s.tick ≤ w.2 + 128)) ++ [(c.tbeg.toNat, ts)]
    let s := s.setChan k { c with run := false, tend := BitVec.ofNat 64 ts, en := c.en && !c.once, past := past }
    { s with actions := s.actions ++ [(ts + n, k, false, late)] }

/-- CHANNEL_START, R433: the channel starts in the tick of its start event. -/
def execChannelStart (k : Nat) (σ : State) : Out :=
  σ.whenDue (.channelStart k) fun σ => σ.startChannel k (σ.eventTick (σ.chan k).startev) 64 false
/-- CHANNEL_STOP, R433: the channel stops in the tick of its stop event. -/
def execChannelStop (k : Nat) (σ : State) : Out :=
  σ.whenDue (.channelStop k) fun σ => σ.stopChannel k (σ.eventTick (σ.chan k).stopev) 64 false

/-! Snapshots (R434). -/

/-- STATE of SDC (R415). -/
def Slot.state (sl : Slot) : Nat :=
  if sl.trap.isSome then 1 else if sl.job = .vacant then 3 else if sl.sdc.stepping.isSome then 2 else 0

/-- What facet f latches: of its slots PC, the stall class with STATE in the byte above it (log 76) and counts, lanes, and the entries in use
of its sequencer, queues and scoreboard. -/
def State.facetSnapped (s : State) (f : Nat) (x : Facet) : KMap Word :=
  let n := fun (v : Nat) => BitVec.ofNat 64 v
  ((List.range 16).map fun s => (0x10 + 16 * s, (x.slot s).th.pc)) ++
    ((List.range 16).map fun i => (0x18 + 16 * i, n (s.waitClass f i + 256 * (x.slot i).state))) ++ ((List.range 16).map fun s => (0x110 + 8 * s, (x.slot s).cnt.packed)) ++
    [(0x190, n x.grant), (0x198, n (x.seqQ.map fun i => i.body.length).sum), (0x1A0, n x.mq0.entries.length), (0x1A8, n x.mq1.entries.length),
     (0x1B0, n x.sb.length)]

/-- What a slice latches, walks in flight apart. -/
def Slice.snapped (x : Slice) : KMap Word :=
  let n := fun (v : Nat) => BitVec.ofNat 64 v
  [(0x18, n x.parkq.length), (0x20, n x.versions.length), (0x28, n x.hold.length), (0x30, n x.freeFrames), (0x38, (zext64 x.mgerr <<< 8) ||| zext64 x.mgst)]

/-- What an apex latches: for each context, USED, FLT and NSEQ. -/
def State.apexSnapped (s : State) : KMap Word :=
  s.ctxs.filterMap fun (c, x) =>
    if c < 64 then
      some (0x10 + 8 * c, (x.nseq ++ 0#22 ++ bit (match x.phase with | .none => false | _ => true) ++ BitVec.ofNat 9 x.window.length))
    else none

/-- What a Walush port latches of link state, flits sent, flits received and retries: the first, 1 where it works, and the last. -/
def Port.snapped (p : Port) : KMap Word := [(0x10, zext64 (bit p.trained)), (0x28, BitVec.ofNat 64 p.retried)]

/-- Every block of the device copies its state in one tick. -/
def State.latch (s : State) (ch : Nat) (late : Bool) : State :=
  let regs : KMap (KMap Word) :=
    (s.facets.map fun (f, x) => (f, s.facetSnapped f x)) ++ (s.slices.map fun (n, x) => (2048 + n, x.snapped)) ++
      ((List.range 4).map fun a => (2560 + a, s.apexSnapped)) ++
      ((List.range 12).map fun h => (2564 + h, let e := kget (0, 0) s.errs (2564 + h)
        [(0x20, BitVec.ofNat 64 e.1), (0x28, BitVec.ofNat 64 e.2)])) ++
      (s.ports.map fun (p, x) => (2576 + p, x.snapped))
  { s with snap := { seq := s.snap.seq + 1, ch := BitVec.ofNat 8 ch, late := late, v := true, ts := BitVec.ofNat 64 s.tick, regs := regs } }

/-- The words of a snapshot that tell of what the model does not hold (log 7): walks in flight of a slice, queue depths of an HBM controller,
flits of a port, occupancy of a router's ports. -/
def snapOpen (i off : Nat) : Bool :=
  if 2048 ≤ i ∧ i < 2560 then off == 0x10
  else if 2564 ≤ i ∧ i < 2576 then off == 0x10 || off == 0x18
  else if 2576 ≤ i ∧ i < 2592 then off == 0x18 || off == 0x20
  else decide (2592 ≤ i) && decide (0x10 ≤ off) && decide (off < 0x38)

/-- A register of a snapshot block; none where no register lies. -/
def State.snapReg (s : State) (i off : Nat) : Option Word :=
  let x := s.snap
  let n := if i < 2048 then 0x1B8 else if i < 2560 then 0x40 else if i < 2564 then 0x210 else if i < 2592 then 0x30 else 0x38
  if off = 0 then some (x.seq ++ 0#16 ++ x.ch ++ 0#6 ++ bit x.late ++ bit x.v)
  else if off = 8 then some x.ts
  else if n ≤ off then none
  else if !x.v then some 0
  else if snapOpen i off then some (Config.snapWord x.seq.toNat i off)
  else some (kget 0 (kget [] x.regs i) off)

/-- The actions of channels that fall in this tick (R430, R433): holds, then snapshots, one for each channel. -/
def State.act (s : State) : State :=
  let now := s.actions.filter fun a => a.1 ≤ s.tick
  if now.isEmpty then s
  else
    let s := { s with actions := s.actions.filter fun a => s.tick < a.1 }
    let s : State := now.foldl (fun s (_, k, start, _) =>
      let c := s.chan k
      if start && c.hold then s.holdGroups c.hctx.toNat (1#16 <<< c.hg.toNat) else s) s
    let due := now.filter fun (_, k, start, _) => let c := s.chan k; if start then c.snps else c.snpe
    let chans := (due.map fun (_, k, _, _) => k).dedup
    chans.foldl (fun s k => s.latch k (due.any fun (_, j, _, late) => j == k && late)) s

/-- n ticks of the time base pass in which nothing issues. -/
def State.elapse (s : State) : Nat → State
  | 0 => s
  | n + 1 => s.tickOn.act.elapse n

/-! The slot window (R415, R421). -/

/-- SDC as it reads. -/
def Slot.sdcWord (sl : Slot) : Word :=
  zext64 (BitVec.ofNat 2 sl.state ++ bit sl.sdc.skip ++ bit sl.sdc.held ++ sl.sdc.grp ++ bit sl.sdc.memb ++ 0#5 ++ bit sl.sdc.pair ++ 0#5)

/-- PWK. -/
def ParkKind.code : ParkKind → Nat
  | .take => 1 | .peek => 2 | .put => 3 | .bwait => 4 | .waitmsg => 5 | .resend => 6 | .accept | .sc => 7 | .quota => 8 | .vpmrg => 9
  | .spawn => 10 | .waitCnt => 11 | .mxfence => 12 | .tend => 13 | .smc => 0

/-- 8 bytes of a list of bytes as a word. -/
def wordAt (b : List Byte) (off : Nat) : Word := BitVec.ofNat 64 (fieldOf b off 8)

/-- A register of a slot window. -/
def State.slotReg (s : State) (f n off : Nat) : Option Word :=
  let sl := s.slot f n
  if off = 0 then some sl.sdcWord
  else if 0x40 ≤ off ∧ off < 0x60 then some (wordAt ((sl.trap.map (·.encoded)).getD (zeros 32)) (off - 0x40))
  else if off = 0x80 then some (BitVec.ofNat 64 ((sl.park.map (·.kind.code)).getD 0))
  else if off = 0x88 then some ((sl.park.map (·.addr)).getD 0)
  else if off = 0x90 then some (BitVec.ofNat 64 ((s.parkedCycles f n).getD (sl.rex.getD 0)))
  else if 0x100 ≤ off ∧ off < 0x200 then some (sl.th.rx (BitVec.ofNat 5 ((off - 0x100) / 8)))
  else if off = 0x200 then some (zext64 (sl.th.xt &&& ~~~1#32))
  else if off = 0x208 then some (zext64 (sl.th.p ||| 1#8))
  else if off = 0x210 then some sl.th.pc
  else if off = 0x300 then some (zext64 (sl.showMx 3).th.rnd)
  else if 0x300 ≤ off ∧ off < 0x388 then (s.slotCsr f n ((off - 0x300) / 8)).map Prod.fst
  else if 0x400 ≤ off ∧ off < 0x500 then some (wordAt ((sl.mbox.flatMap (·.encoded)) ++ zeros 256) (off - 0x400))
  else if off = 0x500 then some (BitVec.ofNat 64 (sl.spill.length * 65536 + sl.mbox.length))
  else none

/-- A write of SDC: fields, then HALT, REL, RUN, STEP. -/
def State.sdcWrite (s : State) (f n : Nat) (v : Word) : State :=
  let s := s.modSlot f n fun x => { x with sdc := { x.sdc with grp := v.extractLsb' 12 4, memb := bitAt v 11, pair := bitAt v 5 } }
  let s := if bitAt v 1 then s.haltDebug f n else s
  let s := if bitAt v 4 then s.relDebug f n else s
  let s := if bitAt v 2 then s.runDebug f n else s
  if bitAt v 3 then s.stepDebug f n else s

/-- A control register written by a debugger (R423): of stat a prefix is for the instruction at the pc, and rnd is written with the flags
that no MXFENCE has shown. -/
def Slot.debugCsr (sl : Slot) (c : Nat) (v : Word) : Slot :=
  if c = 1 then { sl with th := { sl.th with stat := v.setWidth 21, ppc := sl.th.pc } }
  else if c = 0 then { sl.setCsr c v with mxf0 := 0, mxf1 := 0 }
  else sl.setCsr c v

/-- A write of a slot window. -/
def State.slotWrite (s : State) (f n off : Nat) (v : Word) : State :=
  let halted := (s.slot f n).trap.isSome
  let put := fun (g : Slot → Slot) => if halted then s.modSlot f n g else s.apst apNOTHALTED
  let th := fun (g : Thread → Thread) => put fun x => { x with th := g x.th }
  if off = 0 then s.sdcWrite f n v
  else if 0x100 ≤ off ∧ off < 0x200 then th fun t => t.wx (BitVec.ofNat 5 ((off - 0x100) / 8)) v false
  else if off = 0x200 then th fun t => { t with xt := v.setWidth 32 &&& ~~~1#32 }
  else if off = 0x208 then th fun t => { t with p := v.setWidth 8 ||| 1#8 }
  else if off = 0x210 then put fun x => { x with th := { x.th with pc := v &&& ~~~3#64, ppc := v &&& ~~~3#64 }, sdc := { x.sdc with skip := false } }
  else if 0x300 ≤ off ∧ off < 0x388 then put fun x => x.debugCsr ((off - 0x300) / 8) v
  else s.apst apNOTHALTED

/-! The facet window (R422, R423, R427, R429). -/

/-- A scoreboard entry. -/
def SbEntry.encoded (e : SbEntry) : BitVec 128 :=
  let k : BitVec 2 := match e.kind with | .copy => 0 | .multicast => 1 | .vget => 2 | .vstore => 3
  e.gaddr ++ BitVec.ofNat 19 e.len ++ BitVec.ofNat 18 e.laddr ++ 0#17 ++ BitVec.ofNat 4 e.slot ++ k ++ bit e.dir ++ 0#2 ++ 1#1

/-- A mask of the lanes below h, 32 bits each, from lane L on: two lanes. -/
def lanePair (h l : Nat) : Word := (if l + 1 < h then 0xFFFFFFFF#64 <<< 32 else 0) ||| (if l < h then 0xFFFFFFFF#64 else 0)

/-- The accumulator of a facet window's offset, and its queue. -/
def Facet.accAt (x : Facet) (q k : Nat) : Acc := ((x.mq (q == 1)).bind.map fun b => kget {} b.acc k).getD {}

/-- 48-bit counters. -/
def counter48 (v : BitVec 48) : Word := zext64 v

/-- A register of a facet window. -/
def Facet.debugReg (x : Facet) (off : Nat) : Option Word :=
  if off < 0x40000 then some (BitVec.ofNat 64 (ofBytes (x.lsBytes off 8)))
  else if off < 0x44000 then some (BitVec.ofNat 64 (ofBytes (x.feBytes (4 * (off - 0x40000)) 8)))
  else if off < 0x44100 then
    some ((((x.sb[(off - 0x44000) / 16]?).map SbEntry.encoded).getD 0).extractLsb' (8 * ((off - 0x44000) % 16)) 64)
  else if 0x45000 ≤ off ∧ off < 0x46000 then
    let k := (off - 0x45000) % 0x100 / 8
    if k ≤ 16 then some (counter48 (kget 0 (x.slot ((off - 0x45000) / 0x100)).stalls k)) else none
  else if 0x46000 ≤ off ∧ off < 0x46088 then some (counter48 (kget 0 x.hist ((off - 0x46000) / 8)))
  else if off = 0x46100 then some (zext64 (bit x.saGate ++ 0#1 ++ bit x.saEn))
  else if off = 0x46300 then some (zext64 x.trace.base <<< 12)
  else if off = 0x46308 then some (zext64 x.trace.size)
  else if off = 0x46310 then some (x.trace.lost ++ x.trace.woff)
  else if off = 0x46318 then
    some (zext64 (bit x.trace.ctxen ++ x.trace.ctx ++ x.trace.kinds ++ 0#5 ++ bit x.trace.gate ++ bit x.trace.wrap ++ bit x.trace.en))
  else if 0x80000 ≤ off ∧ off < 0xC4000 then
    let l := (off - 0x80000) % 0x400 / 4
    some ((kget {} x.v ((off - 0x80000) / 0x400)).bits.extractLsb' (32 * l) 64 &&& lanePair x.grant l)
  else if 0xC4000 ≤ off ∧ off < 0xC6200 then
    let m := (kget {} x.v ((off - 0xC4000) / 32)).taint &&& BitVec.ofNat 256 (2 ^ x.grant - 1)
    some (m.extractLsb' (8 * ((off - 0xC4000) % 32)) 64)
  else if 0x100000 ≤ off ∧ off < 0x140000 then
    let o := off - 0x100000
    some ((x.accAt (o / 0x20000) (o % 0x20000 / 0x4000)).bits.extractLsb' (8 * (o % 0x4000)) 64)
  else if 0x140000 ≤ off ∧ off < 0x142000 then
    let o := off - 0x140000
    some ((x.accAt (o / 0x1000) (o % 0x1000 / 0x200)).taint.extractLsb' (8 * (o % 0x200)) 64)
  else none

/-- Some bits of a bit vector replaced by a word. -/
def putWord {w : Nat} (v : BitVec w) (at' : Nat) (u m : Word) : BitVec w :=
  (v &&& ~~~(m.setWidth w <<< at')) ||| ((u &&& m).setWidth w <<< at')

/-- A word of local store lies in the allocation of a halted task. -/
def Facet.haltedWord (x : Facet) (i : Nat) : Bool :=
  (List.range 15).any fun n =>
    let sl := x.slot n
    (match sl.job with | .task _ _ _ _ => true | _ => false) && sl.trap.isSome && sl.holdsRange (4 * i) 4

/-- Every slot of a facet that holds a task is halted. -/
def Facet.allHalted (x : Facet) : Bool := x.slots.all fun (_, sl) => match sl.job with | .task _ _ _ _ => sl.trap.isSome | _ => true

/-- A vector register may be written: its slot is halted, a shared one's every task. -/
def Facet.mayPutV (x : Facet) (key : Nat) : Bool := if key < 256 then (x.slot (key / 16)).trap.isSome else x.allHalted

/-- An accumulator changed. -/
def Facet.putAcc (x : Facet) (q k : Nat) (g : Acc → Acc) : Facet :=
  let m := x.mq (q == 1)
  match m.bind with
  | some b => x.setMq (q == 1) { m with bind := some { b with acc := kmod {} k g b.acc } }
  | none => x

/-- Two words of local store written by a debugger. -/
def Facet.putWords (x : Facet) (i : Nat) (v : Word) : Facet :=
  (x.setWord i { x.word i with data := v.setWidth 32 }).setWord (i + 1) { x.word (i + 1) with data := v.extractLsb' 32 32 }

/-- Full-empty and taint bits of 32 words from word i. -/
def Facet.putFe (x : Facet) (i : Nat) (v : Word) : Facet :=
  (List.range 32).foldl (fun x j => x.setWord (i + j) { x.word (i + j) with empty := bitAt v (2 * j), taint := bitAt v (2 * j + 1) }) x

/-- A write of a facet window. -/
def State.facetWrite (s : State) (f off : Nat) (v : Word) : State :=
  let x := s.facet f
  let fail := s.apst apNOTHALTED
  if off < 0x40000 then
    if x.haltedWord (off / 4) && x.haltedWord (off / 4 + 1) then (s.setFacet f (x.putWords (off / 4) v)).retest f else fail
  else if off < 0x44000 then
    let i := 4 * (off - 0x40000)
    let changed := (List.range 32).filter fun j =>
      (x.word (i + j)).empty != bitAt v (2 * j) || (x.word (i + j)).taint != bitAt v (2 * j + 1)
    if changed.all fun j => x.haltedWord (i + j) then (s.setFacet f (x.putFe i v)).retest f else fail
  else if off < 0x46100 then fail
  else if off = 0x46100 then
    let s := if bitAt v 1 then s.clearCounters f else s
    s.modFacet f fun x => { x with saEn := bitAt v 0, saGate := bitAt v 2 }
  else if off = 0x46300 then s.setFacet f { x with trace := { x.trace with base := v.extractLsb' 12 32 } }
  else if off = 0x46308 then s.setFacet f { x with trace := { x.trace with size := v.setWidth 20 } }
  else if off = 0x46310 then s
  else if off = 0x46318 then
    let t := x.trace
    s.setFacet f { x with trace := { t with ctxen := bitAt v 22, ctx := v.extractLsb' 16 6, kinds := v.extractLsb' 8 8,
                                            gate := bitAt v 2, wrap := bitAt v 1, en := bitAt v 0,
                                            lost := if bitAt v 0 && !t.en then 0 else t.lost } }
  else if off < 0xC4000 then
    let key := (off - 0x80000) / 0x400
    let l := (off - 0x80000) % 0x400 / 4
    if x.mayPutV key then
      s.setFacet f { x with v := kmod {} key (fun r => { r with bits := putWord r.bits (32 * l) v (lanePair x.grant l) }) x.v }
    else fail
  else if off < 0x100000 then
    let key := (off - 0xC4000) / 32
    let o := 8 * ((off - 0xC4000) % 32)
    let m := (BitVec.ofNat 256 (2 ^ x.grant - 1)).extractLsb' o 64
    if x.mayPutV key then s.setFacet f { x with v := kmod {} key (fun r => { r with taint := putWord r.taint o v m }) x.v } else fail
  else
    let data := off < 0x140000
    let o := if data then off - 0x100000 else off - 0x140000
    let q := if data then o / 0x20000 else o / 0x1000
    let k := if data then o % 0x20000 / 0x4000 else o % 0x1000 / 0x200
    if x.allHalted && (x.mq (q == 1)).entries.isEmpty then
      s.setFacet f (x.putAcc q k fun a =>
        if data then { a with bits := putWord a.bits (8 * (o % 0x4000)) v (BitVec.allOnes 64) }
        else { a with taint := putWord a.taint (8 * (o % 0x200)) v (BitVec.allOnes 64) })
    else fail

/-! The context debug block (R407 to R412, R418). -/

/-- A register of a context's debug block. -/
def DebugBlock.reg (d : DebugBlock) (off : Nat) : Option Word :=
  if off = 0 then
    some (zext64 (d.gj ++ bit d.gjen ++ 0#7 ++ bit d.hts ++ bit d.clf ++ bit d.clb ++ bit d.att))
  else if off = 8 then some (zext64 (bit d.ovf ++ bit d.hlt))
  else if 0x10 ≤ off ∧ off < 0x90 then
    let i := (off - 0x10) / 16
    some (if off % 16 = 0 then kget 0 d.iba i else kget 0 d.ibc i)
  else if 0x100 ≤ off ∧ off < 0x140 then
    let j := (off - 0x100) / 16
    some (if off % 16 = 0 then kget 0 d.wpa j else kget 0 d.wpc j)
  else if off = 0x200 then some (zext64 (d.hstat ++ 0#32))
  else if off = 0x800 then some (zext64 (d.hqTail ++ 0#2 ++ d.hqHead))
  else if 0xC00 ≤ off ∧ off < 0x1000 then
    some ((kget 0 d.hq ((off - 0xC00) / 16)).extractLsb' (8 * ((off - 0xC00) % 16)) 64)
  else none

/-- The bits of IBC and WPC that are stored. -/
def ibcMask : Word := 0x0000FFFF0000000F#64
def wpcMask : Word := 0xFFFFFFFF000FFF1F#64

/-- A write of a context's debug block. -/
def State.debugWrite (s : State) (c off : Nat) (v : Word) : State :=
  let d := (s.ctx c).dbg
  let put := fun (g : DebugBlock) => s.modCtx c fun x => { x with dbg := g }
  if off = 0 then
    let s := if d.att && !bitAt v 0 then s.detachDebug c else s
    s.modCtx c fun x =>
      { x with dbg := { x.dbg with gj := v.extractLsb' 12 4, gjen := bitAt v 11, hts := bitAt v 3, clf := bitAt v 2, clb := bitAt v 1,
                                   att := bitAt v 0 } }
  else if off = 8 then
    let ovf := d.ovf && !bitAt v 1
    let hlt := d.hlt && !bitAt v 0
    put { d with ovf := ovf, hlt := hlt, told := d.told && (ovf || hlt) }
  else if off < 0x90 then
    let i := (off - 0x10) / 16
    put (if off % 16 = 0 then { d with iba := kset i (v &&& ~~~3#64) d.iba } else { d with ibc := kset i (v &&& ibcMask) d.ibc })
  else if off < 0x140 then
    let j := (off - 0x100) / 16
    put (if off % 16 = 0 then { d with wpa := kset j v d.wpa } else { d with wpc := kset j (v &&& wpcMask) d.wpc })
  else if off = 0x200 then
    let s := if v.extractLsb' 0 16 = 0 then s else s.holdGroups c (v.extractLsb' 0 16)
    if v.extractLsb' 16 16 = 0 then s else s.releaseGroups c (v.extractLsb' 16 16)
  else if off = 0x800 then put { d with hqHead := v.setWidth 6 }
  else s

/-! Channels and aperture control (R405, R424, R432). -/

/-- A register of a trigger channel. -/
def Chan.reg (c : Chan) (off : Nat) : Option Word :=
  match off with
  | 0x00 =>
    some (zext64 (c.hg ++ 0#2 ++ c.hctx ++ bit c.run ++ bit c.once ++ bit c.en ++ bit c.gate ++ bit c.hold ++ bit c.snpe ++ bit c.snps ++ 0#1 ++
      c.stopev ++ c.startev))
  | 0x08 => some c.tts
  | 0x10 => some 0
  | 0x18 => some c.tbeg
  | 0x20 => some c.tend
  | _ => none

/-- A write of a trigger channel: it may hold a group only of a context within reach. -/
def State.chanWrite (s : State) (k off : Nat) (v : Word) : State :=
  let c := s.chan k
  match off with
  | 0x00 =>
    if bitAt v 35 ∧ !s.reachable (fieldAt v 40 6) then s.apst apDENIED
    else s.setChan k { c with hg := v.extractLsb' 48 4, hctx := v.extractLsb' 40 6, once := bitAt v 38, en := bitAt v 37, gate := bitAt v 36,
                              hold := bitAt v 35, snpe := bitAt v 34, snps := bitAt v 33, stopev := v.extractLsb' 16 16,
                              startev := v.extractLsb' 0 16 }
  | 0x08 => s.setChan k { c with tts := v }
  | 0x10 => if bitAt v 0 then s.emit (eventName 5 k) else s
  | _ => s

/-- A register of aperture control. -/
def State.controlReg (s : State) (off : Nat) : Option Word :=
  match off with
  | 0x00 => some (zext64 (bit s.apSec ++ s.apParts))
  | 0x08 => some (zext64 (bit s.apErr ++ 0#4 ++ s.apLast))
  | 0x10 => some s.dmva
  | 0x18 => some s.dmdata
  | 0x20 => some (zext64 (bit s.dmTaint ++ bit s.dmwr ++ 0#2 ++ s.dmctx))
  | 0x28 => some (BitVec.ofNat 64 s.tick)
  | _ => none

/-- A write of aperture control. -/
def State.controlWrite (s : State) (off : Nat) (v : Word) : State :=
  match off with
  | 0x08 => { s with apErr := s.apErr && !bitAt v 8 }
  | 0x10 => { s with dmva := v }
  | 0x18 => { s with dmdata := v }
  | 0x20 => s.onCtx (fieldAt v 0 6) fun s => s.portStart (fieldAt v 0 6) (bitAt v 8)
  | _ => s

/-! The debug address space (R404, R405). -/

/-- What a debug address names. -/
inductive DebugAt where
  | slot (f n off : Nat) | facet (f off : Nat) | ctx (c off : Nat) | chan (k off : Nat) | snap (i off : Nat) | control (off : Nat) | none
  deriving DecidableEq, Repr

/-- The part of the device at a debug address. -/
def debugAt (a : Nat) : DebugAt :=
  if a % 8 ≠ 0 then .none
  else if a < 0x100000000 then (if a / 0x4000 < 32768 then .slot (a / 0x4000 / 16) (a / 0x4000 % 16) (a % 0x4000) else .none)
  else if a < 0x200000000 then .facet ((a - 0x100000000) / 0x200000) ((a - 0x100000000) % 0x200000)
  else if a < 0x200040000 then .ctx ((a - 0x200000000) / 0x1000) (a % 0x1000)
  else if a < 0x210000000 then .none
  else if a < 0x210000800 then .chan ((a - 0x210000000) / 0x40) (a % 0x40)
  else if a < 0x220000000 then .none
  else if a < 0x220B20000 then .snap ((a - 0x220000000) / 0x1000) (a % 0x1000)
  else if 0x300000000 ≤ a ∧ a < 0x300001000 then .control (a - 0x300000000)
  else .none

/-- The part lies within the aperture's reach. -/
def State.debugReach (s : State) (d : DebugAt) : Bool :=
  match d with
  | .slot f _ _ | .facet f _ => s.reachesPrism (prismOf f)
  | .ctx c _ => s.reachable c
  | .chan k _ => s.reachesChan k
  | .snap i _ => s.reachesBlock i
  | .control _ | .none => true

/-- The register's value. -/
def State.debugReg (s : State) (d : DebugAt) : Option Word :=
  match d with
  | .slot f n off => s.slotReg f n off
  | .facet f off => (s.facet f).debugReg off
  | .ctx c off => (s.ctx c).dbg.reg off
  | .chan k off => (s.chan k).reg off
  | .snap i off => s.snapReg i off
  | .control off => s.controlReg off
  | .none => none

/-- A read or write of 8 bytes through the aperture: the data read is the device's answer, zero where the access fails. -/
def State.aperture (s : State) (wr : Bool) (a : Nat) (v : Word) : State :=
  let d := debugAt a
  match s.debugReg d with
  | none => { s with apData := 0 }.apst apBADADDR
  | some r =>
    if !s.debugReach d then { s with apData := 0 }.apst apDENIED
    else if !wr then { s with apData := r }.apst 0
    else
      let s := s.apst 0
      match d with
      | .slot f n off => s.slotWrite f n off v
      | .facet f off => s.facetWrite f off v
      | .ctx c off => s.debugWrite c off v
      | .chan k off => s.chanWrite k off v
      | .control off => s.controlWrite off v
      | .snap _ _ | .none => s

/-- APERTURE_ACCESS, R423. An access of another size than 8 reads as zero and writes nothing (R405), and the host's accesses
but HMST and HMCMD complete with data 0 until the bring-up is complete (R444). -/
def execApertureAccess (acc : ApAccess) (addr : BitVec 40) (data : Word) (σ : State) : Out :=
  .next (if σ.power = .up ∧ acc.size = 8 then σ.aperture acc.write addr.toNat data else { σ with apData := 0 })

/-- TEST_PORT_UPDATE, R404. The test port's data register is updated (R404): an operation is performed, and its result stands in
the register. -/
def execTestPortUpdate (v : BitVec 112) (σ : State) : Out :=
  .next (let op := (v.extractLsb' 104 2).toNat
    let σ := { σ with testPort := v &&& 0x3FFFFFFFFFFFFFFFFFFFFFFFFFF#112 }
    if op = 1 then
      let σ := σ.aperture false (v.extractLsb' 0 40).toNat 0
      { σ with testPort := 0#6 ++ v.extractLsb' 104 2 ++ σ.apData ++ v.extractLsb' 0 40 }
    else if op = 2 then σ.aperture true (v.extractLsb' 0 40).toNat (v.extractLsb' 40 64)
    else σ)

/-- APERTURE_TIMEOUT, R406. An access that finds no free cycle ends with TIMEOUT and reads as zero; one of the memory port on another device
comes to nothing. -/
def execApertureTimeout (σ : State) : Out :=
  .next ({ σ with apData := 0, reqs := σ.reqs.filter fun (kr : Nat × Req) => !kr.2.op.isPort }.apst apTIMEOUT)

end Sys2Proof.Machine
end

