-- ==== Sys2Proof/Machine/Integer.lean ====
section
/-! DEFINITION. Integer arithmetic, logic and bit manipulation: OP, OPW, OPI, OPIW, LIM and PCADD (R201 to R206). -/

namespace Sys2Proof.Machine

/-- An instruction of OP or OPW with two sources: f acts on the operands extended from width w by U, and its result is wrapped to
w and extended again (R201). -/
def intOp (σ : State) (w : Width) (u : Bool) (b a d : BitVec 5) (f : Word → Word → Word) (cycles : Nat := 1) (divides : Bool := false) : Out :=
  issue σ { reads := [a, b], writes := [d], cycles, divides } fun t =>
    retire σ (t.wx d (narrow w u (f (narrow w u (t.rx a)) (narrow w u (t.rx b)))) (t.tx a || t.tx b))

/-- An instruction of the unary group: f acts on the low w bits (R202). -/
def unaryOp (σ : State) (w : Width) (u : Bool) (a d : BitVec 5) (f : Nat → Nat) : Out :=
  issue σ { reads := [a], writes := [d] } fun t =>
    retire σ (t.wx d (narrow w u (BitVec.ofNat 64 (f (narrow w true (t.rx a)).toNat))) (t.tx a))

/-- An instruction of OPI or OPIW with an immediate (R204, R205). -/
def immOp (σ : State) (a d : BitVec 5) (f : Word → Word) : Out :=
  issue σ { reads := [a], writes := [d] } fun t => retire σ (t.wx d (f (t.rx a)) (t.tx a))

/-! The results of R201 and R203. -/

/-- A + B × k. -/
def addScaled (k : Nat) (x y : Word) : Word := x + y * BitVec.ofNat 64 k

/-- Bits [2w − 1 : w] of the exact product. -/
def mulHigh (w : Width) (u : Bool) (x y : Word) : Word :=
  if u then BitVec.ofNat 64 (x.toNat * y.toNat / 2 ^ widthBits w) else BitVec.ofInt 64 (x.toInt * y.toInt / 2 ^ widthBits w)

/-- s, the shift amount B mod w. -/
def shiftAmount (w : Width) (y : Word) : Nat := y.toNat % widthBits w

def shiftLeft (w : Width) (x y : Word) : Word := x <<< shiftAmount w y
def shiftRight (w : Width) (u : Bool) (x y : Word) : Word :=
  if u then x >>> shiftAmount w y else x.sshiftRight (shiftAmount w y)

/-- A rotated left by n within w bits. -/
def rotateBy (w : Width) (x : Word) (n : Nat) : Word :=
  let v := narrow w true x
  (v <<< n) ||| (v >>> (widthBits w - n))
def rotateLeft (w : Width) (x y : Word) : Word := rotateBy w x (shiftAmount w y)
def rotateRight (w : Width) (x y : Word) : Word := rotateBy w x (widthBits w - shiftAmount w y)

def minOf (u : Bool) (x y : Word) : Word := if lessThan u y x then y else x
def maxOf (u : Bool) (x y : Word) : Word := if lessThan u x y then y else x

/-- The quotient towards zero; all ones for a divisor of 0 (R203). -/
def quotient (u : Bool) (x y : Word) : Word :=
  if y = 0 then BitVec.allOnes 64
  else if u then x / y else BitVec.ofInt 64 (x.toInt.tdiv y.toInt)

/-- A − B × quotient (R203). -/
def remainder (u : Bool) (x y : Word) : Word := if y = 0 then x else x - y * quotient u x y

/-! The results of R202 on the low w bits as a number. -/

def clzOf (w v : Nat) : Nat := if v = 0 then w else w - 1 - v.log2
def ctzOf (w v : Nat) : Nat := ((List.range w).find? fun i => v.testBit i).getD w
def ffsOf (w v : Nat) : Nat := if v = 0 then 0 else ctzOf w v + 1
def popcOf (w v : Nat) : Nat := ((List.range w).filter fun i => v.testBit i).length
def brevOf (w v : Nat) : Nat := (List.range w).foldl (fun r i => 2 * r + (if v.testBit i then 1 else 0)) 0
def bswapOf (w v : Nat) : Nat := ofBytes (toBytes (w / 8) v).reverse

/-- The latency of a product, and of a quotient by width (R223). -/
def mulCycles : Nat := 4
def divCycles : Width → Nat
  | .w8 => 6 | .w16 => 10 | .w32 => 18 | .w64 => 34

/-! OP (R201 to R203). -/

/-- ADD, R201. -/
def execAdd (u : Bool) (b a d : BitVec 5) (σ : State) : Out := intOp σ .w64 u b a d (· + ·)
/-- SUB, R201. -/
def execSub (u : Bool) (b a d : BitVec 5) (σ : State) : Out := intOp σ .w64 u b a d (· - ·)
/-- MUL, R201. -/
def execMul (u : Bool) (b a d : BitVec 5) (σ : State) : Out := intOp σ .w64 u b a d (· * ·) mulCycles
/-- MULH, R201. -/
def execMulh (u : Bool) (b a d : BitVec 5) (σ : State) : Out := intOp σ .w64 u b a d (mulHigh .w64 u) mulCycles
/-- ADDX2, R201. -/
def execAddx2 (u : Bool) (b a d : BitVec 5) (σ : State) : Out := intOp σ .w64 u b a d (addScaled 2) mulCycles
/-- ADDX4, R201. -/
def execAddx4 (u : Bool) (b a d : BitVec 5) (σ : State) : Out := intOp σ .w64 u b a d (addScaled 4) mulCycles
/-- ADDX8, R201. -/
def execAddx8 (u : Bool) (b a d : BitVec 5) (σ : State) : Out := intOp σ .w64 u b a d (addScaled 8) mulCycles
/-- ADDX16, R201. -/
def execAddx16 (u : Bool) (b a d : BitVec 5) (σ : State) : Out := intOp σ .w64 u b a d (addScaled 16) mulCycles
/-- SHL, R201. -/
def execShl (u : Bool) (b a d : BitVec 5) (σ : State) : Out := intOp σ .w64 u b a d (shiftLeft .w64)
/-- SHR, R201. -/
def execShr (u : Bool) (b a d : BitVec 5) (σ : State) : Out := intOp σ .w64 u b a d (shiftRight .w64 u)
/-- ROL, R201. -/
def execRol (u : Bool) (b a d : BitVec 5) (σ : State) : Out := intOp σ .w64 u b a d (rotateLeft .w64)
/-- ROR, R201. -/
def execRor (u : Bool) (b a d : BitVec 5) (σ : State) : Out := intOp σ .w64 u b a d (rotateRight .w64)
/-- MIN, R201. -/
def execMin (u : Bool) (b a d : BitVec 5) (σ : State) : Out := intOp σ .w64 u b a d (minOf u)
/-- MAX, R201. -/
def execMax (u : Bool) (b a d : BitVec 5) (σ : State) : Out := intOp σ .w64 u b a d (maxOf u)
/-- DIV, R203. -/
def execDiv (u : Bool) (b a d : BitVec 5) (σ : State) : Out := intOp σ .w64 u b a d (quotient u) (divCycles .w64) true
/-- REM, R203. -/
def execRem (u : Bool) (b a d : BitVec 5) (σ : State) : Out := intOp σ .w64 u b a d (remainder u) (divCycles .w64) true
/-- AND, R201. -/
def execAnd (u : Bool) (b a d : BitVec 5) (σ : State) : Out := intOp σ .w64 u b a d (· &&& ·)
/-- OR, R201. -/
def execOr (u : Bool) (b a d : BitVec 5) (σ : State) : Out := intOp σ .w64 u b a d (· ||| ·)
/-- XOR, R201. -/
def execXor (u : Bool) (b a d : BitVec 5) (σ : State) : Out := intOp σ .w64 u b a d (· ^^^ ·)
/-- ANDN, R201. -/
def execAndn (u : Bool) (b a d : BitVec 5) (σ : State) : Out := intOp σ .w64 u b a d fun x y => x &&& ~~~y
/-- ORN, R201. -/
def execOrn (u : Bool) (b a d : BitVec 5) (σ : State) : Out := intOp σ .w64 u b a d fun x y => x ||| ~~~y
/-- XNOR, R201. -/
def execXnor (u : Bool) (b a d : BitVec 5) (σ : State) : Out := intOp σ .w64 u b a d fun x y => ~~~(x ^^^ y)
/-- CLZ, R202. -/
def execClz (u : Bool) (a d : BitVec 5) (σ : State) : Out := unaryOp σ .w64 u a d (clzOf 64)
/-- CTZ, R202. -/
def execCtz (u : Bool) (a d : BitVec 5) (σ : State) : Out := unaryOp σ .w64 u a d (ctzOf 64)
/-- FFS, R202. -/
def execFfs (u : Bool) (a d : BitVec 5) (σ : State) : Out := unaryOp σ .w64 u a d (ffsOf 64)
/-- POPC, R202. -/
def execPopc (u : Bool) (a d : BitVec 5) (σ : State) : Out := unaryOp σ .w64 u a d (popcOf 64)
/-- BREV, R202. -/
def execBrev (u : Bool) (a d : BitVec 5) (σ : State) : Out := unaryOp σ .w64 u a d (brevOf 64)
/-- BSWAP, R202. -/
def execBswap (u : Bool) (a d : BitVec 5) (σ : State) : Out := unaryOp σ .w64 u a d (bswapOf 64)

/-! OPW (R201 to R203). -/

/-- ADD_W, R201. -/
def execAddW (u : Bool) (w : NWidth) (b a d : BitVec 5) (σ : State) : Out := intOp σ (widen w) u b a d (· + ·)
/-- SUB_W, R201. -/
def execSubW (u : Bool) (w : NWidth) (b a d : BitVec 5) (σ : State) : Out := intOp σ (widen w) u b a d (· - ·)
/-- MUL_W, R201. -/
def execMulW (u : Bool) (w : NWidth) (b a d : BitVec 5) (σ : State) : Out := intOp σ (widen w) u b a d (· * ·) mulCycles
/-- MULH_W, R201. -/
def execMulhW (u : Bool) (w : NWidth) (b a d : BitVec 5) (σ : State) : Out :=
  intOp σ (widen w) u b a d (mulHigh (widen w) u) mulCycles
/-- ADDX2_W, R201. -/
def execAddx2W (u : Bool) (w : NWidth) (b a d : BitVec 5) (σ : State) : Out :=
  intOp σ (widen w) u b a d (addScaled 2) mulCycles
/-- ADDX4_W, R201. -/
def execAddx4W (u : Bool) (w : NWidth) (b a d : BitVec 5) (σ : State) : Out :=
  intOp σ (widen w) u b a d (addScaled 4) mulCycles
/-- ADDX8_W, R201. -/
def execAddx8W (u : Bool) (w : NWidth) (b a d : BitVec 5) (σ : State) : Out :=
  intOp σ (widen w) u b a d (addScaled 8) mulCycles
/-- ADDX16_W, R201. -/
def execAddx16W (u : Bool) (w : NWidth) (b a d : BitVec 5) (σ : State) : Out :=
  intOp σ (widen w) u b a d (addScaled 16) mulCycles
/-- SHL_W, R201. -/
def execShlW (u : Bool) (w : NWidth) (b a d : BitVec 5) (σ : State) : Out := intOp σ (widen w) u b a d (shiftLeft (widen w))
/-- SHR_W, R201. -/
def execShrW (u : Bool) (w : NWidth) (b a d : BitVec 5) (σ : State) : Out :=
  intOp σ (widen w) u b a d (shiftRight (widen w) u)
/-- ROL_W, R201. -/
def execRolW (u : Bool) (w : NWidth) (b a d : BitVec 5) (σ : State) : Out :=
  intOp σ (widen w) u b a d (rotateLeft (widen w))
/-- ROR_W, R201. -/
def execRorW (u : Bool) (w : NWidth) (b a d : BitVec 5) (σ : State) : Out :=
  intOp σ (widen w) u b a d (rotateRight (widen w))
/-- MIN_W, R201. -/
def execMinW (u : Bool) (w : NWidth) (b a d : BitVec 5) (σ : State) : Out := intOp σ (widen w) u b a d (minOf u)
/-- MAX_W, R201. -/
def execMaxW (u : Bool) (w : NWidth) (b a d : BitVec 5) (σ : State) : Out := intOp σ (widen w) u b a d (maxOf u)
/-- DIV_W, R203. -/
def execDivW (u : Bool) (w : NWidth) (b a d : BitVec 5) (σ : State) : Out :=
  intOp σ (widen w) u b a d (quotient u) (divCycles (widen w)) true
/-- REM_W, R203. -/
def execRemW (u : Bool) (w : NWidth) (b a d : BitVec 5) (σ : State) : Out :=
  intOp σ (widen w) u b a d (remainder u) (divCycles (widen w)) true
/-- AND_W, R201. -/
def execAndW (u : Bool) (w : NWidth) (b a d : BitVec 5) (σ : State) : Out := intOp σ (widen w) u b a d (· &&& ·)
/-- OR_W, R201. -/
def execOrW (u : Bool) (w : NWidth) (b a d : BitVec 5) (σ : State) : Out := intOp σ (widen w) u b a d (· ||| ·)
/-- XOR_W, R201. -/
def execXorW (u : Bool) (w : NWidth) (b a d : BitVec 5) (σ : State) : Out := intOp σ (widen w) u b a d (· ^^^ ·)
/-- ANDN_W, R201. -/
def execAndnW (u : Bool) (w : NWidth) (b a d : BitVec 5) (σ : State) : Out :=
  intOp σ (widen w) u b a d fun x y => x &&& ~~~y
/-- ORN_W, R201. -/
def execOrnW (u : Bool) (w : NWidth) (b a d : BitVec 5) (σ : State) : Out := intOp σ (widen w) u b a d fun x y => x ||| ~~~y
/-- XNOR_W, R201. -/
def execXnorW (u : Bool) (w : NWidth) (b a d : BitVec 5) (σ : State) : Out :=
  intOp σ (widen w) u b a d fun x y => ~~~(x ^^^ y)
/-- CLZ_W, R202. -/
def execClzW (u : Bool) (w : NWidth) (a d : BitVec 5) (σ : State) : Out :=
  unaryOp σ (widen w) u a d (clzOf (widthBits (widen w)))
/-- CTZ_W, R202. -/
def execCtzW (u : Bool) (w : NWidth) (a d : BitVec 5) (σ : State) : Out :=
  unaryOp σ (widen w) u a d (ctzOf (widthBits (widen w)))
/-- FFS_W, R202. -/
def execFfsW (u : Bool) (w : NWidth) (a d : BitVec 5) (σ : State) : Out :=
  unaryOp σ (widen w) u a d (ffsOf (widthBits (widen w)))
/-- POPC_W, R202. -/
def execPopcW (u : Bool) (w : NWidth) (a d : BitVec 5) (σ : State) : Out :=
  unaryOp σ (widen w) u a d (popcOf (widthBits (widen w)))
/-- BREV_W, R202. -/
def execBrevW (u : Bool) (w : NWidth) (a d : BitVec 5) (σ : State) : Out :=
  unaryOp σ (widen w) u a d (brevOf (widthBits (widen w)))
/-- BSWAP_W, R202. -/
def execBswapW (u : Bool) (w : NWidth) (a d : BitVec 5) (σ : State) : Out :=
  unaryOp σ (widen w) u a d (bswapOf (widthBits (widen w)))

/-! OPI, OPIW, LIM and PCADD (R204 to R206). -/

/-- ADDI, R204. -/
def execAddi (i : BitVec 12) (a d : BitVec 5) (σ : State) : Out := immOp σ a d (· + imm12 i)
/-- SHLI, R204. -/
def execShli (s : BitVec 6) (a d : BitVec 5) (σ : State) : Out := immOp σ a d (· <<< s.toNat)
/-- SHRI_N, R204. -/
def execShriN (s : BitVec 6) (a d : BitVec 5) (σ : State) : Out := immOp σ a d (· >>> s.toNat)
/-- SHRI_I, R204. -/
def execShriI (s : BitVec 6) (a d : BitVec 5) (σ : State) : Out := immOp σ a d (·.sshiftRight s.toNat)
/-- ROLI, R204. -/
def execRoli (s : BitVec 6) (a d : BitVec 5) (σ : State) : Out := immOp σ a d fun v => rotateBy .w64 v s.toNat
/-- RORI, R204. -/
def execRori (s : BitVec 6) (a d : BitVec 5) (σ : State) : Out := immOp σ a d fun v => rotateBy .w64 v (64 - s.toNat)
/-- BFX_N, R204. -/
def execBfxN (p l : BitVec 6) (a d : BitVec 5) (σ : State) : Out := immOp σ a d fun v => bitField v p.toNat (l.toNat + 1)
/-- BFX_I, R204. -/
def execBfxI (p l : BitVec 6) (a d : BitVec 5) (σ : State) : Out :=
  immOp σ a d fun v => signField (bitField v p.toNat (l.toNat + 1)) (l.toNat + 1)
/-- XORI, R204. -/
def execXori (i : BitVec 12) (a d : BitVec 5) (σ : State) : Out := immOp σ a d (· ^^^ imm12 i)
/-- BFI, R204. -/
def execBfi (p l : BitVec 6) (a d : BitVec 5) (σ : State) : Out :=
  issue σ { reads := [a, d], writes := [d] } fun t =>
    let m : Word := ((1#64 <<< (l.toNat + 1)) - 1) <<< p.toNat
    retire σ (t.wx d ((t.rx d &&& ~~~m) ||| ((t.rx a <<< p.toNat) &&& m)) (t.tx d || t.tx a))

/-- ORI, R204. -/
def execOri (i : BitVec 12) (a d : BitVec 5) (σ : State) : Out := immOp σ a d (· ||| imm12 i)
/-- ANDI, R204. -/
def execAndi (i : BitVec 12) (a d : BitVec 5) (σ : State) : Out := immOp σ a d (· &&& imm12 i)
/-- ADDI_W, R205. -/
def execAddiW (i : BitVec 12) (a : BitVec 5) (u : Bool) (w : NWidth) (d : BitVec 5) (σ : State) : Out :=
  immOp σ a d fun v => narrow (widen w) u (v + imm12 i)
/-- LIM, R206. -/
def execLim (i : BitVec 20) (d : BitVec 5) (σ : State) : Out :=
  issue σ { writes := [d] } fun t => retire σ (t.wx d (imm20 i * 4096) false)
/-- PCADD, R206. -/
def execPcadd (i : BitVec 20) (d : BitVec 5) (σ : State) : Out :=
  issue σ { writes := [d] } fun t => retire σ (t.wx d (t.pc + imm20 i * 4) false)

end Sys2Proof.Machine
end

