-- ==== Sys2Proof/Machine/Monitor.lean ====
section
/-! DEFINITION. The management controller: firmware images and measurement (R445, R446), the monitor's calls (R448 to R450), the host's
registers (R435, R436), and power-on (R444). -/

namespace Sys2Proof.Machine

/-! Images and measurement (R445, R446). -/

/-- A firmware image that verifies: its SVN and DIGEST. -/
def verifyImage (b : List Byte) : Option (Nat × Nat × List Byte) :=
  let part := fun (o n : Nat) => (b.drop o).take n
  let kind := fieldOf b 4 4
  let svn := fieldOf b 8 4
  let body := part 512 (fieldOf b 12 4)
  let digest := part 0x10 64
  let key := part 0x50 132
  let num := fun (d : BitVec 512) => toBytes 64 d.toNat
  if 512 ≤ b.length ∧ fieldOf b 0 4 = 0x4B525946 ∧ body.length = fieldOf b 12 4 ∧ Config.sha512 key = Config.fusedKeyDigest ∧
      Config.ecdsaVerify key (Config.sha512 (part 0 0xD4)) (part 0xD4 132) ∧ num (Config.sha512 body) = digest ∧
      Config.fusedMinSvn kind ≤ svn then
    some (kind, svn, digest)
  else none

/-- M(k) ← SHA-512(M(k) ‖ DIGEST ‖ SVN), the SVN as 4 bytes. -/
def State.measure (s : State) (k : Nat) (digest : List Byte) (svn : Nat) : State :=
  let m := kget 0 s.meas k
  { s with meas := kset k (Config.sha512 (toBytes 64 m.toNat ++ digest ++ toBytes 4 svn)) s.meas }

/-- The registers of the partition pages in bytes, whose digest is the partition configuration's (R446). -/
def State.partPages (s : State) : List Byte :=
  (List.range 16).flatMap fun p => (List.range 23).flatMap fun i => toBytes 8 ((s.part p).reg (8 * i)).toNat

/-- The partition configuration is measured with SVN 0, at the bring-up and again after every PART (log 15). -/
def State.measureParts (s : State) : State := s.measure 6 (toBytes 64 (Config.sha512 s.partPages).toNat) 0

/-! Calls (R448). -/

/-- Why a call is refused. -/
def whyCaller : Nat := 2
def whyArgument : Nat := 3
def whyBusy : Nat := 4
def whyImage : Nat := 5
def whyState : Nat := 6

/-- Argument a(i), for i from 1 to 7: a register of the caller's, or a doubleword of HMDATA (log 15). -/
def State.arg (s : State) (who : Caller) (i : Nat) : Nat :=
  match who with
  | .core k => ((s.core k).th.rx (BitVec.ofNat 5 (5 + i))).toNat
  | .host => ofBytes (readBytes s.hmData (8 * (i - 1)) 8)

/-- The caller is a secure supervisor or the host; it may touch an address. -/
def State.secureCaller (s : State) (who : Caller) : Bool := match who with | .core k => (s.core k).wld | .host => true
def State.callerWorld (s : State) (who : Caller) : Bool := match who with | .core k => (s.core k).wld | .host => false
def State.callerMay (s : State) (who : Caller) (a n : Nat) : Bool :=
  (unitsOf 65536 a n).all fun u => s.mayTouch (s.callerWorld who) u.1

/-- The host's request ends: RES holds the result, or the reason (log 15); vector 64 is raised where DONE becomes 1 (R436). -/
def State.hostReply (s : State) (v : Nat) : State :=
  let s' := { s with hmRes := BitVec.ofNat 32 v, hmBusy := false, hmDone := true }
  if s.hmDone then s' else s'.raiseMsix 64

/-- A call is answered: done with a result, or refused with a reason. A core that PART has taken out of its partition gets no reply. -/
def State.answer (s : State) (who : Caller) (r : Except Nat Word) : State :=
  match who, r with
  | .core k, .ok v => if (s.core k).run = .smc then s.smcReply k 0 v else s
  | .core k, .error why => s.smcReply k (BitVec.allOnes 64) (BitVec.ofNat 64 why)
  | .host, .ok v => s.hostReply v.toNat
  | .host, .error why => s.hostReply why

/-- The serving of a call: a core that waits in its SMC, a host request in progress. -/
def State.serves (s : State) (who : Caller) : Bool := match who with | .core k => (s.core k).run == .smc | .host => s.hmBusy

/-- The monitor turns to a call when it is the oldest: calls are served one at a time in arrival order (R448). -/
def State.whenCalled (s : State) (i : Instr) (k : State → State) : Out := .next (if s.oldestCall = some i then k (s.done i) else s)

/-- A call is served: the new state and its result, or the reason of its refusal. -/
def State.call (s : State) (i : Instr) (who : Caller) (k : State → Except Nat (State × Word)) : Out :=
  s.whenCalled i fun s =>
    if !s.serves who then s
    else match k s with
      | .ok (t, v) => t.answer who (.ok v)
      | .error why => s.answer who (.error why)

/-! PART (R364, R365). -/

/-- A resource: 0 prism, 1 slice, 2 control core, 3 Walush port, 4 HBM range, 5 the handler spill area, 6 queue (log 15). -/
def State.ownerOf (s : State) (kind i : Nat) : Option Nat :=
  match kind with
  | 0 => s.partOfPrism i
  | 1 => s.partOfSlice i
  | 2 => s.partOfCore i
  | 3 => (s.parts.find? fun (_, p) => p.ports.getLsbD i).map Prod.fst
  | _ => none

/-- How many resources of a kind there are. -/
def resources (kind : Nat) : Nat :=
  match kind with | 0 => 256 | 1 => 512 | 2 => 32 | 3 => 16 | 4 => 4 | 5 => 1 | 6 => 64 | _ => 0

/-- Some context of a partition is live. -/
def State.liveIn (s : State) (p : Nat) : Bool := s.ctxs.any fun (_, x) => x.live && x.d.part == p

/-- The entries of a table of n bytes that memory lists. -/
def State.entriesAt (s : State) (a n : Nat) : List Word :=
  ((s.mem.filter fun c => a ≤ c.1 && c.1 < a + n).map fun c => c.1 / 8).dedup.map fun i => s.hbm64 (8 * i)

/-- The tables and frames that a table maps, as physical ranges (R385 to R387). -/
def State.mapsOf (s : State) : List (Nat × Nat × Nat × Nat) → Nat → List (Nat × Nat)
  | [], _ => []
  | (_, bits, leafSize, next) :: ls, a =>
    (a, 8 * 2 ^ bits) :: (s.entriesAt a (8 * 2 ^ bits)).flatMap fun e =>
      if !bitAt e 0 then []
      else if bitAt e 1 then (if leafSize = 0 then [] else [(leafPa e leafSize 0, leafSize)])
      else if next = 0 then [] else s.mapsOf ls (fieldAt e 8 36 * 256)

/-- What lies in HBM for the live contexts of a partition, as physical ranges: their descriptors and areas, page tables and frames, the
frame areas of its slices, the fault queues of its service cores, its queues' control blocks and its handlers' spill area (R390). -/
def State.liveRanges (s : State) (p : Nat) : List (Nat × Nat) :=
  let x := s.part p
  let ctxs := s.ctxs.filter fun (_, c) => c.live && c.d.part == p
  if ctxs.isEmpty then []
  else
    (ctxs.flatMap fun (_, c) => (c.desc.toNat * 64, 128) :: c.d.areas x ++ s.mapsOf levels c.d.root) ++
      (x.slices.map fun i => ((s.slice i).sfrb.toNat * 65536, (s.slice i).areaBytes)) ++
      (ctxs.filterMap fun (_, c) => c.d.score.map fun k => ((s.core k).sfqb.toNat * 4096, 4096)) ++
      (s.qmap.filterMap fun (_, m) => if bitAt m 0 ∧ qpart m = p then some (qcba m, 64) else none) ++
      [(x.hspB.toNat * 4096, 32 * x.hspN.toNat * 2048)]

/-- A resource may leave a partition: it holds no state of a live context (R365). -/
def State.mayLeave (s : State) (p kind i : Nat) : Bool :=
  match kind with
  | 0 => (s.prism i).state == .idle || (s.prism i).state == .offline
  | 1 =>
    let x := s.slice i
    x.versions.isEmpty && x.parkq.isEmpty && x.mig == .none && (!s.liveIn p || !(s.part p).homes.contains i)
  | 2 => !((s.core i).run == .running && (s.core i).level == 0)
  | 3 => true
  | 4 =>
    let r := (s.part p).hbm.getD i (0, 0)
    (s.liveRanges p).all fun (a, n) => n == 0 || a + n ≤ r.1.toNat * 65536 || r.2.toNat * 65536 ≤ a
  | 6 => !bitAt (s.qmapOf i) 0
  | _ => !s.liveIn p

/-- Two HBM ranges share a unit. -/
def rangesMeet (a b : BitVec 28 × BitVec 28) : Bool := a.1 < b.2 && b.1 < a.2

/-- A partition with a resource added. -/
def Part.with (x : Part) (kind i : Nat) (b l : Nat) : Part :=
  match kind with
  | 0 => { x with prisms := sadd i x.prisms }
  | 1 => { x with slices := sadd i x.slices, homes := sadd i x.homes }
  | 2 => { x with cores := sadd i x.cores }
  | 3 => { x with ports := setBit x.ports i true }
  | 4 =>
    let r := (x.hbm ++ List.replicate 4 (0, 0)).take 4
    { x with hbm := r.set i (BitVec.ofNat 28 (b / 65536), BitVec.ofNat 28 (l / 65536)) }
  | 5 => { x with hspB := BitVec.ofNat 32 (b / 4096), hspN := BitVec.ofNat 8 l }
  | _ => x

/-- A partition with a resource removed. -/
def Part.without (x : Part) (kind i : Nat) : Part :=
  match kind with
  | 0 => { x with prisms := sdel i x.prisms }
  | 1 => { x with slices := sdel i x.slices, homes := sdel i x.homes }
  | 2 => { x with cores := sdel i x.cores }
  | 3 => { x with ports := setBit x.ports i false }
  | 4 => { x with hbm := x.hbm.set i (0, 0) }
  | 5 => { x with hspB := 0, hspN := 0 }
  | _ => x

/-- PART: partition, kind, index, add (1) or remove (0), and for ranges and areas two more words. A core that leaves its partition no longer
runs (R365); QMAP.PART of a queue that leaves one is 0 again, as after reset (log 15). -/
def State.callPart (s : State) (who : Caller) : Except Nat (State × Word) :=
  let p := s.arg who 1
  let kind := s.arg who 2
  let i := s.arg who 3
  let add := s.arg who 4 != 0
  let here := match kind with | 4 | 5 => true | 6 => qpart (s.qmapOf i) == p | _ => s.ownerOf kind i == some p
  let mine := match who with | .core k => s.partOfCore k == some p && here && !add | .host => false
  if !s.secureCaller who && !mine then .error whyCaller
  else if 16 ≤ p ∨ resources kind ≤ i then .error whyArgument
  else
    let x := s.part p
    if add then
      let r := (BitVec.ofNat 28 (s.arg who 5 / 65536), BitVec.ofNat 28 (s.arg who 6 / 65536))
      let shared := kind == 4 && s.parts.any fun (q, y) => q != p && y.hbm.any (rangesMeet r)
      if (s.ownerOf kind i).isSome ∨ shared ∨ (kind = 6 ∧ !s.mayLeave p kind i) then .error whyBusy
      else if (kind = 1 ∨ kind = 4 ∨ kind = 5) ∧ s.liveIn p then .error whyState
      else
        let s := s.setPart p (x.with kind i (s.arg who 5) (s.arg who 6))
        let s := if kind = 6 then { s with qmap := kset i ((s.qmapOf i &&& ~~~0xF0000#64) ||| (BitVec.ofNat 64 p <<< 16)) s.qmap } else s
        .ok (s.measureParts, 0)
    else if (kind < 4 ∧ s.ownerOf kind i ≠ some p) ∨ (kind = 6 ∧ qpart (s.qmapOf i) ≠ p) then .error whyArgument
    else if !s.mayLeave p kind i then .error (if kind = 0 then whyState else whyBusy)
    else
      let s := s.setPart p (x.without kind i)
      let s := match kind with
        | 2 => s.modCore i fun c => { c with run := .notStarted }
        | 6 => { s with qmap := kset i (s.qmapOf i &&& ~~~0xF0000#64) s.qmap }
        | _ => s
      .ok (s.measureParts, 0)

/-- PART, R448. -/
def execPart (who : Caller) (σ : State) : Out := σ.call (.part who) who fun σ => σ.callPart who

/-- REGION: entry, BASE, LIMIT, world, EN. -/
def State.callRegion (s : State) (who : Caller) : Except Nat (State × Word) :=
  let i := s.arg who 1
  let unit := fun (a : Nat) => BitVec.ofNat 64 (a / 65536 % 2 ^ 28 * 65536)
  match who with
  | .host => .error whyCaller
  | .core _ =>
    if !s.secureCaller who then .error whyCaller
    else if 32 ≤ i then .error whyArgument
    else
      let w : Word := unit (s.arg who 2) ||| (if s.arg who 5 != 0 then 1#64 <<< 63 else 0) ||| (if s.arg who 4 != 0 then 1#64 <<< 62 else 0)
      .ok ({ s with regions := kset i (w, unit (s.arg who 3)) s.regions }, 0)

/-- REGION, R448. -/
def execRegion (who : Caller) (σ : State) : Out := σ.call (.region who) who fun σ => σ.callRegion who

/-- What an attestation report holds beside its signature (R449): nonce, serial number, measurement registers, the SVN of every kind of
block, the digests of the partition pages, and the tick. -/
def State.attested (s : State) (nonce : List Byte) : List Byte :=
  let digest := fun (p : Nat) => toBytes 64 (Config.sha512 ((List.range 23).flatMap fun i => toBytes 8 ((s.part p).reg (8 * i)).toNat)).toNat
  nonce ++ toBytes 8 Config.serial.toNat ++ (List.range 16).flatMap (fun k => toBytes 64 (kget 0 s.meas k).toNat) ++
    (List.range 6).flatMap (fun k => toBytes 4 (kget 0 s.svn k)) ++ (List.range 16).flatMap digest ++ toBytes 8 s.tick

/-- ATTEST: address of a nonce, address of the report. The reference gives the report 1,024 bytes and no layout, and what it lists is
longer: its bytes are free values that depend on what it holds, its signature and the certificate (log 16). -/
def State.callAttest (s : State) (who : Caller) : Except Nat (State × Word) :=
  let n := s.arg who 1
  let r := s.arg who 2
  if !s.callerMay who n 64 ∨ !s.callerMay who r 1024 then .error whyArgument
  else
    let held := s.attested (readBytes s.mem n 64)
    let report := (List.range 1024).map (Config.reportByte held (Config.identitySign held ++ Config.identityCertificate))
    .ok (s.areaWrite (s.callerWorld who) r report, 0)

/-- ATTEST, R449. -/
def execAttest (who : Caller) (σ : State) : Out := σ.call (.attest who) who fun σ => σ.callAttest who

/-! UPDATE (R450). -/

/-- The only working port of some route entry. -/
def State.onlyPort (s : State) (i : Nat) : Bool :=
  let works := fun (m : BitVec 16) => (List.range 16).filter fun j => m.getLsbD j && (kget {} s.ports j).trained
  s.routes.any fun (_, m) => works m == [i]

/-- A block of a kind is busy. That no call is in progress (kind 5) holds whenever one is served, for they are served one at a time (R448). -/
def State.blockBusy (s : State) (kind i : Nat) : Bool :=
  match kind with
  | 1 => (s.slice i).mgst == 1
  | 2 => s.ctxs.any fun (c, x) => s.apexOf c == some i && (match x.phase with | .none => false | _ => true)
  | 3 => (s.prism i).state != .idle
  | 4 => s.onlyPort i
  | _ => false

/-- How many blocks of a kind there are. -/
def blocks (kind : Nat) : Nat := match kind with | 1 => 512 | 2 => 4 | 3 => 256 | 4 => 16 | 5 => 1 | _ => 0

/-- An update that has been verified begins: new requests to a slice park, a port leaves the routes; the call stays in progress. -/
def State.beginUpdate (s : State) (u : UpdateRun) : State :=
  let s := { s with update := some u }
  match u.kind with
  | 1 => s.modSlice u.index fun x => { x with paused := true }
  | 4 => { s with ports := kmod {} u.index (fun p => { p with trained := false }) s.ports }
  | _ => s

/-- An update is done: it is measured, what waited goes on, and its port trains. -/
def State.endUpdate (s : State) (u : UpdateRun) : State :=
  let s := { s.measure u.kind u.digest u.svn with svn := kset u.kind u.svn s.svn, update := none }
  let s := match u.kind with
    | 1 => (s.modSlice u.index fun x => { x with paused := false }).wakeBehind u.index
    | 4 => s.pushDue (.portTrained u.index)
    | _ => s
  s.logEvent evUpdateDone (u.kind + 256 * u.index)

/-- UPDATE: block kind, index, image address. What is to be updated, or why not. -/
def State.callUpdate (s : State) (who : Caller) : Except Nat UpdateRun :=
  let kind := s.arg who 1
  let i := s.arg who 2
  let a := s.arg who 3
  if !s.secureCaller who then .error whyCaller
  else if blocks kind ≤ i ∨ !s.callerMay who a 512 then .error whyArgument
  else if !s.callerMay who a (512 + s.hbmRead (a + 12) 4) then .error whyArgument
  else match verifyImage (readBytes s.mem a (512 + s.hbmRead (a + 12) 4)) with
    | none => .error whyImage
    | some (k, svn, digest) =>
      if k ≠ kind then .error whyImage
      else if s.blockBusy kind i then .error whyBusy
      else .ok { kind, index := i, svn, digest }

/-- UPDATE, R450, in two steps: the verified update begins, and is done; meanwhile the call is in progress. A refused update changes nothing
but the log. -/
def execUpdate (who : Caller) (σ : State) : Out :=
  σ.whenCalled (.update who) fun τ =>
    match τ.update with
    | some u => if τ.serves who then (τ.endUpdate u).answer who (.ok 0) else τ.endUpdate u
    | none =>
      if !τ.serves who then τ
      else match τ.callUpdate who with
        | .ok u => σ.beginUpdate u
        | .error why => (τ.logEvent evUpdateRefused (τ.arg who 1 + 256 * τ.arg who 2)).answer who (.error why)

/-! SERVICE, LINK, EXTEND, LOG, APCFG. -/

/-- An enabled region entry covers part of a stack (R403). -/
def State.stackCovered (s : State) (i : Nat) : Bool :=
  s.regions.any fun (_, w, l) =>
    bitAt w 63 && fieldAt w 16 28 < fieldAt l 16 28 && fieldAt w 16 28 < (i + 1) * 2 ^ 24 && i * 2 ^ 24 < fieldAt l 16 28

/-- SERVICE: 0 a prism or 1 a stack, its number, and whether it is serviceable. -/
def State.callService (s : State) (who : Caller) : Except Nat (State × Word) :=
  let i := s.arg who 2
  let on := s.arg who 3 != 0
  if !s.secureCaller who then .error whyCaller
  else if s.arg who 1 = 0 then
    if 256 ≤ i then .error whyArgument else .ok (s.modPrism i fun x => { x with serviceable := on }, 0)
  else if s.arg who 1 = 1 then
    if 12 ≤ i then .error whyArgument
    else if !on ∧ s.stackCovered i then .error whyState
    else .ok ({ s with stacksIn := sput i on s.stacksIn }, 0)
  else .error whyArgument

/-- SERVICE, R448. -/
def execService (who : Caller) (σ : State) : Out := σ.call (.service who) who fun σ => σ.callService who

/-- The devices whose route entries name a port. -/
def State.peersOf (s : State) (i : Nat) : List Nat := (s.routes.filter fun (_, m) => m.getLsbD i).map Prod.fst

/-- LINK: port, train (1) or retire (0), time master. A peer that the port reaches enters the domain (R441). -/
def State.callLink (s : State) (who : Caller) : Except Nat (State × Word) :=
  let i := s.arg who 1
  if !s.secureCaller who then .error whyCaller
  else if 16 ≤ i then .error whyArgument
  else
    let s := { s with master := s.arg who 3 != 0 }
    if s.arg who 2 != 0 then
      .ok (({ s with domain := (s.peersOf i).foldl (fun l d => sadd d l) s.domain }).pushDue (.portTrained i), 0)
    else .ok ({ s with ports := kmod {} i (fun p => { p with trained := false }) s.ports }, 0)

/-- LINK, R448. -/
def execLink (who : Caller) (σ : State) : Out := σ.call (.link who) who fun σ => σ.callLink who

/-- EXTEND: register 7–15, and the address of a 64-byte digest; its SVN is 0 (log 15). -/
def State.callExtend (s : State) (who : Caller) : Except Nat (State × Word) :=
  let k := s.arg who 1
  let a := s.arg who 2
  match who with
  | .host => .error whyCaller
  | .core _ =>
    if k < 7 ∨ 16 ≤ k ∨ !s.callerMay who a 64 then .error whyArgument
    else .ok (s.measure k (readBytes s.mem a 64) 0, 0)

/-- EXTEND, R446. -/
def execExtend (who : Caller) (σ : State) : Out := σ.call (.extend who) who fun σ => σ.callExtend who

/-- An entry of the event log in 32 bytes. -/
def LogEntry.encoded (e : LogEntry) : List Byte := toBytes 8 e.tick.toNat ++ toBytes 2 e.code.toNat ++ zeros 6 ++ toBytes 16 e.detail.toNat

/-- LOG: an entry goes to HMDATA for the host; a core's result word is a free value, for the reference does not say how 32 bytes reach
it (log 15). -/
def State.callLog (s : State) (who : Caller) : Except Nat (State × Word) :=
  match s.log[s.arg who 1]? with
  | none => .error whyArgument
  | some e =>
    match who with
    | .host => .ok ({ s with hmData := writeBytes 0 e.encoded s.hmData }, 0)
    | .core _ => let (v, s) := s.drawFree; .ok (s, v)

/-- LOG, R448. -/
def execLog (who : Caller) (σ : State) : Out := σ.call (.log who) who fun σ => σ.callLog who

/-- APCFG: PARTS, SEC. -/
def State.callApcfg (s : State) (who : Caller) : Except Nat (State × Word) :=
  if !s.secureCaller who then .error whyCaller
  else .ok ({ s with apParts := BitVec.ofNat 16 (s.arg who 1), apSec := s.arg who 2 != 0 }, 0)

/-- APCFG, R448. -/
def execApcfg (who : Caller) (σ : State) : Out := σ.call (.apcfg who) who fun σ => σ.callApcfg who

/-! The host's registers (R435, R436). -/

/-- A write of BAR0: HMCMD, HMST and, once the bring-up is complete, HMDATA. -/
def State.hostWrite (s : State) (a : Nat) (v : Word) : State :=
  if a = 0 then
    if s.hmBusy then s
    else
      let s := { s with hmCmd := v, hmBusy := true }
      match s.power == .up, callOf v.toNat .host with
      | true, some i => s.pushDue i
      | _, _ => s.hostReply 1
  else if a = 8 then { s with hmEvt := s.hmEvt && !bitAt v 2, hmDone := s.hmDone && !bitAt v 1 }
  else if 0x1000 ≤ a ∧ a < 0x2000 ∧ s.power = .up then
    { s with hmData := writeBytes (a - 0x1000) (toBytes 8 v.toNat) s.hmData }
  else s

/-- HMST (R436): RES and BUSY are RO, EVT and DONE are RW1C. -/
def State.hmst (s : State) : Word := s.hmRes ++ 0#29 ++ bit s.hmEvt ++ bit s.hmDone ++ bit s.hmBusy

/-- What the host reads in BAR0 (R10, R435, R436): HMCMD, HMST and HMDATA; any other access gives 0. -/
def State.hostRead (s : State) (a : Nat) : Word :=
  if a = 0 then s.hmCmd
  else if a = 8 then s.hmst
  else if 0x1000 ≤ a ∧ a < 0x2000 then BitVec.ofNat 64 (ofBytes (readBytes s.hmData (a - 0x1000) 8))
  else 0

/-- FUNCTION_LEVEL_RESET, R435. -/
def execFunctionLevelReset (σ : State) : Out :=
  .next { σ with hmRes := 0, hmEvt := false, hmDone := false, hmBusy := false, msix := [] }

/-! Power-on (R444). -/

/-- Images are verified and measured in order, image k extending register k, and whether all were accepted: one that is refused stops it.
Image k says BLOCK = k, the monitor's 0, which R450 does not number (log 15). -/
def State.loadImages (s : State) (cfg : BootCfg) : List Nat → State × Bool
  | [] => (s, true)
  | k :: ks =>
    match (cfg.images.find? (·.1 == k)).bind fun i => verifyImage i.2 with
    | some (kind, svn, digest) =>
      if kind = k then ({ s.measure k digest svn with svn := kset k svn s.svn }).loadImages cfg ks else (s, false)
    | none => (s, false)

/-- A list names nothing twice. -/
def distinct (l : List Nat) : Bool := l.dedup.length == l.length

/-- The partitions of a configuration share no resource, and name only what the device has. -/
def partsOk (l : List (Nat × PartCfg)) : Bool :=
  distinct (l.map (·.1)) && l.all (fun p => p.1 < 16) &&
    distinct (l.flatMap fun p => (List.range 16).filter p.2.ports.getLsbD) &&
    l.all (fun p => l.all fun q => p.1 == q.1 || p.2.hbm.all fun r => q.2.hbm.all fun t => r.2 / 65536 ≤ t.1 / 65536 || t.2 / 65536 ≤ r.1 / 65536) &&
    distinct (l.flatMap fun p => p.2.prisms) && distinct (l.flatMap fun p => p.2.slices) && distinct (l.flatMap fun p => p.2.cores) &&
    l.all fun p => p.2.prisms.all (· < 256) && p.2.slices.all (· < 512) && p.2.cores.all (· < 32) && p.2.cores.contains p.2.first

/-- A partition of the configuration is created and its first control core starts at level 1. -/
def State.createPart (s : State) (p : Nat) (c : PartCfg) : State :=
  let sorted := fun (l : List Nat) => l.foldl (fun m i => sadd i m) []
  let units := c.hbm.map fun (b, l) => (BitVec.ofNat 28 (b / 65536), BitVec.ofNat 28 (l / 65536))
  let x : Part := { prisms := sorted c.prisms, slices := sorted c.slices, homes := sorted c.slices, cores := sorted c.cores, ports := c.ports,
                    hbm := units.take 4, hspB := c.hsp.extractLsb' 12 32, hspN := c.hsp.setWidth 8 }
  (s.setPart p x).modCore c.first fun k => { k with run := .running, level := 1, th := { k.th with pc := c.pc &&& ~~~3#64 } }

/-- The bring-up stops at a step that fails; what came before it stands, and RES tells the step. -/
def State.stopAt (s : State) (i : Nat) : State := { s with power := .stopped i, hmRes := BitVec.ofNat 32 i }

/-- The bring-up, step by step (R444). -/
def State.bringUp (s : State) (cfg : BootCfg) : State :=
  match s.loadImages cfg [0] with
  | (s, false) => s.stopAt 1
  | (s, true) =>
    match ({ s with dev := cfg.dev, regions := (List.range 32).zip cfg.regions }).loadImages cfg [1, 2, 3, 4] with
    | (s, false) => s.stopAt 2
    | (s, true) =>
      if !cfg.dieJoins ∨ !cfg.hbmUp then s.stopAt 3
      else
        let s := { s with ports := (List.range 16).map fun i => (i, { trained := cfg.ports.contains i }), routes := cfg.routes,
                          domain := cfg.peers.foldl (fun l d => sadd d l) [], stacksIn := List.range 12 }
        if !partsOk cfg.parts then s.stopAt 4
        else
          let s : State := cfg.secureCores.foldl (fun s k => s.modCore k fun x => { x with wld := true }) s
          let s : State := cfg.securePrisms.foldl (fun s p => s.modPrism p fun x => { x with world := true }) s
          let s : State := cfg.secureSlices.foldl (fun s n => s.modSlice n fun x => { x with world := true }) s
          let s : State := cfg.queueParts.foldl (fun s (q, p) =>
            { s with qmap := kset q (BitVec.ofNat 64 (p % 16 * 65536)) s.qmap }) s
          let s : State := cfg.parts.foldl (fun s (p, c) => s.createPart p c) s
          { s.measureParts with power := .up }

/-- POWER_ON, R444. What is in HBM and what has been scheduled stay; everything else is as after reset. -/
def execPowerOn (cfg : BootCfg) (σ : State) : Out :=
  .next (({ State.reset with mem := σ.mem, memT := σ.memT, memP := σ.memP, sched := σ.sched } : State).bringUp cfg)

end Sys2Proof.Machine
end

