-- ==== Sys2Proof/Machine/Links.lean ====
section
/-! DEFINITION. Links and errors: Walush ports and lost peers (R439 to R441, R98), time and forwarded triggers (R442, R443), die joins
(R438), ECC errors (R451), throttling and shutdown (R453). -/

namespace Sys2Proof.Machine

/-! Walush ports (R439, R440). -/

def State.modPort (s : State) (i : Nat) (g : Port → Port) : State := { s with ports := kmod {} i g s.ports }

/-- A path fails: its port leaves every mask until it has been trained again. -/
def Port.failed (p : Port) : Port := { p with trained := false, retried := 0 }

/-- FLIT_RETRY, R439: a flit has failed its CRC; the port sends it again, or its path fails where it has done so 16 times. -/
def execFlitRetry (port : Nat) (σ : State) : Out :=
  .next (if port < 16 then σ.modPort port fun p => if p.retried < 16 then { p with retried := p.retried + 1 } else p.failed else σ)
/-- PATH_FAILURE, R440. -/
def execPathFailure (port : Nat) (σ : State) : Out := .next (if port < 16 then σ.modPort port Port.failed else σ)
/-- PORT_TRAINED, R440. -/
def execPortTrained (port : Nat) (σ : State) : Out := .next (let σ := σ.done (.portTrained port)
    if port < 16 then σ.modPort port fun p => { p with trained := true, retried := 0 } else σ)

/-! Lost peers (R98, R441). -/

/-- A port that reaches a device works. -/
def State.reaches (s : State) (dev : Nat) : Bool := (s.portOf dev).isSome

/-- An agent is a thread of a device. -/
def Agent.ofDevice (a : Agent) (dev : Nat) : Bool := match a with | .peer t => t / 32768 == dev | _ => false

/-- The owning side: versions that the peer holds, or owns unsealed, are dropped, and its requests are discarded. -/
def State.dropPeer (s : State) (dev : Nat) : State :=
  let hit := fun (e : VEntry) =>
    e.peers.contains dev || (e.st == .opened && (match e.owner with | some a => a.ofDevice dev | none => false))
  let s : State := s.slices.foldl (fun s (n, x) => (x.versions.filter hit).foldl (fun s e => s.dropV n e.ctx e.tile e.ver) s) s
  let gone := (s.reqs.filter fun (kr : Nat × Req) => kr.2.who.ofDevice dev && dev != s.dev).map Prod.fst
  let s : State := gone.foldl (fun s id => s.forgetReq id) s
  { s with flights := s.flights.filter fun (kw : Nat × Flight) => !(kw.2.who.ofDevice dev && dev != s.dev && !kw.2.entered) }

/-- A request of this device to the lost peer ends. -/
def State.endLostReq (s : State) (id : Nat) (r : Req) : State :=
  let taken := match r.stage with | .sent | .refusedFull _ => false | _ => true
  let late := fun (s : State) => if taken then s.lateReq id cPOISON else (s.acceptReq id).lateReq id cPOISON
  match r.op with
  | .load d t =>
    let s := if taken then s else s.acceptReq id
    let g : Got := { bytes := [], taint := false, poison := true }
    (s.modThread r.who fun th => ((th.await d false).loaded t d g { pc := r.pc, addr := r.va })).endReq id
  | .fetch | .probe _ _ => s.failReq id cPOISON
  | .vload v n _ =>
    (if taken then s else s.acceptReq id).setReq id { r with stage := .returning, op := .vload v n (List.replicate n (0, false, true)) }
  | .create _ _ _ _ _ _ _ | .vput _ _ _ | .vseal _ | .vget _ _ _ _ | .vretain _ | .vrelease _ | .vdrop _ | .vquery _ _ =>
    (if taken || r.again then s else s.acceptReq id).lateReq id cVGONE
  | .vhold _ => s.failReq id cVGONE
  | .port wr _ => (s.forgetReq id).portEnds wr (.error cNOMAP)
  | .atomic _ _ _ _ _ _ d _ | .join d => late (s.modThread r.who fun th => th.await d false)
  | .record _ => s.failReq id cPOISON
  | .store _ _ _ | .vstore _ _ | .writeBack _ _ | .piece _ _ _ => late s

/-- A message of this device to the lost peer ends: a late report, and for a remote load a poison mark. -/
def State.endLostMsg (s : State) (id : Nat) (w : Flight) : State :=
  match w.msg.op with
  | none => s.lateMsg id cPOISON
  | some (o, _) =>
    let s := s.replyOk w o 0 false
    match o with
    | .load _ d => s.modThread w.who fun th => th.mark d { pc := w.pc, addr := w.word }
    | _ => s.lateReportTo w.who id { cause := cPOISON, pc := w.pc, addr := w.word }

/-- A context's window no longer waits for a lost peer: its entries are tested for completion again, and a delivery goes on. -/
def State.windowsLost (s : State) (c : Nat) (x : Context) (dev : Nat) : State :=
  let s := if x.dropDevs.contains dev then (s.modCtx c fun y => { y with dropDevs := y.dropDevs.filter (· != dev) }).pushDue (.faultDelivery c)
    else s
  x.window.foldl (fun s e => if e.allEnded then
    (s.modEntry c e.seq fun y => { y with closeDevs := y.closeDevs.filter (· != dev) }).pushDue (.entryComplete c e.seq) else s) s

/-- The requesting side. -/
def State.losePeer (s : State) (dev : Nat) : State :=
  let there := fun (va : Word) => fieldAt va 52 12 == dev
  let reqs := s.reqs.filter fun (kr : Nat × Req) => there kr.2.va && !kr.2.who.ofDevice dev
  let s : State := reqs.foldl (fun s (id, r) => s.endLostReq id r) s
  let copies := s.copies.filter fun (kc : Nat × Copy) => there kc.2.ga && !kc.2.finished
  let s : State := copies.foldl (fun s (id, c) => s.stopCopy id c cPOISON) s
  let msgs := s.flights.filter fun (kw : Nat × Flight) => tidDevice kw.2.target == dev
  let s : State := msgs.foldl (fun s (id, w) => s.endLostMsg id w) s
  let s : State := s.ctxs.foldl (fun s (c, x) => s.windowsLost c x dev) s
  let lose := fun (sl : Slot) =>
    { sl with holds := sl.holds.map fun (h : Nat × Nat × Bool) => if h.1 / 2 ^ 52 = dev then (h.1, h.2.1, false) else h }
  let all := fun (m : KMap Slot) => m.map fun (ks : Nat × Slot) => (ks.1, lose ks.2)
  { s with facets := s.facets.map fun (kx : Nat × Facet) =>
      (kx.1, { kx.2 with slots := all kx.2.slots, stash := kx.2.stash.map fun (t : Stash) => { t with slots := all t.slots } }) }

/-- PEER_LOST, R441. -/
def execPeerLost (dev : Nat) (σ : State) : Out :=
  .next (if σ.domain.contains dev ∧ dev ≠ σ.dev ∧ !σ.reaches dev then
    let σ := (σ.dropPeer dev).losePeer dev
    ({ σ with domain := σ.domain.filter (· != dev) }).logEvent evPeerLost dev
  else σ)

/-! Time and forwarded triggers (R442, R443). -/

/-- SYN, R442. A device that is not the master corrects its count: never backwards, and by at most 8 ticks at once. -/
def execSyn (t : Nat) (σ : State) : Out := .next (if σ.master then σ else σ.elapse (min (t - σ.tick) 8))

/-- The forwarded start of channel ch occurs here: channels that start or stop on it act in this tick. -/
def State.forwarded (s : State) (ch : Nat) (late : Bool) : State :=
  let name := eventName 7 ch
  let starts := s.chans.filter fun (_, c) => c.startev == name
  let stops := s.chans.filter fun (_, c) => c.stopev == name
  let s : State := { s with events := kset name.toNat s.tick s.events }
  let s : State := starts.foldl (fun s (k, _) => s.startChannel k s.tick 0 late) s
  let s : State := stops.foldl (fun s (k, _) => s.stopChannel k s.tick 0 late) s
  s.act

/-- TRG, R443. -/
def execTrg (ch t : Nat) (σ : State) : Out :=
  .next (if σ.due.contains (.trg ch t) then (σ.done (.trg ch t)).forwarded ch false
  else if σ.tick < t + 4096 then { σ with later := σ.later ++ [(t + 4096, .trg ch t)] }
  else σ.forwarded ch (decide (t + 4096 < σ.tick)))

/-! Die joins (R438). -/

/-- An unretired entry faults with POISON, one that has not issued too. -/
def State.poisonEntry (s : State) (c seq info : Nat) : State :=
  let s := s.modEntry c seq fun e => if e.state = .decoded then { e with state := .issued } else e
  s.entryFaults c seq { cause := cPOISON, info := BitVec.ofNat 64 info }

/-- Every context stops. -/
def State.stopAll (s : State) : State :=
  s.ctxs.foldl (fun s (c, x) => x.window.foldl (fun s e => s.poisonEntry c e.seq 0) s) s

/-- UCIE_JOIN_FAILURE, R438. -/
def execUcieJoinFailure (j : Nat) (σ : State) : Out :=
  .next (if 4 ≤ j ∨ σ.joinsFailed.contains j then σ
  else
    let σ := ({ σ with joinsFailed := sadd j σ.joinsFailed }).logEvent evJoinFailed j
    if 2 ≤ σ.joinsFailed.length then σ.stopAll.logEvent evFatal j else σ)

/-! ECC errors (R451). -/

/-- The block of a snapshot that counts an error (R434): of a stack's controller (log 17). -/
def errBlock : ErrWhere → Nat
  | .hbm pa => 2564 + stackOf pa
  | .sliceData sl _ | .sliceTables sl | .tlb sl _ _ => 2048 + sl
  | .prismData p _ _ => 8 * p
  | .localStore f _ | .vreg f _ _ _ | .scalar f _ _ | .acc f _ _ => f

/-- An error lies in a part that the device has: HBM addresses beyond stack 11 name none (R19, log 17). -/
def errExists : ErrWhere → Bool
  | .hbm pa => stackOf pa < 12
  | _ => true

/-- The tasks of a facet that meet a test fault with POISON. -/
def State.poisonTasks (s : State) (f : Nat) (p : Nat → Slot → Bool) : State :=
  (s.facet f).slots.foldl (fun s (n, sl) =>
    match sl.job with
    | .task c seq _ _ =>
      if p n sl then
        s.entryFaults c seq { cause := cPOISON, ord := sl.ord.toNat, pc := sl.th.pc, tid := s.tid f n }
      else s
    | .handler c seq _ =>
      if p n sl then s.entryFaults c seq { cause := cPOISON, handler := true, pc := sl.th.pc, tid := s.tid f n } else s
    | .vacant => s) s

/-- A granule of a cache line is poisoned. -/
def Line.poisonAt (l : Line) (off : Nat) : Line :=
  let g := off / 64
  { l with poison := setBit (setBit l.poison (2 * g) true) (2 * g + 1) true }

/-- A VSTORE or VPUT whose bytes are still being streamed from a word of local store ends with a POISON late report (R230, R244): the version
of the VSTORE is dropped, on another device by that device, and that of the VPUT stays OPEN. -/
def State.poisonStreams (s : State) (f la : Nat) : State :=
  let hit := (s.facet f).sb.filter fun e => e.kind == .vstore && overlaps e.laddr e.len la 4
  hit.foldl
    (fun s e => match s.req e.op with
      | none => s
      | some r =>
        if r.stage ≠ .returning then s
        else match r.op, s.whereIs r.va, s.home r.ctx r.va with
          | .create _ ver _ _ _ _ _, .here, some sl => (s.lateReq e.op cPOISON).dropV sl r.ctx (localVa r.va) ver
          | _, _, _ => s.lateReq e.op cPOISON)
    s

/-- What an uncorrectable error does where it lies. A shared register concerns every task of its facet: the reference names no context for one
(log 73). -/
def State.eccError (s : State) (w : ErrWhere) : State :=
  match w with
  | .hbm pa => { s with memP := sadd (pa / 64) s.memP }
  | .sliceData sl pa =>
    (match kfind (pa / 512) (s.slice sl).cache with
      | some l => s.modSlice sl fun x => { x with cache := kset (pa / 512) (l.poisonAt (pa % 512)) x.cache }
      | none => s)
  | .prismData p asn va =>
    let k := asn * 2 ^ 55 + va / 512
    (match kfind k (s.prism p).cache with
      | some l => s.modPrism p fun x => { x with cache := kset k (l.poisonAt (va % 512)) x.cache }
      | none => s)
  | .localStore f word => (s.poisonStreams f (4 * word)).poisonTasks f fun n _ => s.mayUse f n (4 * word) 4
  | .vreg f bank _ lane => s.poisonTasks f fun n _ => decide (lane < (s.facet f).grant) && (bank == 16 || n == bank)
  | .scalar f n _ => s.poisonTasks f fun m _ => m == n
  | .acc f q _ =>
    (match ((s.facet f).mq q).bind with
      | some b => s.poisonTasks f fun _ sl => (sl.owner.map Prod.fst) == some b.ctx
      | none => s)
  | .sliceTables sl =>
    let x := s.slice sl
    let ctxs := ((x.versions.map (·.ctx)) ++ (x.records.map (·.c)) ++
      ((x.parkq ++ x.quota ++ x.heldD).filterMap fun id => (s.req id).map (·.ctx))).dedup
    let s := s.modSlice sl fun x => { x with noCreate := true }
    ctxs.foldl (fun s c => (s.ctx c).window.foldl (fun s e => s.poisonEntry c e.seq 0) s) s
  | .tlb sl asn va => s.modSlice sl fun x => { x with tlb := x.tlb.filter fun e => !e.covers asn va }

/-- An error counted at its block: corrected ones, and uncorrected ones. -/
def State.countErr (s : State) (w : ErrWhere) (corrected : Bool) : State :=
  let one := fun (e : Nat × Nat) => if corrected then (e.1 + 1, e.2) else (e.1, e.2 + 1)
  { s with errs := kmod (0, 0) (errBlock w) one s.errs }

/-- UNCORRECTABLE_ERROR, R451. -/
def execUncorrectableError (w : ErrWhere) (σ : State) : Out :=
  .next (if errExists w then ((σ.eccError w).countErr w false).logEvent evUncorrectable (errBlock w) else σ)
/-- CORRECTABLE_ERROR, R451. -/
def execCorrectableError (w : ErrWhere) (σ : State) : Out := .next (if errExists w then σ.countErr w true else σ)

/-! Throttling and shutdown (R453). -/

/-- The prisms of a die. -/
def prismsOfDie (die : Nat) : List Nat := (List.range 64).map fun i => 64 * die + i

/-- The prisms of a die run slower by one step, pinned ones apart; below 95 °C they run at full speed. -/
def State.slower (s : State) (die : Nat) (by' : Nat → Nat) : State :=
  (prismsOfDie die).foldl (fun s p => s.modPrism p fun x => if x.pin then x else { x with throttle := by' x.throttle }) s

/-- A die at its throttling limit that reaches 105 °C: its elastic prisms are drained, and its pinned ones once no elastic one is left to
drain; each drain is logged. -/
def State.drainDie (s : State) (die : Nat) : State :=
  let active := (prismsOfDie die).filter fun p => (s.prism p).state == .active
  let elastic := active.filter fun p => !(s.prism p).pin
  (if elastic.isEmpty then active else elastic).foldl (fun s p => (s.drainPrism p).logEvent evDrain p) s

/-- THROTTLING, R453. -/
def execThrottling (die temp : Nat) (σ : State) : Out :=
  .next (if 4 ≤ die then σ
  else if temp < 95 then σ.slower die fun _ => 0
  else if 105 ≤ temp ∧ (prismsOfDie die).all (fun p => (σ.prism p).pin || (σ.prism p).throttle == 15) then σ.drainDie die
  else σ.slower die fun n => min 15 (n + 1))

/-- SHUTDOWN, R453. -/
def execShutdown (die : Nat) (σ : State) : Out := .next (if die < 4 then { σ with power := .shutDown } else σ)

end Sys2Proof.Machine
end

