-- ==== Sys2Proof/Machine/Predicates.lean ====
section
/-! DEFINITION. Predicates: PRED (R213, R214). -/

namespace Sys2Proof.Machine

/-- An integer compare on operands extended from width w by U (R213). -/
def cmpOp (σ : State) (u : Bool) (w : Width) (b a : BitVec 5) (d : BitVec 3) (f : Word → Word → Bool) : Out :=
  issue σ { reads := [a, b], pwrites := [d] } fun t => retire σ (t.wp d (f (narrow w u (t.rx a)) (narrow w u (t.rx b))))

/-- A floating compare with its result on NaN operands, and whether every NaN raises NV (R214). -/
def fcmpOp (σ : State) (ty : FTyp) (b a : BitVec 5) (d : BitVec 3) (onNan loud : Bool) (f : FVal → FVal → Bool) : Out :=
  issue σ { reads := [a, b], pwrites := [d], cycles := fpCycles } fun t =>
    let m := typFmt ty
    let x := decodeFloat m (fpOperand m (t.rx a))
    let y := decodeFloat m (fpOperand m (t.rx b))
    let nan := x.isNan || y.isNan
    finishFp σ t (if x.isSnan || y.isSnan || (loud && nan) then xNV else 0) 0 fun t =>
      t.wp d (if nan then onNan else f x y)

/-- An operation on two predicates. -/
def predOp (σ : State) (d : BitVec 3) (ps : List (BitVec 3)) (f : Thread → Bool) : Out :=
  issue σ { preads := ps, pwrites := [d] } fun t => retire σ (t.wp d (f t))

/-- CMPEQ, R213. -/
def execCmpeq (u : Bool) (w : Width) (b a : BitVec 5) (d : BitVec 3) (σ : State) : Out := cmpOp σ u w b a d (· == ·)
/-- CMPNE, R213. -/
def execCmpne (u : Bool) (w : Width) (b a : BitVec 5) (d : BitVec 3) (σ : State) : Out := cmpOp σ u w b a d (· != ·)
/-- CMPLT, R213. -/
def execCmplt (u : Bool) (w : Width) (b a : BitVec 5) (d : BitVec 3) (σ : State) : Out := cmpOp σ u w b a d (lessThan u)
/-- CMPGE, R213. -/
def execCmpge (u : Bool) (w : Width) (b a : BitVec 5) (d : BitVec 3) (σ : State) : Out :=
  cmpOp σ u w b a d fun x y => !lessThan u x y
/-- FCMPEQ, R214. -/
def execFcmpeq (t : FTyp) (b a : BitVec 5) (d : BitVec 3) (σ : State) : Out := fcmpOp σ t b a d false false fEqual
/-- FCMPNE, R214. -/
def execFcmpne (t : FTyp) (b a : BitVec 5) (d : BitVec 3) (σ : State) : Out :=
  fcmpOp σ t b a d true false fun x y => !fEqual x y
/-- FCMPLT, R214. -/
def execFcmplt (t : FTyp) (b a : BitVec 5) (d : BitVec 3) (σ : State) : Out := fcmpOp σ t b a d false true fLess
/-- FCMPLE, R214. -/
def execFcmple (t : FTyp) (b a : BitVec 5) (d : BitVec 3) (σ : State) : Out :=
  fcmpOp σ t b a d false true fun x y => !fLess y x
/-- FCMPUN, R214. -/
def execFcmpun (t : FTyp) (b a : BitVec 5) (d : BitVec 3) (σ : State) : Out := fcmpOp σ t b a d true false fun _ _ => false
/-- PAND, R213. -/
def execPand (b a d : BitVec 3) (σ : State) : Out := predOp σ d [a, b] fun t => t.rp a && t.rp b
/-- POR, R213. -/
def execPor (b a d : BitVec 3) (σ : State) : Out := predOp σ d [a, b] fun t => t.rp a || t.rp b
/-- PXOR, R213. -/
def execPxor (b a d : BitVec 3) (σ : State) : Out := predOp σ d [a, b] fun t => t.rp a != t.rp b
/-- PANDN, R213. -/
def execPandn (b a d : BitVec 3) (σ : State) : Out := predOp σ d [a, b] fun t => t.rp a && !t.rp b
/-- PNOT, R213. -/
def execPnot (a d : BitVec 3) (σ : State) : Out := predOp σ d [a] fun t => !t.rp a
/-- PPACK, R213. -/
def execPpack (d : BitVec 5) (σ : State) : Out :=
  issue σ { writes := [d], preads := [1, 2, 3, 4, 5, 6, 7] } fun t => retire σ (t.wx d (zext64 (t.p ||| 1)) false)
/-- PUNPACK, R213. -/
def execPunpack (m : BitVec 7) (a : BitVec 5) (σ : State) : Out :=
  issue σ { reads := [a] } fun t =>
    let k : BitVec 8 := m ++ 0#1
    retire σ { t with p := (t.p &&& ~~~k) ||| ((t.rx a).setWidth 8 &&& k),
                      lat := t.lat.filter fun (r, _) => r < 32 || !k.getLsbD (r - 32) }

/-- SEL, R213. -/
def execSel (n : BitVec 3) (b a d : BitVec 5) (σ : State) : Out :=
  issue σ { reads := [a, b], preads := [n], writes := [d] } fun t =>
    let r := if t.rp n then a else b
    retire σ (t.wx d (t.rx r) (t.tx r))

/-- TTEST, R213. -/
def execTtest (a : BitVec 5) (d : BitVec 3) (σ : State) : Out :=
  issue σ { reads := [a], pwrites := [d] } fun t => retire σ (t.wp d (t.tx a))

end Sys2Proof.Machine
end

