-- ==== Sys2Proof/Machine/ScalarFloat.lean ====
section
/-! DEFINITION. Scalar floating point: FOP and FMA (R207 to R212). -/

namespace Sys2Proof.Machine

/-- The latency of a division or a square root by type (R223). -/
def fdivCycles : FTyp → Nat
  | .f64 => 36
  | .f32 | .bf16 | .f16 => 20

/-- Decode and issue of a prefixable instruction of FOP or FMA: a format that the prefix specifies for a role the instruction does
not let it replace is ILLEGAL (R188). -/
def issueFp (σ : State) (reads : List (BitVec 5)) (d : BitVec 5) (accepts : Prefix → Bool) (k : Thread → Out) (cycles : Nat := fpCycles)
    (divides : Bool := false) : Out :=
  let refuse := if accepts (σ.thread σ.turn).pre then none else some cILLEGAL
  issue σ { prefixed := true, refuse, reads := reads, writes := [d], cycles, divides } k

/-- No format of the instruction may be replaced. -/
def noFormats (p : Prefix) : Bool := p.fa.isNone && p.fb.isNone && p.fd.isNone

/-- An operation that rounds once to the format of its type (R207). -/
def roundOp (σ : State) (ty : FTyp) (reads : List (BitVec 5)) (d : BitVec 5) (f : (BitVec 5 → FVal) → RMode → FRes)
    (cycles : Nat := fpCycles) (divides : Bool := false) : Out :=
  issueFp σ reads d noFormats (cycles := cycles) (divides := divides) fun t =>
    let m := typFmt ty
    let (v, x) := deliver m (t.rounding 0) (f (fun r => decodeFloat m (fpOperand m (t.rx r))) t.mode)
    finishFp σ t x 1 fun t => t.wx d (BitVec.ofNat 64 v) (reads.any t.tx)

/-- FMIN, FMAX: nothing is rounded (R208). -/
def minMaxOp (σ : State) (max : Bool) (ty : FTyp) (b a d : BitVec 5) : Out :=
  issueFp σ [a, b] d noFormats fun t =>
    let m := typFmt ty
    let (v, x) := fMinMax max m (fpOperand m (t.rx a)) (fpOperand m (t.rx b))
    finishFp σ t x 0 fun t => t.wx d (BitVec.ofNat 64 v) (t.tx a || t.tx b)

/-- FSGN: the magnitude of X[a] with a sign made from both signs (R209). -/
def signOp (σ : State) (ty : FTyp) (b a d : BitVec 5) (f : Bool → Bool → Bool) : Out :=
  issueFp σ [a, b] d noFormats fun t =>
    let m := typFmt ty
    let x := fpOperand m (t.rx a)
    let sgn := f (x.testBit (m.width - 1)) ((t.rx b).toNat.testBit (m.width - 1))
    retire σ (t.wx d (BitVec.ofNat 64 (withSign m sgn (x % 2 ^ (m.width - 1)))) (t.tx a || t.tx b))

/-- The sign-extension or zero-extension of an integer result (R210). -/
def integerResult (f : Fmt) (v : Nat) : Word := BitVec.ofInt 64 (decodeInt f v)

/-- FCVT: prefix fa replaces the source and fd the destination, with a code of the same kind (R210). -/
def cvtOp (σ : State) (src dst : Fmt) (a d : BitVec 5) : Out :=
  issueFp σ [a] d
    (fun p => p.fb.isNone && (p.fa.map (·.isFloat == src.isFloat)).getD true && (p.fd.map (·.isFloat == dst.isFloat)).getD true)
    fun t =>
      let src := t.pre.fa.getD src
      let dst := t.pre.fd.getD dst
      let (v, x) := convert src dst (t.rounding 0) (fpOperand src (t.rx a))
      finishFp σ t x 1 fun t => t.wx d (if dst.isFloat then BitVec.ofNat 64 v else integerResult dst v) (t.tx a)

/-- FADD, R207. -/
def execFadd (t : FTyp) (b a d : BitVec 5) (σ : State) : Out := roundOp σ t [a, b] d fun x m => fAdd (m = .rdn) (x a) (x b)
/-- FSUB, R207. -/
def execFsub (t : FTyp) (b a d : BitVec 5) (σ : State) : Out :=
  roundOp σ t [a, b] d fun x m => fAdd (m = .rdn) (x a) (x b).neg
/-- FMUL, R207. -/
def execFmul (t : FTyp) (b a d : BitVec 5) (σ : State) : Out := roundOp σ t [a, b] d fun x _ => fMul (x a) (x b)
/-- FDIV, R207. -/
def execFdiv (t : FTyp) (b a d : BitVec 5) (σ : State) : Out :=
  roundOp σ t [a, b] d (fun x _ => fDiv (x a) (x b)) (fdivCycles t) true
/-- FSQRT, R207. -/
def execFsqrt (t : FTyp) (a d : BitVec 5) (σ : State) : Out :=
  roundOp σ t [a] d (fun x _ => fSqrt (x a)) (fdivCycles t) true
/-- FMIN, R208. -/
def execFmin (t : FTyp) (b a d : BitVec 5) (σ : State) : Out := minMaxOp σ false t b a d
/-- FMAX, R208. -/
def execFmax (t : FTyp) (b a d : BitVec 5) (σ : State) : Out := minMaxOp σ true t b a d
/-- FSGNJ, R209. -/
def execFsgnj (t : FTyp) (b a d : BitVec 5) (σ : State) : Out := signOp σ t b a d fun _ y => y
/-- FSGNJN, R209. -/
def execFsgnjn (t : FTyp) (b a d : BitVec 5) (σ : State) : Out := signOp σ t b a d fun _ y => !y
/-- FSGNJX, R209. -/
def execFsgnjx (t : FTyp) (b a d : BitVec 5) (σ : State) : Out := signOp σ t b a d fun x y => x != y
/-- FCVT_FLOAT_TO_FLOAT, R210. -/
def execFcvtFloatToFloat (t : FTyp) (b : Fmt) (a d : BitVec 5) (σ : State) : Out := cvtOp σ (typFmt t) b a d
/-- FCVT_FLOAT_TO_INTEGER, R210. -/
def execFcvtFloatToInteger (t : FTyp) (b : Fmt) (a d : BitVec 5) (σ : State) : Out := cvtOp σ (typFmt t) b a d
/-- FCVT_INTEGER_TO_FLOAT, R210. -/
def execFcvtIntegerToFloat (t : FTyp) (b : Fmt) (a d : BitVec 5) (σ : State) : Out := cvtOp σ b (typFmt t) a d
/-- FCLASS, R211. -/
def execFclass (t : FTyp) (a d : BitVec 5) (σ : State) : Out :=
  issueFp σ [a] d (fun p => p.fb.isNone && p.fd.isNone && (p.fa.map (·.isFloat)).getD true) fun th =>
    let m := th.pre.fa.getD (typFmt t)
    retire σ (th.wx d (BitVec.ofNat 64 (fClass m (fpOperand m (th.rx a)))) (th.tx a))

/-- FMADD, R212. -/
def execFmadd (c : BitVec 5) (t : FTyp) (b a d : BitVec 5) (σ : State) : Out :=
  roundOp σ t [a, b, c] d fun x m => fFma (m = .rdn) (x a) (x b) (x c)
/-- FMSUB, R212. -/
def execFmsub (c : BitVec 5) (t : FTyp) (b a d : BitVec 5) (σ : State) : Out :=
  roundOp σ t [a, b, c] d fun x m => fFma (m = .rdn) (x a) (x b) (x c).neg
/-- FNMSUB, R212. -/
def execFnmsub (c : BitVec 5) (t : FTyp) (b a d : BitVec 5) (σ : State) : Out :=
  roundOp σ t [a, b, c] d fun x m => fFma (m = .rdn) (x a).neg (x b) (x c)
/-- FNMADD, R212. -/
def execFnmadd (c : BitVec 5) (t : FTyp) (b a d : BitVec 5) (σ : State) : Out :=
  roundOp σ t [a, b, c] d fun x m => fFma (m = .rdn) (x a).neg (x b) (x c).neg

end Sys2Proof.Machine
end

