-- ==== Sys2Proof/Machine/Dispatch.lean ====
section
/-! DEFINITION. One arm for every constructor of Instr: one direct call of its meaning. -/

namespace Sys2Proof.Machine

/-- The meaning of an instruction or of a step without a word. -/
def exec (i : Instr) (s : State) : Host.Outcome State Fault Refusal :=
  match i with
  | .entryIssue v1 v2 => Sys2Proof.Machine.execEntryIssue v1 v2 s
  | .askForWork v1 => Sys2Proof.Machine.execAskForWork v1 s
  | .gangAdmission v1 v2 v3 => Sys2Proof.Machine.execGangAdmission v1 v2 v3 s
  | .entryComplete v1 v2 => Sys2Proof.Machine.execEntryComplete v1 v2 s
  | .entryRetire v1 => Sys2Proof.Machine.execEntryRetire v1 s
  | .supersedeNotice v1 v2 v3 v4 v5 => Sys2Proof.Machine.execSupersedeNotice v1 v2 v3 v4 v5 s
  | .taskFault v1 v2 => Sys2Proof.Machine.execTaskFault v1 v2 s
  | .reportedEntry v1 => Sys2Proof.Machine.execReportedEntry v1 s
  | .faultDelivery v1 => Sys2Proof.Machine.execFaultDelivery v1 s
  | .acceptance v1 v2 => Sys2Proof.Machine.execAcceptance v1 v2 s
  | .refusedRequestResend v1 => Sys2Proof.Machine.execRefusedRequestResend v1 s
  | .loadDataReturn v1 v2 => Sys2Proof.Machine.execLoadDataReturn v1 v2 s
  | .writeBack v1 => Sys2Proof.Machine.execWriteBack v1 s
  | .atomicApply v1 v2 => Sys2Proof.Machine.execAtomicApply v1 v2 s
  | .joinDecrement v1 v2 => Sys2Proof.Machine.execJoinDecrement v1 v2 s
  | .holdingBufferRecord v1 => Sys2Proof.Machine.execHoldingBufferRecord v1 s
  | .batchClose v1 v2 v3 => Sys2Proof.Machine.execBatchClose v1 v2 v3 s
  | .reductionLineMerge v1 v2 v3 => Sys2Proof.Machine.execReductionLineMerge v1 v2 v3 s
  | .prefetch v1 v2 => Sys2Proof.Machine.execPrefetch v1 v2 s
  | .seal v1 v2 v3 => Sys2Proof.Machine.execSeal v1 v2 v3 s
  | .versionArrivalNotice v1 v2 => Sys2Proof.Machine.execVersionArrivalNotice v1 v2 s
  | .copyPiece v1 v2 => Sys2Proof.Machine.execCopyPiece v1 v2 s
  | .copyCompletion v1 => Sys2Proof.Machine.execCopyCompletion v1 s
  | .mergeWindowClose v1 v2 => Sys2Proof.Machine.execMergeWindowClose v1 v2 s
  | .waitLimit v1 => Sys2Proof.Machine.execWaitLimit v1 s
  | .builtInOperation v1 => Sys2Proof.Machine.execBuiltInOperation v1 s
  | .rstfResend v1 v2 => Sys2Proof.Machine.execRstfResend v1 v2 s
  | .messageDelivery v1 v2 => Sys2Proof.Machine.execMessageDelivery v1 v2 s
  | .messageResend v1 => Sys2Proof.Machine.execMessageResend v1 s
  | .handlerStart v1 => Sys2Proof.Machine.execHandlerStart v1 s
  | .sequencerStart v1 => Sys2Proof.Machine.execSequencerStart v1 s
  | .sequencerResult v1 v2 => Sys2Proof.Machine.execSequencerResult v1 v2 s
  | .streamTransfer v1 v2 => Sys2Proof.Machine.execStreamTransfer v1 v2 s
  | .mergeComplete v1 => Sys2Proof.Machine.execMergeComplete v1 s
  | .queueBinding v1 => Sys2Proof.Machine.execQueueBinding v1 s
  | .matrixReadsBegin v1 v2 => Sys2Proof.Machine.execMatrixReadsBegin v1 v2 s
  | .matrixComputeBegin v1 v2 => Sys2Proof.Machine.execMatrixComputeBegin v1 v2 s
  | .matrixCompletion v1 v2 => Sys2Proof.Machine.execMatrixCompletion v1 v2 s
  | .collectionWindowClose v1 => Sys2Proof.Machine.execCollectionWindowClose v1 s
  | .lateReport v1 v2 => Sys2Proof.Machine.execLateReport v1 v2 s
  | .scWindowClose v1 => Sys2Proof.Machine.execScWindowClose v1 s
  | .endMarker v1 v2 v3 => Sys2Proof.Machine.execEndMarker v1 v2 v3 s
  | .interrupt v1 => Sys2Proof.Machine.execInterrupt v1 s
  | .timer v1 => Sys2Proof.Machine.execTimer v1 s
  | .faultQueueRepost v1 => Sys2Proof.Machine.execFaultQueueRepost v1 s
  | .sfrplyRetry v1 v2 => Sys2Proof.Machine.execSfrplyRetry v1 v2 s
  | .sfrplyNomap v1 v2 => Sys2Proof.Machine.execSfrplyNomap v1 v2 s
  | .sfrplyAccess v1 v2 => Sys2Proof.Machine.execSfrplyAccess v1 v2 s
  | .spreSave v1 v2 v3 => Sys2Proof.Machine.execSpreSave v1 v2 v3 s
  | .withdrawalAnswer v1 v2 => Sys2Proof.Machine.execWithdrawalAnswer v1 v2 s
  | .saveDrainEnd v1 => Sys2Proof.Machine.execSaveDrainEnd v1 s
  | .spreResume v1 v2 v3 => Sys2Proof.Machine.execSpreResume v1 v2 v3 s
  | .ctxtSetV v1 v2 v3 => Sys2Proof.Machine.execCtxtSetV v1 v2 v3 s
  | .ctxtClearV v1 v2 v3 => Sys2Proof.Machine.execCtxtClearV v1 v2 v3 s
  | .notify v1 v2 => Sys2Proof.Machine.execNotify v1 v2 s
  | .qmapSetV v1 v2 v3 => Sys2Proof.Machine.execQmapSetV v1 v2 v3 s
  | .qmapClearV v1 v2 v3 => Sys2Proof.Machine.execQmapClearV v1 v2 v3 s
  | .drain v1 => Sys2Proof.Machine.execDrain v1 s
  | .drainIdle v1 => Sys2Proof.Machine.execDrainIdle v1 s
  | .prismReturn v1 => Sys2Proof.Machine.execPrismReturn v1 s
  | .remove v1 => Sys2Proof.Machine.execRemove v1 s
  | .clockChange v1 => Sys2Proof.Machine.execClockChange v1 s
  | .scfgWrite v1 v2 => Sys2Proof.Machine.execScfgWrite v1 v2 s
  | .invalidatePage v1 v2 v3 => Sys2Proof.Machine.execInvalidatePage v1 v2 v3 s
  | .invalidateContext v1 v2 => Sys2Proof.Machine.execInvalidateContext v1 v2 s
  | .invalidatePartition v1 => Sys2Proof.Machine.execInvalidatePartition v1 s
  | .invalidationDone v1 => Sys2Proof.Machine.execInvalidationDone v1 s
  | .movePage v1 v2 => Sys2Proof.Machine.execMovePage v1 v2 s
  | .moveFrameArea v1 => Sys2Proof.Machine.execMoveFrameArea v1 s
  | .transferHome v1 v2 => Sys2Proof.Machine.execTransferHome v1 v2 s
  | .migrationCopyDone v1 => Sys2Proof.Machine.execMigrationCopyDone v1 s
  | .hint v1 v2 => Sys2Proof.Machine.execHint v1 v2 s
  | .registerWrite v1 v2 v3 => Sys2Proof.Machine.execRegisterWrite v1 v2 v3 s
  | .halt v1 v2 => Sys2Proof.Machine.execHalt v1 v2 s
  | .rel v1 v2 => Sys2Proof.Machine.execRel v1 v2 s
  | .run v1 v2 => Sys2Proof.Machine.execRun v1 v2 s
  | .step v1 v2 => Sys2Proof.Machine.execStep v1 v2 s
  | .hset v1 v2 => Sys2Proof.Machine.execHset v1 v2 s
  | .hclr v1 v2 => Sys2Proof.Machine.execHclr v1 v2 s
  | .detach v1 => Sys2Proof.Machine.execDetach v1 s
  | .breakpointMatch v1 v2 => Sys2Proof.Machine.execBreakpointMatch v1 v2 s
  | .watchpointMatch v1 v2 v3 v4 => Sys2Proof.Machine.execWatchpointMatch v1 v2 v3 v4 s
  | .memoryPortRead v1 => Sys2Proof.Machine.execMemoryPortRead v1 s
  | .memoryPortWrite v1 => Sys2Proof.Machine.execMemoryPortWrite v1 s
  | .clr v1 => Sys2Proof.Machine.execClr v1 s
  | .tsw v1 => Sys2Proof.Machine.execTsw v1 s
  | .timeBaseCompare v1 => Sys2Proof.Machine.execTimeBaseCompare v1 s
  | .testPortTrigger => Sys2Proof.Machine.execTestPortTrigger s
  | .channelStart v1 => Sys2Proof.Machine.execChannelStart v1 s
  | .channelStop v1 => Sys2Proof.Machine.execChannelStop v1 s
  | .testPortUpdate v1 => Sys2Proof.Machine.execTestPortUpdate v1 s
  | .apertureTimeout => Sys2Proof.Machine.execApertureTimeout s
  | .part v1 => Sys2Proof.Machine.execPart v1 s
  | .region v1 => Sys2Proof.Machine.execRegion v1 s
  | .attest v1 => Sys2Proof.Machine.execAttest v1 s
  | .update v1 => Sys2Proof.Machine.execUpdate v1 s
  | .service v1 => Sys2Proof.Machine.execService v1 s
  | .link v1 => Sys2Proof.Machine.execLink v1 s
  | .extend v1 => Sys2Proof.Machine.execExtend v1 s
  | .log v1 => Sys2Proof.Machine.execLog v1 s
  | .apcfg v1 => Sys2Proof.Machine.execApcfg v1 s
  | .functionLevelReset => Sys2Proof.Machine.execFunctionLevelReset s
  | .powerOn v1 => Sys2Proof.Machine.execPowerOn v1 s
  | .flitRetry v1 => Sys2Proof.Machine.execFlitRetry v1 s
  | .pathFailure v1 => Sys2Proof.Machine.execPathFailure v1 s
  | .peerLost v1 => Sys2Proof.Machine.execPeerLost v1 s
  | .syn v1 => Sys2Proof.Machine.execSyn v1 s
  | .trg v1 v2 => Sys2Proof.Machine.execTrg v1 v2 s
  | .ucieJoinFailure v1 => Sys2Proof.Machine.execUcieJoinFailure v1 s
  | .uncorrectableError v1 => Sys2Proof.Machine.execUncorrectableError v1 s
  | .correctableError v1 => Sys2Proof.Machine.execCorrectableError v1 s
  | .throttling v1 v2 => Sys2Proof.Machine.execThrottling v1 v2 s
  | .shutdown v1 => Sys2Proof.Machine.execShutdown v1 s
  | .apertureAccess v1 v2 v3 => Sys2Proof.Machine.execApertureAccess v1 v2 v3 s
  | .portTrained v1 => Sys2Proof.Machine.execPortTrained v1 s
  | .vldl v1 v2 v3 v4 => Sys2Proof.Machine.execVldl v1 v2 v3 v4 s
  | .vstl v1 v2 v3 v4 => Sys2Proof.Machine.execVstl v1 v2 v3 v4 s
  | .vldls v1 v2 v3 v4 v5 => Sys2Proof.Machine.execVldls v1 v2 v3 v4 v5 s
  | .vstls v1 v2 v3 v4 v5 => Sys2Proof.Machine.execVstls v1 v2 v3 v4 v5 s
  | .vld v1 v2 v3 v4 => Sys2Proof.Machine.execVld v1 v2 v3 v4 s
  | .vst v1 v2 v3 v4 => Sys2Proof.Machine.execVst v1 v2 v3 v4 s
  | .vadd v1 v2 v3 v4 v5 v6 => Sys2Proof.Machine.execVadd v1 v2 v3 v4 v5 v6 s
  | .vsub v1 v2 v3 v4 v5 v6 => Sys2Proof.Machine.execVsub v1 v2 v3 v4 v5 v6 s
  | .vmul v1 v2 v3 v4 v5 v6 => Sys2Proof.Machine.execVmul v1 v2 v3 v4 v5 v6 s
  | .vmulh v1 v2 v3 v4 v5 v6 => Sys2Proof.Machine.execVmulh v1 v2 v3 v4 v5 v6 s
  | .vmin v1 v2 v3 v4 v5 v6 => Sys2Proof.Machine.execVmin v1 v2 v3 v4 v5 v6 s
  | .vmax v1 v2 v3 v4 v5 v6 => Sys2Proof.Machine.execVmax v1 v2 v3 v4 v5 v6 s
  | .vand v1 v2 v3 v4 v5 v6 => Sys2Proof.Machine.execVand v1 v2 v3 v4 v5 v6 s
  | .vor v1 v2 v3 v4 v5 v6 => Sys2Proof.Machine.execVor v1 v2 v3 v4 v5 v6 s
  | .vxor v1 v2 v3 v4 v5 v6 => Sys2Proof.Machine.execVxor v1 v2 v3 v4 v5 v6 s
  | .vshl v1 v2 v3 v4 v5 v6 => Sys2Proof.Machine.execVshl v1 v2 v3 v4 v5 v6 s
  | .vshr v1 v2 v3 v4 v5 v6 => Sys2Proof.Machine.execVshr v1 v2 v3 v4 v5 v6 s
  | .vadds v1 v2 v3 v4 v5 v6 => Sys2Proof.Machine.execVadds v1 v2 v3 v4 v5 v6 s
  | .vsubs v1 v2 v3 v4 v5 v6 => Sys2Proof.Machine.execVsubs v1 v2 v3 v4 v5 v6 s
  | .vcmpeq v1 v2 v3 v4 v5 v6 => Sys2Proof.Machine.execVcmpeq v1 v2 v3 v4 v5 v6 s
  | .vcmplt v1 v2 v3 v4 v5 v6 => Sys2Proof.Machine.execVcmplt v1 v2 v3 v4 v5 v6 s
  | .vcmple v1 v2 v3 v4 v5 v6 => Sys2Proof.Machine.execVcmple v1 v2 v3 v4 v5 v6 s
  | .vfadd v1 v2 v3 v4 v5 => Sys2Proof.Machine.execVfadd v1 v2 v3 v4 v5 s
  | .vfsub v1 v2 v3 v4 v5 => Sys2Proof.Machine.execVfsub v1 v2 v3 v4 v5 s
  | .vfmul v1 v2 v3 v4 v5 => Sys2Proof.Machine.execVfmul v1 v2 v3 v4 v5 s
  | .vfdiv v1 v2 v3 v4 v5 => Sys2Proof.Machine.execVfdiv v1 v2 v3 v4 v5 s
  | .vfmin v1 v2 v3 v4 v5 => Sys2Proof.Machine.execVfmin v1 v2 v3 v4 v5 s
  | .vfmax v1 v2 v3 v4 v5 => Sys2Proof.Machine.execVfmax v1 v2 v3 v4 v5 s
  | .vfma v1 v2 v3 v4 v5 => Sys2Proof.Machine.execVfma v1 v2 v3 v4 v5 s
  | .vfnma v1 v2 v3 v4 v5 => Sys2Proof.Machine.execVfnma v1 v2 v3 v4 v5 s
  | .vfcmpun v1 v2 v3 v4 v5 => Sys2Proof.Machine.execVfcmpun v1 v2 v3 v4 v5 s
  | .vfsqrt v1 v2 v3 v4 => Sys2Proof.Machine.execVfsqrt v1 v2 v3 v4 s
  | .vfsgnj v1 v2 v3 v4 v5 => Sys2Proof.Machine.execVfsgnj v1 v2 v3 v4 v5 s
  | .vfsgnjn v1 v2 v3 v4 v5 => Sys2Proof.Machine.execVfsgnjn v1 v2 v3 v4 v5 s
  | .vfsgnjx v1 v2 v3 v4 v5 => Sys2Proof.Machine.execVfsgnjx v1 v2 v3 v4 v5 s
  | .vfcmpeq v1 v2 v3 v4 v5 => Sys2Proof.Machine.execVfcmpeq v1 v2 v3 v4 v5 s
  | .vfcmplt v1 v2 v3 v4 v5 => Sys2Proof.Machine.execVfcmplt v1 v2 v3 v4 v5 s
  | .vfcmple v1 v2 v3 v4 v5 => Sys2Proof.Machine.execVfcmple v1 v2 v3 v4 v5 s
  | .vcvtF v1 v2 v3 v4 v5 => Sys2Proof.Machine.execVcvtF v1 v2 v3 v4 v5 s
  | .vcvtI v1 v2 v3 v4 v5 => Sys2Proof.Machine.execVcvtI v1 v2 v3 v4 v5 s
  | .vqnt32 v1 v2 v3 v4 => Sys2Proof.Machine.execVqnt32 v1 v2 v3 v4 s
  | .vqnt128 v1 v2 v3 v4 => Sys2Proof.Machine.execVqnt128 v1 v2 v3 v4 s
  | .vqnt256 v1 v2 v3 v4 => Sys2Proof.Machine.execVqnt256 v1 v2 v3 v4 s
  | .vdqnt32 v1 v2 v3 v4 => Sys2Proof.Machine.execVdqnt32 v1 v2 v3 v4 s
  | .vdqnt128 v1 v2 v3 v4 => Sys2Proof.Machine.execVdqnt128 v1 v2 v3 v4 s
  | .vdqnt256 v1 v2 v3 v4 => Sys2Proof.Machine.execVdqnt256 v1 v2 v3 v4 s
  | .vexp2 v1 v2 v3 v4 => Sys2Proof.Machine.execVexp2 v1 v2 v3 v4 s
  | .vlog2 v1 v2 v3 v4 => Sys2Proof.Machine.execVlog2 v1 v2 v3 v4 s
  | .vrcp v1 v2 v3 v4 => Sys2Proof.Machine.execVrcp v1 v2 v3 v4 s
  | .vrsqrt v1 v2 v3 v4 => Sys2Proof.Machine.execVrsqrt v1 v2 v3 v4 s
  | .vclz v1 v2 v3 v4 => Sys2Proof.Machine.execVclz v1 v2 v3 v4 s
  | .vctz v1 v2 v3 v4 => Sys2Proof.Machine.execVctz v1 v2 v3 v4 s
  | .vffs v1 v2 v3 v4 => Sys2Proof.Machine.execVffs v1 v2 v3 v4 s
  | .vpopc v1 v2 v3 v4 => Sys2Proof.Machine.execVpopc v1 v2 v3 v4 s
  | .vbcast v1 v2 v3 v4 => Sys2Proof.Machine.execVbcast v1 v2 v3 v4 s
  | .vext v1 v2 v3 v4 v5 => Sys2Proof.Machine.execVext v1 v2 v3 v4 v5 s
  | .vins v1 v2 v3 v4 v5 => Sys2Proof.Machine.execVins v1 v2 v3 v4 v5 s
  | .vperm v1 v2 v3 v4 v5 => Sys2Proof.Machine.execVperm v1 v2 v3 v4 v5 s
  | .vslup v1 v2 v3 v4 v5 => Sys2Proof.Machine.execVslup v1 v2 v3 v4 v5 s
  | .vsldn v1 v2 v3 v4 v5 => Sys2Proof.Machine.execVsldn v1 v2 v3 v4 v5 s
  | .viota v1 v2 v3 => Sys2Proof.Machine.execViota v1 v2 v3 s
  | .vmv v1 v2 v3 v4 => Sys2Proof.Machine.execVmv v1 v2 v3 v4 s
  | .vrsum v1 v2 v3 v4 v5 => Sys2Proof.Machine.execVrsum v1 v2 v3 v4 v5 s
  | .vrmax v1 v2 v3 v4 v5 => Sys2Proof.Machine.execVrmax v1 v2 v3 v4 v5 s
  | .vrmin v1 v2 v3 v4 v5 => Sys2Proof.Machine.execVrmin v1 v2 v3 v4 v5 s
  | .vscan v1 v2 v3 v4 v5 => Sys2Proof.Machine.execVscan v1 v2 v3 v4 v5 s
  | .vpmrg v1 v2 v3 => Sys2Proof.Machine.execVpmrg v1 v2 v3 s
  | .vclaim v1 v2 => Sys2Proof.Machine.execVclaim v1 v2 s
  | .vyield v1 v2 => Sys2Proof.Machine.execVyield v1 v2 s
  | .vloop v1 v2 => Sys2Proof.Machine.execVloop v1 v2 s
  | .vbind v1 v2 v3 => Sys2Proof.Machine.execVbind v1 v2 v3 s
  | .vunbind v1 => Sys2Proof.Machine.execVunbind v1 s
  | .vsetvl v1 v2 v3 => Sys2Proof.Machine.execVsetvl v1 v2 v3 s
  | .vstat v1 => Sys2Proof.Machine.execVstat v1 s
  | .mxmul v1 v2 v3 v4 v5 v6 => Sys2Proof.Machine.execMxmul v1 v2 v3 v4 v5 v6 s
  | .mxmulz v1 v2 v3 v4 v5 v6 => Sys2Proof.Machine.execMxmulz v1 v2 v3 v4 v5 v6 s
  | .mxzero v1 v2 => Sys2Proof.Machine.execMxzero v1 v2 s
  | .mxld v1 v2 v3 v4 => Sys2Proof.Machine.execMxld v1 v2 v3 v4 s
  | .mxst v1 v2 v3 v4 v5 => Sys2Proof.Machine.execMxst v1 v2 v3 v4 v5 s
  | .mxadd v1 v2 v3 => Sys2Proof.Machine.execMxadd v1 v2 v3 s
  | .mxtr v1 v2 v3 => Sys2Proof.Machine.execMxtr v1 v2 v3 s
  | .mxrel v1 => Sys2Proof.Machine.execMxrel v1 s
  | .mxfence v1 => Sys2Proof.Machine.execMxfence v1 s
  | .add v1 v2 v3 v4 => Sys2Proof.Machine.execAdd v1 v2 v3 v4 s
  | .sub v1 v2 v3 v4 => Sys2Proof.Machine.execSub v1 v2 v3 v4 s
  | .mul v1 v2 v3 v4 => Sys2Proof.Machine.execMul v1 v2 v3 v4 s
  | .mulh v1 v2 v3 v4 => Sys2Proof.Machine.execMulh v1 v2 v3 v4 s
  | .addx2 v1 v2 v3 v4 => Sys2Proof.Machine.execAddx2 v1 v2 v3 v4 s
  | .addx4 v1 v2 v3 v4 => Sys2Proof.Machine.execAddx4 v1 v2 v3 v4 s
  | .addx8 v1 v2 v3 v4 => Sys2Proof.Machine.execAddx8 v1 v2 v3 v4 s
  | .addx16 v1 v2 v3 v4 => Sys2Proof.Machine.execAddx16 v1 v2 v3 v4 s
  | .shl v1 v2 v3 v4 => Sys2Proof.Machine.execShl v1 v2 v3 v4 s
  | .shr v1 v2 v3 v4 => Sys2Proof.Machine.execShr v1 v2 v3 v4 s
  | .rol v1 v2 v3 v4 => Sys2Proof.Machine.execRol v1 v2 v3 v4 s
  | .ror v1 v2 v3 v4 => Sys2Proof.Machine.execRor v1 v2 v3 v4 s
  | .min v1 v2 v3 v4 => Sys2Proof.Machine.execMin v1 v2 v3 v4 s
  | .max v1 v2 v3 v4 => Sys2Proof.Machine.execMax v1 v2 v3 v4 s
  | .div v1 v2 v3 v4 => Sys2Proof.Machine.execDiv v1 v2 v3 v4 s
  | .rem v1 v2 v3 v4 => Sys2Proof.Machine.execRem v1 v2 v3 v4 s
  | .and v1 v2 v3 v4 => Sys2Proof.Machine.execAnd v1 v2 v3 v4 s
  | .or v1 v2 v3 v4 => Sys2Proof.Machine.execOr v1 v2 v3 v4 s
  | .xor v1 v2 v3 v4 => Sys2Proof.Machine.execXor v1 v2 v3 v4 s
  | .andn v1 v2 v3 v4 => Sys2Proof.Machine.execAndn v1 v2 v3 v4 s
  | .orn v1 v2 v3 v4 => Sys2Proof.Machine.execOrn v1 v2 v3 v4 s
  | .xnor v1 v2 v3 v4 => Sys2Proof.Machine.execXnor v1 v2 v3 v4 s
  | .clz v1 v2 v3 => Sys2Proof.Machine.execClz v1 v2 v3 s
  | .ctz v1 v2 v3 => Sys2Proof.Machine.execCtz v1 v2 v3 s
  | .ffs v1 v2 v3 => Sys2Proof.Machine.execFfs v1 v2 v3 s
  | .popc v1 v2 v3 => Sys2Proof.Machine.execPopc v1 v2 v3 s
  | .brev v1 v2 v3 => Sys2Proof.Machine.execBrev v1 v2 v3 s
  | .bswap v1 v2 v3 => Sys2Proof.Machine.execBswap v1 v2 v3 s
  | .addW v1 v2 v3 v4 v5 => Sys2Proof.Machine.execAddW v1 v2 v3 v4 v5 s
  | .subW v1 v2 v3 v4 v5 => Sys2Proof.Machine.execSubW v1 v2 v3 v4 v5 s
  | .mulW v1 v2 v3 v4 v5 => Sys2Proof.Machine.execMulW v1 v2 v3 v4 v5 s
  | .mulhW v1 v2 v3 v4 v5 => Sys2Proof.Machine.execMulhW v1 v2 v3 v4 v5 s
  | .addx2W v1 v2 v3 v4 v5 => Sys2Proof.Machine.execAddx2W v1 v2 v3 v4 v5 s
  | .addx4W v1 v2 v3 v4 v5 => Sys2Proof.Machine.execAddx4W v1 v2 v3 v4 v5 s
  | .addx8W v1 v2 v3 v4 v5 => Sys2Proof.Machine.execAddx8W v1 v2 v3 v4 v5 s
  | .addx16W v1 v2 v3 v4 v5 => Sys2Proof.Machine.execAddx16W v1 v2 v3 v4 v5 s
  | .shlW v1 v2 v3 v4 v5 => Sys2Proof.Machine.execShlW v1 v2 v3 v4 v5 s
  | .shrW v1 v2 v3 v4 v5 => Sys2Proof.Machine.execShrW v1 v2 v3 v4 v5 s
  | .rolW v1 v2 v3 v4 v5 => Sys2Proof.Machine.execRolW v1 v2 v3 v4 v5 s
  | .rorW v1 v2 v3 v4 v5 => Sys2Proof.Machine.execRorW v1 v2 v3 v4 v5 s
  | .minW v1 v2 v3 v4 v5 => Sys2Proof.Machine.execMinW v1 v2 v3 v4 v5 s
  | .maxW v1 v2 v3 v4 v5 => Sys2Proof.Machine.execMaxW v1 v2 v3 v4 v5 s
  | .divW v1 v2 v3 v4 v5 => Sys2Proof.Machine.execDivW v1 v2 v3 v4 v5 s
  | .remW v1 v2 v3 v4 v5 => Sys2Proof.Machine.execRemW v1 v2 v3 v4 v5 s
  | .andW v1 v2 v3 v4 v5 => Sys2Proof.Machine.execAndW v1 v2 v3 v4 v5 s
  | .orW v1 v2 v3 v4 v5 => Sys2Proof.Machine.execOrW v1 v2 v3 v4 v5 s
  | .xorW v1 v2 v3 v4 v5 => Sys2Proof.Machine.execXorW v1 v2 v3 v4 v5 s
  | .andnW v1 v2 v3 v4 v5 => Sys2Proof.Machine.execAndnW v1 v2 v3 v4 v5 s
  | .ornW v1 v2 v3 v4 v5 => Sys2Proof.Machine.execOrnW v1 v2 v3 v4 v5 s
  | .xnorW v1 v2 v3 v4 v5 => Sys2Proof.Machine.execXnorW v1 v2 v3 v4 v5 s
  | .clzW v1 v2 v3 v4 => Sys2Proof.Machine.execClzW v1 v2 v3 v4 s
  | .ctzW v1 v2 v3 v4 => Sys2Proof.Machine.execCtzW v1 v2 v3 v4 s
  | .ffsW v1 v2 v3 v4 => Sys2Proof.Machine.execFfsW v1 v2 v3 v4 s
  | .popcW v1 v2 v3 v4 => Sys2Proof.Machine.execPopcW v1 v2 v3 v4 s
  | .brevW v1 v2 v3 v4 => Sys2Proof.Machine.execBrevW v1 v2 v3 v4 s
  | .bswapW v1 v2 v3 v4 => Sys2Proof.Machine.execBswapW v1 v2 v3 v4 s
  | .addi v1 v2 v3 => Sys2Proof.Machine.execAddi v1 v2 v3 s
  | .shli v1 v2 v3 => Sys2Proof.Machine.execShli v1 v2 v3 s
  | .shriN v1 v2 v3 => Sys2Proof.Machine.execShriN v1 v2 v3 s
  | .shriI v1 v2 v3 => Sys2Proof.Machine.execShriI v1 v2 v3 s
  | .roli v1 v2 v3 => Sys2Proof.Machine.execRoli v1 v2 v3 s
  | .rori v1 v2 v3 => Sys2Proof.Machine.execRori v1 v2 v3 s
  | .bfxN v1 v2 v3 v4 => Sys2Proof.Machine.execBfxN v1 v2 v3 v4 s
  | .bfxI v1 v2 v3 v4 => Sys2Proof.Machine.execBfxI v1 v2 v3 v4 s
  | .xori v1 v2 v3 => Sys2Proof.Machine.execXori v1 v2 v3 s
  | .bfi v1 v2 v3 v4 => Sys2Proof.Machine.execBfi v1 v2 v3 v4 s
  | .ori v1 v2 v3 => Sys2Proof.Machine.execOri v1 v2 v3 s
  | .andi v1 v2 v3 => Sys2Proof.Machine.execAndi v1 v2 v3 s
  | .addiW v1 v2 v3 v4 v5 => Sys2Proof.Machine.execAddiW v1 v2 v3 v4 v5 s
  | .lim v1 v2 => Sys2Proof.Machine.execLim v1 v2 s
  | .pcadd v1 v2 => Sys2Proof.Machine.execPcadd v1 v2 s
  | .fadd v1 v2 v3 v4 => Sys2Proof.Machine.execFadd v1 v2 v3 v4 s
  | .fsub v1 v2 v3 v4 => Sys2Proof.Machine.execFsub v1 v2 v3 v4 s
  | .fmul v1 v2 v3 v4 => Sys2Proof.Machine.execFmul v1 v2 v3 v4 s
  | .fdiv v1 v2 v3 v4 => Sys2Proof.Machine.execFdiv v1 v2 v3 v4 s
  | .fsqrt v1 v2 v3 => Sys2Proof.Machine.execFsqrt v1 v2 v3 s
  | .fmin v1 v2 v3 v4 => Sys2Proof.Machine.execFmin v1 v2 v3 v4 s
  | .fmax v1 v2 v3 v4 => Sys2Proof.Machine.execFmax v1 v2 v3 v4 s
  | .fsgnj v1 v2 v3 v4 => Sys2Proof.Machine.execFsgnj v1 v2 v3 v4 s
  | .fsgnjn v1 v2 v3 v4 => Sys2Proof.Machine.execFsgnjn v1 v2 v3 v4 s
  | .fsgnjx v1 v2 v3 v4 => Sys2Proof.Machine.execFsgnjx v1 v2 v3 v4 s
  | .fcvtFloatToFloat v1 v2 v3 v4 => Sys2Proof.Machine.execFcvtFloatToFloat v1 v2 v3 v4 s
  | .fcvtFloatToInteger v1 v2 v3 v4 => Sys2Proof.Machine.execFcvtFloatToInteger v1 v2 v3 v4 s
  | .fcvtIntegerToFloat v1 v2 v3 v4 => Sys2Proof.Machine.execFcvtIntegerToFloat v1 v2 v3 v4 s
  | .fclass v1 v2 v3 => Sys2Proof.Machine.execFclass v1 v2 v3 s
  | .fmadd v1 v2 v3 v4 v5 => Sys2Proof.Machine.execFmadd v1 v2 v3 v4 v5 s
  | .fmsub v1 v2 v3 v4 v5 => Sys2Proof.Machine.execFmsub v1 v2 v3 v4 v5 s
  | .fnmsub v1 v2 v3 v4 v5 => Sys2Proof.Machine.execFnmsub v1 v2 v3 v4 v5 s
  | .fnmadd v1 v2 v3 v4 v5 => Sys2Proof.Machine.execFnmadd v1 v2 v3 v4 v5 s
  | .cmpeq v1 v2 v3 v4 v5 => Sys2Proof.Machine.execCmpeq v1 v2 v3 v4 v5 s
  | .cmpne v1 v2 v3 v4 v5 => Sys2Proof.Machine.execCmpne v1 v2 v3 v4 v5 s
  | .cmplt v1 v2 v3 v4 v5 => Sys2Proof.Machine.execCmplt v1 v2 v3 v4 v5 s
  | .cmpge v1 v2 v3 v4 v5 => Sys2Proof.Machine.execCmpge v1 v2 v3 v4 v5 s
  | .fcmpeq v1 v2 v3 v4 => Sys2Proof.Machine.execFcmpeq v1 v2 v3 v4 s
  | .fcmpne v1 v2 v3 v4 => Sys2Proof.Machine.execFcmpne v1 v2 v3 v4 s
  | .fcmplt v1 v2 v3 v4 => Sys2Proof.Machine.execFcmplt v1 v2 v3 v4 s
  | .fcmple v1 v2 v3 v4 => Sys2Proof.Machine.execFcmple v1 v2 v3 v4 s
  | .fcmpun v1 v2 v3 v4 => Sys2Proof.Machine.execFcmpun v1 v2 v3 v4 s
  | .pand v1 v2 v3 => Sys2Proof.Machine.execPand v1 v2 v3 s
  | .por v1 v2 v3 => Sys2Proof.Machine.execPor v1 v2 v3 s
  | .pxor v1 v2 v3 => Sys2Proof.Machine.execPxor v1 v2 v3 s
  | .pandn v1 v2 v3 => Sys2Proof.Machine.execPandn v1 v2 v3 s
  | .pnot v1 v2 => Sys2Proof.Machine.execPnot v1 v2 s
  | .ppack v1 => Sys2Proof.Machine.execPpack v1 s
  | .punpack v1 v2 => Sys2Proof.Machine.execPunpack v1 v2 s
  | .sel v1 v2 v3 v4 => Sys2Proof.Machine.execSel v1 v2 v3 v4 s
  | .ttest v1 v2 => Sys2Proof.Machine.execTtest v1 v2 s
  | .beq v1 v2 v3 => Sys2Proof.Machine.execBeq v1 v2 v3 s
  | .bne v1 v2 v3 => Sys2Proof.Machine.execBne v1 v2 v3 s
  | .blt v1 v2 v3 => Sys2Proof.Machine.execBlt v1 v2 v3 s
  | .bge v1 v2 v3 => Sys2Proof.Machine.execBge v1 v2 v3 s
  | .bltu v1 v2 v3 => Sys2Proof.Machine.execBltu v1 v2 v3 s
  | .bgeu v1 v2 v3 => Sys2Proof.Machine.execBgeu v1 v2 v3 s
  | .bp v1 v2 => Sys2Proof.Machine.execBp v1 v2 s
  | .bnp v1 v2 => Sys2Proof.Machine.execBnp v1 v2 s
  | .jal v1 v2 => Sys2Proof.Machine.execJal v1 v2 s
  | .jalr v1 v2 v3 => Sys2Proof.Machine.execJalr v1 v2 v3 s
  | .svc v1 => Sys2Proof.Machine.execSvc v1 s
  | .csrrw v1 v2 v3 => Sys2Proof.Machine.execCsrrw v1 v2 v3 s
  | .csrrs v1 v2 v3 => Sys2Proof.Machine.execCsrrs v1 v2 v3 s
  | .csrrc v1 v2 v3 => Sys2Proof.Machine.execCsrrc v1 v2 v3 s
  | .brk v1 => Sys2Proof.Machine.execBrk v1 s
  | .frame v1 v2 => Sys2Proof.Machine.execFrame v1 v2 s
  | .tret => Sys2Proof.Machine.execTret s
  | .waiti => Sys2Proof.Machine.execWaiti s
  | .smc => Sys2Proof.Machine.execSmc s
  | .fmtp v1 v2 v3 v4 v5 => Sys2Proof.Machine.execFmtp v1 v2 v3 v4 v5 s
  | .wait v1 v2 v3 v4 v5 => Sys2Proof.Machine.execWait v1 v2 v3 v4 v5 s
  | .ld v1 v2 v3 v4 => Sys2Proof.Machine.execLd v1 v2 v3 v4 s
  | .st v1 v2 v3 v4 => Sys2Proof.Machine.execSt v1 v2 v3 v4 s
  | .ldl v1 v2 v3 v4 => Sys2Proof.Machine.execLdl v1 v2 v3 v4 s
  | .stl v1 v2 v3 v4 => Sys2Proof.Machine.execStl v1 v2 v3 v4 s
  | .ldftN32 v1 v2 v3 => Sys2Proof.Machine.execLdftN32 v1 v2 v3 s
  | .ldftI32 v1 v2 v3 => Sys2Proof.Machine.execLdftI32 v1 v2 v3 s
  | .ldftN64 v1 v2 v3 => Sys2Proof.Machine.execLdftN64 v1 v2 v3 s
  | .ldfpN32 v1 v2 v3 => Sys2Proof.Machine.execLdfpN32 v1 v2 v3 s
  | .ldfpI32 v1 v2 v3 => Sys2Proof.Machine.execLdfpI32 v1 v2 v3 s
  | .ldfpN64 v1 v2 v3 => Sys2Proof.Machine.execLdfpN64 v1 v2 v3 s
  | .bldPointer v1 v2 v3 => Sys2Proof.Machine.execBldPointer v1 v2 v3 s
  | .bldRegister v1 v2 v3 v4 => Sys2Proof.Machine.execBldRegister v1 v2 v3 v4 s
  | .stfpN32 v1 v2 v3 => Sys2Proof.Machine.execStfpN32 v1 v2 v3 s
  | .stfpN64 v1 v2 v3 => Sys2Proof.Machine.execStfpN64 v1 v2 v3 s
  | .stffN32 v1 v2 v3 => Sys2Proof.Machine.execStffN32 v1 v2 v3 s
  | .stffN64 v1 v2 v3 => Sys2Proof.Machine.execStffN64 v1 v2 v3 s
  | .mkeN32 v1 v2 => Sys2Proof.Machine.execMkeN32 v1 v2 s
  | .mkeN64 v1 v2 => Sys2Proof.Machine.execMkeN64 v1 v2 s
  | .bstPointer v1 v2 => Sys2Proof.Machine.execBstPointer v1 v2 s
  | .bstRegister v1 v2 v3 => Sys2Proof.Machine.execBstRegister v1 v2 v3 s
  | .fenceRel v1 => Sys2Proof.Machine.execFenceRel v1 s
  | .fenceAcq v1 => Sys2Proof.Machine.execFenceAcq v1 s
  | .fenceFull v1 => Sys2Proof.Machine.execFenceFull v1 s
  | .amswap v1 v2 v3 v4 v5 => Sys2Proof.Machine.execAmswap v1 v2 v3 v4 v5 s
  | .amcas v1 v2 v3 v4 v5 => Sys2Proof.Machine.execAmcas v1 v2 v3 v4 v5 s
  | .amadd v1 v2 v3 v4 v5 => Sys2Proof.Machine.execAmadd v1 v2 v3 v4 v5 s
  | .ammin v1 v2 v3 v4 v5 => Sys2Proof.Machine.execAmmin v1 v2 v3 v4 v5 s
  | .ammax v1 v2 v3 v4 v5 => Sys2Proof.Machine.execAmmax v1 v2 v3 v4 v5 s
  | .amand v1 v2 v3 v4 v5 => Sys2Proof.Machine.execAmand v1 v2 v3 v4 v5 s
  | .amor v1 v2 v3 v4 v5 => Sys2Proof.Machine.execAmor v1 v2 v3 v4 v5 s
  | .amxor v1 v2 v3 v4 v5 => Sys2Proof.Machine.execAmxor v1 v2 v3 v4 v5 s
  | .ldsc v1 v2 v3 v4 => Sys2Proof.Machine.execLdsc v1 v2 v3 v4 s
  | .stsc v1 v2 v3 v4 => Sys2Proof.Machine.execStsc v1 v2 v3 v4 s
  | .vstore v1 v2 v3 => Sys2Proof.Machine.execVstore v1 v2 v3 s
  | .vopen v1 v2 => Sys2Proof.Machine.execVopen v1 v2 s
  | .vput v1 v2 v3 v4 => Sys2Proof.Machine.execVput v1 v2 v3 v4 s
  | .vseal v1 v2 => Sys2Proof.Machine.execVseal v1 v2 s
  | .vget v1 v2 v3 => Sys2Proof.Machine.execVget v1 v2 v3 s
  | .vretain v1 v2 => Sys2Proof.Machine.execVretain v1 v2 s
  | .vrelease v1 v2 => Sys2Proof.Machine.execVrelease v1 v2 s
  | .vdrop v1 v2 => Sys2Proof.Machine.execVdrop v1 v2 s
  | .vquery v1 v2 v3 => Sys2Proof.Machine.execVquery v1 v2 v3 s
  | .cpg v1 v2 v3 => Sys2Proof.Machine.execCpg v1 v2 v3 s
  | .cpl v1 v2 v3 => Sys2Proof.Machine.execCpl v1 v2 v3 s
  | .cpm v1 v2 v3 => Sys2Proof.Machine.execCpm v1 v2 v3 s
  | .rld v1 v2 v3 => Sys2Proof.Machine.execRld v1 v2 v3 s
  | .rst v1 v2 v3 => Sys2Proof.Machine.execRst v1 v2 v3 s
  | .rstf v1 v2 v3 => Sys2Proof.Machine.execRstf v1 v2 v3 s
  | .barm v1 v2 => Sys2Proof.Machine.execBarm v1 v2 s
  | .barr v1 v2 => Sys2Proof.Machine.execBarr v1 v2 s
  | .bwait v1 v2 => Sys2Proof.Machine.execBwait v1 v2 s
  | .rarr v1 v2 => Sys2Proof.Machine.execRarr v1 v2 s
  | .ramswap v1 v2 v3 v4 => Sys2Proof.Machine.execRamswap v1 v2 v3 v4 s
  | .ramadd v1 v2 v3 v4 => Sys2Proof.Machine.execRamadd v1 v2 v3 v4 s
  | .ramand v1 v2 v3 v4 => Sys2Proof.Machine.execRamand v1 v2 v3 v4 s
  | .ramor v1 v2 v3 v4 => Sys2Proof.Machine.execRamor v1 v2 v3 v4 s
  | .ramxor v1 v2 v3 v4 => Sys2Proof.Machine.execRamxor v1 v2 v3 v4 s
  | .rammin v1 v2 v3 v4 => Sys2Proof.Machine.execRammin v1 v2 v3 v4 s
  | .rammax v1 v2 v3 v4 => Sys2Proof.Machine.execRammax v1 v2 v3 v4 s
  | .rbst v1 v2 v3 => Sys2Proof.Machine.execRbst v1 v2 v3 s
  | .spawn v1 v2 v3 => Sys2Proof.Machine.execSpawn v1 v2 v3 s
  | .join v1 v2 => Sys2Proof.Machine.execJoin v1 v2 s
  | .tend => Sys2Proof.Machine.execTend s
  | .yield => Sys2Proof.Machine.execYield s
  | .msend v1 v2 => Sys2Proof.Machine.execMsend v1 v2 s
  | .amsg v1 v2 v3 => Sys2Proof.Machine.execAmsg v1 v2 v3 s
  | .mrecv v1 v2 => Sys2Proof.Machine.execMrecv v1 v2 s
  | .waitmsg v1 => Sys2Proof.Machine.execWaitmsg v1 s
  | .slaunch v1 v2 => Sys2Proof.Machine.execSlaunch v1 v2 s
  | .ssync => Sys2Proof.Machine.execSsync s
  | .srfence v1 v2 => Sys2Proof.Machine.execSrfence v1 v2 s
  | .sbind v1 v2 => Sys2Proof.Machine.execSbind v1 v2 s
  | .sname v1 v2 => Sys2Proof.Machine.execSname v1 v2 s
  | .sstat v1 => Sys2Proof.Machine.execSstat v1 s
  | .svec v1 v2 => Sys2Proof.Machine.execSvec v1 v2 s
  | .sresume v1 => Sys2Proof.Machine.execSresume v1 s
  | .sabandon v1 => Sys2Proof.Machine.execSabandon v1 s

end Sys2Proof.Machine
end

