-- ==== Sys2Proof/Machine/Schedule.lean ====
section
/-! DEFINITION. What a step does: the schedule that the environment gives (log 5), the internal steps that are due, and otherwise one
tick of a clock. Also where a word is placed so that the next step fetches it. -/

namespace Sys2Proof.Machine

/-- After a clock's tick the actions of trigger channels take place that fall in it (R430). -/
def settled (o : Out) : Out :=
  match o with
  | .next s => .next s.act
  | o => o

/-- The window of an SC operation of another device is open here, or its end is due where it has passed: every device sends its end marker for
every window (R133). -/
def State.openWindow (s : State) (w : Nat) : State :=
  let s := { s with scOpen := sadd w s.scOpen }
  if w < s.tick / 64 then s.pushDue (.scWindowClose w) else s

/-- A request of a thread of another device reaches this device (R97): its acceptance is due, and the window of an SC operation opens. One for
a third device is forwarded through the port to that device, where one works (R440). -/
def State.arriveReq (s : State) (r : Req) : State :=
  match r.who with
  | .peer _ =>
    if s.whereIs r.va = .here then
      let id := s.nextId
      let s := ({ s with nextId := id + 1, reqs := kset id { r with stage := .sent, elapsed := 0 } s.reqs }).pushDue (.acceptance id noAnswer)
      if r.op.isSc then s.openWindow r.op.window else s
    else match s.whereIs r.va with
      | .device d => (match s.portOf d with
        | some i => { s with forwards := s.forwards ++ [(i, r.who, r.va)] }
        | none => s)
      | _ => s
  | _ => s

/-- A message of a thread of another device reaches this device. -/
def State.arriveFlight (s : State) (m : Flight) : State :=
  match m.who with
  | .peer _ => if tidDevice m.target = s.dev then (s.launchMsg { m with refused := false, entered := false, elapsed := 0 }).2 else s
  | _ => s

/-- A write of the host to the notify window (R369): 4 bytes at 4096 × q notify queue q; any other is ignored. -/
def State.notifyWrite (s : State) (off size : Nat) (v : Word) : Out :=
  if size = 4 ∧ off % 0x1000 = 0 ∧ off / 0x1000 < 64 then execNotify (off / 0x1000) (v.setWidth 32) s else .next s

/-- A read of the notify window returns 0 (R369). -/
def State.notifyRead (_ : State) (_ _ : Nat) : Word := 0

/-- Monitor firmware starts a control core at level 1 (R341): one that belongs to a partition (R365) and has not run since the reset. -/
def State.startCore (s : State) (k : Nat) (pc : Word) : State :=
  if s.power = .up ∧ (s.partOfCore k).isSome ∧ (s.core k).run = .notStarted then
    s.modCore k fun c => { c with run := .running, level := 1, th := { c.th with pc := pc &&& ~~~3#64 } }
  else s

/-- An item of the schedule takes place: `ex` performs a step of the table that has no word, `runWord` an instruction word. -/
def moveStep (ex : Instr → State → Out) (runWord : BitVec 32 → State → Option Out) (s : State) : Move → Out
  | .event i => if (encode i).isNone then ex i s else .next s
  | .tick c => settled (clockTurn runWord s c)
  | .pass n => .next (s.elapse n)
  | .arrive r => .next (s.arriveReq r)
  | .message m => .next (s.arriveFlight m)
  | .peer m => .next (s.peerMsg m)
  | .withdraw id => .next (s.withdraw id)
  | .host a v => .next (s.hostWrite a v)
  | .notify off size v => s.notifyWrite off size v
  | .startCore k pc => .next (s.startCore k pc)
  | .mgmtMessage k => .next (s.modCore k fun c => { c with sipMgmt := true })

/-- What happens next: the head of the schedule, else the first internal step that is due, else a tick of the clock. -/
def nextStep (ex : Instr → State → Out) (runWord : BitVec 32 → State → Option Out) (s : State) : Out :=
  if s.power = .shutDown then .fault .shutDown
  else match s.sched, s.due with
    | m :: rest, _ => moveStep ex runWord { s with sched := rest } m
    | [], i :: _ => ex i s
    | [], [] => settled (clockTurn runWord s s.clock)

/-! Placing a word where the next step fetches it. -/

/-- The majors that only facets execute (R181). -/
def facetMajors : List Nat := [0x07, 0x0B, 0x27, 0x2F, 0x3F, 0x4F, 0x53, 0x57, 0x5B, 0x5F, 0x6B, 0x7B]

/-- A word runs on facets only: its major, or the ".d" form of an atomic. -/
def onFacetOnly (w : Nat) : Bool := facetMajors.contains (w % 128) || (w % 128 == 0x2F) || (w % 128 == 0x2B && w / 2 ^ 25 % 4 == 1)

/-- The address from which the placed word is fetched: byte 0 of this device. -/
def placeAt : Word := 0xFFF0000000000000#64

/-- The word stands in HBM from byte 0, in a region of the non-secure world, and nothing else is about to happen. -/
def State.placeWord (s : State) (w : Nat) : State :=
  { s with mem := writeBytes 0 (toBytes 4 w) s.mem, memP := sdel 0 s.memP, memT := sdel 0 s.memT,
           regions := kset 0 (0x8000000000000000#64, 0x10000#64) s.regions, sched := [], due := [], power := .up,
           ctxs := s.ctxs.map fun (kc : Nat × Context) => (kc.1, { kc.2 with d := { kc.2.d with sup := false } }) }

/-- Control core 0 is about to fetch the placed word, at level 1 and without translation; context 0 is live. -/
def State.placeOnCore (s : State) (w : Nat) : State :=
  let s := s.placeWord w
  let c := s.core 0
  let s := s.setCore 0 { c with run := .running, level := 1, park := none, ibuf := none, late := [], ie := false, sctx := 0, stream := 0,
                                th := { c.th with pc := placeAt } }
  { s.modCtx 0 (fun x => { x with live := true }) with clock := .core 0 }

/-- Facet 0's slot 0, whose turn comes, is about to fetch the placed word: it runs a task of context 0, whose page 0 is mapped. -/
def State.placeOnFacet (s : State) (w : Nat) : State :=
  let s := s.placeWord w
  let e : Entry := { seq := 0, lpc := 0, state := .issued, left := 1 }
  let leaf : TlbEntry := { asn := 0, base := 0, size := 65536, leaf := 0x1F#64 }
  { s with ctxs := kset 0 { live := true, window := [e], nseq := 1 } s.ctxs,
           parts := kset 0 { s.part 0 with slices := [0], homes := [0], prisms := sadd 0 (s.part 0).prisms } s.parts,
           slices := kset 0 { tlb := [leaf] } s.slices,
           prisms := kset 0 {} s.prisms,
           facets := kset 0 { slots := [(0, { th := { pc := placeAt }, job := .task 0 0 0 false, lsize := 65536, slim := 0 })], grant := 32 } s.facets,
           reqs := s.reqs.filter (fun (kr : Nat × Req) => kr.2.who != .slot 0 0), clock := .facet 0 }

/-- The word of a row of the table placed for the next step. -/
def State.placed (s : State) (w : Nat) : State := if onFacetOnly w then s.placeOnFacet w else s.placeOnCore w

end Sys2Proof.Machine
end

