-- ==== Sys2Proof/Machine/Step.lean ====
section
/-! DEFINITION. One step of the device. -/

namespace Sys2Proof.Machine

/-- An instruction word is decoded and executed by the agent whose turn it is (R182). -/
noncomputable def runWord (w : BitVec 32) (s : State) : Option Out := (decodeWord w).map fun i => exec i s

/-- One step. -/
noncomputable def step (s : State) : Host.Outcome State Fault Refusal := nextStep exec runWord s

/-- The state with an instruction's word stored where `step` fetches its next instruction. -/
def State.withFetchWord (s : State) (_nbits w : Nat) : State := s.placed w

end Sys2Proof.Machine
end

