-- ==== Sys2Proof/Safety.lean ====
section
/-! DEFINITION. The terms in which claims about the device are stated: when an instruction issues, what a retired instruction
leaves as it was, the exact integer results of R201 to R205, and the invariants that every step keeps. -/

namespace Sys2Proof.Machine

/-! When an instruction issues. -/

/-- Decode admits the instruction, no register it names awaits a result or is marked, and nothing holds it at issue (R126, R182,
R223, R231): the conditions under which `issue` performs the instruction's own effect. -/
def Ready (s : State) (n : Need) : Prop :=
  s.admits n = true ∧ n.refuse = none ∧ (s.thread s.turn).waits (n.reads ++ n.writes) = false ∧ s.unready n = false ∧ s.dividerBusy n = false ∧
    s.fpHeld s.turn = false ∧ (s.thread s.turn).marked n.reads = none

/-! What an instruction leaves as it was. -/

/-- The user control registers of a slot (R192) that no thread register holds. -/
def Slot.controls (x : Slot) :=
  (x.slim, x.felim, x.bap, x.cpt, x.mcm, x.mcb, x.ord, x.wid, x.vl, x.msrc, x.cnt)

/-- A control core without its thread, its wait and the word fetched for it: its level and every special register (R346, R347). -/
def Core.special (x : Core) : Core := { x with th := {}, park := none, ibuf := none }

/-- What a facet holds beside its slots: lanes, local store, streams, accumulators and queues. -/
def Facet.stores (x : Facet) := (x.v, x.ls, x.streams, x.mq0, x.mq1, x.seqQ, x.inflight, x.sb)

/-- HBM reads as before at every address, with its taint and poison, and so do the slices and the prism caches. -/
def MemorySame (s t : State) : Prop :=
  (∀ a, readByte t.mem a = readByte s.mem a) ∧ t.memT = s.memT ∧ t.memP = s.memP ∧ t.slices = s.slices ∧ t.prisms = s.prisms

/-- The registers of every other agent are as before. -/
def OthersSame (s t : State) : Prop := ∀ b, b ≠ s.turn → t.thread b = s.thread b

/-- Special registers of cores, control registers of slots, and what facets hold are as before. -/
def SpecialsSame (s t : State) : Prop :=
  (∀ k, (t.core k).special = (s.core k).special) ∧ (∀ f n, (t.slot f n).controls = (s.slot f n).controls) ∧
    (∀ f, (t.facet f).stores = (s.facet f).stores)

/-- Everything but the executing agent's own thread is as before. -/
def Framed (s t : State) : Prop := MemorySame s t ∧ OthersSame s t ∧ SpecialsSame s t

/-- The thread registers that a scalar instruction without floating point leaves alone. -/
def Thread.quiet (x y : Thread) : Prop := y.rnd = x.rnd ∧ y.rkey = x.rkey ∧ y.rctr = x.rctr

/-- Every scalar register but those of a list is as before, with its taint. -/
def Thread.keepsX (x y : Thread) (ds : List (BitVec 5)) : Prop := ∀ r, r ∉ ds → y.rx r = x.rx r ∧ y.tx r = x.tx r

/-- X[d] holds v with a taint bit, where d is not 0; x0 still reads 0 and untainted. -/
def Thread.holds (y : Thread) (d : BitVec 5) (v : Word) (taint : Bool) : Prop :=
  y.rx d = (if d = 0 then 0 else v) ∧ y.tx d = (!(d == 0) && taint)

/-- The executing agent retires: X[d] holds v, every other register, flag and location is as before, a prefix for the instruction is
used up (R189), and the pc is past it. -/
def WritesX (s t : State) (d : BitVec 5) (v : Word) (taint : Bool) : Prop :=
  let x := s.thread s.turn
  let y := t.thread s.turn
  y.holds d v taint ∧ x.keepsX y [d] ∧ y.p = x.p ∧ x.quiet y ∧ y.stat = x.unprefixed.stat ∧ y.pc = x.pc + 4 ∧ Framed s t

/-- The executing agent retires: P[d] holds b, where d is not 0, and everything else is as before. -/
def WritesP (s t : State) (d : BitVec 3) (b : Bool) : Prop :=
  let x := s.thread s.turn
  let y := t.thread s.turn
  y.rp d = (d == 0 || b) ∧ (∀ q, q ≠ d → y.rp q = x.rp q) ∧ x.keepsX y [] ∧ x.quiet y ∧ y.stat = x.unprefixed.stat ∧
    y.pc = x.pc + 4 ∧ Framed s t

/-- The executing agent's thread after an instruction that writes no register but the pc. -/
def MovesPc (s t : State) (pc : Word) : Prop :=
  let x := s.thread s.turn
  let y := t.thread s.turn
  x.keepsX y [] ∧ y.p = x.p ∧ x.quiet y ∧ y.stat = x.unprefixed.stat ∧ y.pc = pc ∧ Framed s t

/-! Exact integer results (R201 to R205): operands as integers, a result narrowed once at the end. -/

/-- The operand of width w as an integer: unsigned when U = 1, signed when U = 0 (R201). -/
def operandInt (w : Width) (u : Bool) (v : Word) : Int :=
  let m : Int := 2 ^ widthBits w
  let n : Int := (v.toNat : Int) % m
  if u || decide (2 * n < m) then n else n - m

/-- An integer result wrapped to width w and extended to 64 bits by U (R201). -/
def resultWord (w : Width) (u : Bool) (z : Int) : Word := BitVec.ofInt 64 (operandInt w u (BitVec.ofInt 64 z))

/-- What a two-operand instruction of OP or OPW is, by its mnemonic. -/
inductive IntKind where
  | add | sub | mul | mulh | addx (k : Nat) | shl | shr | rol | ror | min | max | div | rem
  deriving DecidableEq, Repr

/-- The exact result of R201 and R203 on the operands A and B as integers, B′ being the low w bits of B unsigned and A′ those of A. -/
def IntKind.exact (k : IntKind) (w : Nat) (a b a' b' : Int) : Int :=
  let s := (b' % w).toNat
  match k with
  | .add => a + b
  | .sub => a - b
  | .mul => a * b
  | .mulh => a * b / 2 ^ w
  | .addx n => a + b * n
  | .shl => a * 2 ^ s
  | .shr => a / 2 ^ s
  | .rol => a' * 2 ^ s + a' / 2 ^ (w - s)
  | .ror => a' / 2 ^ s + a' * 2 ^ (w - s)
  | .min => Min.min a b
  | .max => Max.max a b
  | .div => if b = 0 then -1 else a.tdiv b
  | .rem => if b = 0 then a else a.tmod b

/-- The cycles to the first consumer on a facet, and whether the divider is held (R223). -/
def IntKind.timing (k : IntKind) (w : Width) : Nat × Bool :=
  match k with
  | .mul | .mulh | .addx _ => (4, false)
  | .div | .rem => ((match w with | .w8 => 6 | .w16 => 10 | .w32 => 18 | .w64 => 34), true)
  | _ => (1, false)

/-- An instruction of OP or OPW with an exact integer result: its kind, width, U and registers. -/
structure IntCase where
  kind : IntKind
  w    : Width
  u    : Bool
  b    : BitVec 5
  a    : BitVec 5
  d    : BitVec 5

/-- The integer instructions of OP and OPW whose result R201 and R203 give in integers. -/
def intCase : Instr → Option IntCase
  | .add u b a d => some ⟨.add, .w64, u, b, a, d⟩
  | .sub u b a d => some ⟨.sub, .w64, u, b, a, d⟩
  | .mul u b a d => some ⟨.mul, .w64, u, b, a, d⟩
  | .mulh u b a d => some ⟨.mulh, .w64, u, b, a, d⟩
  | .addx2 u b a d => some ⟨.addx 2, .w64, u, b, a, d⟩
  | .addx4 u b a d => some ⟨.addx 4, .w64, u, b, a, d⟩
  | .addx8 u b a d => some ⟨.addx 8, .w64, u, b, a, d⟩
  | .addx16 u b a d => some ⟨.addx 16, .w64, u, b, a, d⟩
  | .shl u b a d => some ⟨.shl, .w64, u, b, a, d⟩
  | .shr u b a d => some ⟨.shr, .w64, u, b, a, d⟩
  | .rol u b a d => some ⟨.rol, .w64, u, b, a, d⟩
  | .ror u b a d => some ⟨.ror, .w64, u, b, a, d⟩
  | .min u b a d => some ⟨.min, .w64, u, b, a, d⟩
  | .max u b a d => some ⟨.max, .w64, u, b, a, d⟩
  | .div u b a d => some ⟨.div, .w64, u, b, a, d⟩
  | .rem u b a d => some ⟨.rem, .w64, u, b, a, d⟩
  | .addW u w b a d => some ⟨.add, widen w, u, b, a, d⟩
  | .subW u w b a d => some ⟨.sub, widen w, u, b, a, d⟩
  | .mulW u w b a d => some ⟨.mul, widen w, u, b, a, d⟩
  | .mulhW u w b a d => some ⟨.mulh, widen w, u, b, a, d⟩
  | .addx2W u w b a d => some ⟨.addx 2, widen w, u, b, a, d⟩
  | .addx4W u w b a d => some ⟨.addx 4, widen w, u, b, a, d⟩
  | .addx8W u w b a d => some ⟨.addx 8, widen w, u, b, a, d⟩
  | .addx16W u w b a d => some ⟨.addx 16, widen w, u, b, a, d⟩
  | .shlW u w b a d => some ⟨.shl, widen w, u, b, a, d⟩
  | .shrW u w b a d => some ⟨.shr, widen w, u, b, a, d⟩
  | .rolW u w b a d => some ⟨.rol, widen w, u, b, a, d⟩
  | .rorW u w b a d => some ⟨.ror, widen w, u, b, a, d⟩
  | .minW u w b a d => some ⟨.min, widen w, u, b, a, d⟩
  | .maxW u w b a d => some ⟨.max, widen w, u, b, a, d⟩
  | .divW u w b a d => some ⟨.div, widen w, u, b, a, d⟩
  | .remW u w b a d => some ⟨.rem, widen w, u, b, a, d⟩
  | _ => none

/-- What an integer instruction of two sources needs to issue. -/
def IntCase.need (c : IntCase) : Need :=
  { reads := [c.a, c.b], writes := [c.d], cycles := (c.kind.timing c.w).1, divides := (c.kind.timing c.w).2 }

/-- Its result on the registers of a thread. -/
def IntCase.value (c : IntCase) (x : Thread) : Word :=
  resultWord c.w c.u (c.kind.exact (widthBits c.w) (operandInt c.w c.u (x.rx c.a)) (operandInt c.w c.u (x.rx c.b))
    (operandInt c.w true (x.rx c.a)) (operandInt c.w true (x.rx c.b)))

/-! Bitwise results (R201, R202). -/

/-- A bitwise instruction of OP or OPW: what it does to one bit, width, U and registers. -/
structure LogicCase where
  f : Bool → Bool → Bool
  w : Width
  u : Bool
  b : BitVec 5
  a : BitVec 5
  d : BitVec 5

/-- The bitwise instructions. -/
def logicCase : Instr → Option LogicCase
  | .and u b a d => some ⟨fun x y => x && y, .w64, u, b, a, d⟩
  | .or u b a d => some ⟨fun x y => x || y, .w64, u, b, a, d⟩
  | .xor u b a d => some ⟨fun x y => x != y, .w64, u, b, a, d⟩
  | .andn u b a d => some ⟨fun x y => x && !y, .w64, u, b, a, d⟩
  | .orn u b a d => some ⟨fun x y => x || !y, .w64, u, b, a, d⟩
  | .xnor u b a d => some ⟨fun x y => x == y, .w64, u, b, a, d⟩
  | .andW u w b a d => some ⟨fun x y => x && y, widen w, u, b, a, d⟩
  | .orW u w b a d => some ⟨fun x y => x || y, widen w, u, b, a, d⟩
  | .xorW u w b a d => some ⟨fun x y => x != y, widen w, u, b, a, d⟩
  | .andnW u w b a d => some ⟨fun x y => x && !y, widen w, u, b, a, d⟩
  | .ornW u w b a d => some ⟨fun x y => x || !y, widen w, u, b, a, d⟩
  | .xnorW u w b a d => some ⟨fun x y => x == y, widen w, u, b, a, d⟩
  | _ => none

/-- The bits of a result below its width, and the extension above it by U: zeros, or the bit below the width (R201). -/
def HasBits (w : Width) (u : Bool) (v : Word) (f : Nat → Bool) : Prop :=
  (∀ i, i < widthBits w → v.getLsbD i = f i) ∧
    ∀ i, widthBits w ≤ i → i < 64 → v.getLsbD i = (!u && f (widthBits w - 1))

/-- A unary instruction of OP or OPW. -/
inductive UnaryKind where
  | clz | ctz | ffs | popc | brev | bswap
  deriving DecidableEq, Repr

/-- A unary instruction: its kind, width, U and registers. -/
structure UnaryCase where
  kind : UnaryKind
  w : Width
  u : Bool
  a : BitVec 5
  d : BitVec 5

/-- The unary instructions of R202. -/
def unaryCase : Instr → Option UnaryCase
  | .clz u a d => some ⟨.clz, .w64, u, a, d⟩
  | .ctz u a d => some ⟨.ctz, .w64, u, a, d⟩
  | .ffs u a d => some ⟨.ffs, .w64, u, a, d⟩
  | .popc u a d => some ⟨.popc, .w64, u, a, d⟩
  | .brev u a d => some ⟨.brev, .w64, u, a, d⟩
  | .bswap u a d => some ⟨.bswap, .w64, u, a, d⟩
  | .clzW u w a d => some ⟨.clz, widen w, u, a, d⟩
  | .ctzW u w a d => some ⟨.ctz, widen w, u, a, d⟩
  | .ffsW u w a d => some ⟨.ffs, widen w, u, a, d⟩
  | .popcW u w a d => some ⟨.popc, widen w, u, a, d⟩
  | .brevW u w a d => some ⟨.brev, widen w, u, a, d⟩
  | .bswapW u w a d => some ⟨.bswap, widen w, u, a, d⟩
  | _ => none

/-- The index of the lowest set bit of the low w bits, or w: the first of w places counted up. -/
def lowestSet (v : Word) : Nat → Nat → Nat
  | _, 0 => 0
  | i, n + 1 => if v.getLsbD i then 0 else 1 + lowestSet v (i + 1) n

/-- The number of zero bits from place n - 1 down to the highest set bit. -/
def zerosAbove (v : Word) : Nat → Nat
  | 0 => 0
  | n + 1 => if v.getLsbD n then 0 else 1 + zerosAbove v n

/-- The number of set bits below place n. -/
def setBits (v : Word) : Nat → Nat
  | 0 => 0
  | n + 1 => (if v.getLsbD n then 1 else 0) + setBits v n

/-- The result of a unary instruction on an operand of w bits (R202). -/
def UnaryKind.Gives (k : UnaryKind) (w : Width) (u : Bool) (x v : Word) : Prop :=
  let n := widthBits w
  match k with
  | .clz => v.toNat = zerosAbove x n
  | .ctz => v.toNat = lowestSet x 0 n
  | .ffs => v.toNat = if lowestSet x 0 n = n then 0 else lowestSet x 0 n + 1
  | .popc => v.toNat = setBits x n
  | .brev => HasBits w u v fun i => x.getLsbD (n - 1 - i)
  | .bswap => HasBits w u v fun i => x.getLsbD (n - 8 - 8 * (i / 8) + i % 8)

/-! Immediates (R204 to R206). -/

/-- An instruction of OPI or OPIW with one source: its registers and its result. -/
def immCase : Instr → Option (BitVec 5 × BitVec 5 × (Word → Word))
  | .addi i a d => some (a, d, fun v => v + i.signExtend 64)
  | .xori i a d => some (a, d, fun v => v ^^^ i.signExtend 64)
  | .ori i a d => some (a, d, fun v => v ||| i.signExtend 64)
  | .andi i a d => some (a, d, fun v => v &&& i.signExtend 64)
  | .shli n a d => some (a, d, fun v => BitVec.ofNat 64 (v.toNat * 2 ^ n.toNat))
  | .shriN n a d => some (a, d, fun v => BitVec.ofNat 64 (v.toNat / 2 ^ n.toNat))
  | .shriI n a d => some (a, d, fun v => BitVec.ofInt 64 (v.toInt / 2 ^ n.toNat))
  | .roli n a d => some (a, d, fun v => v.rotateLeft n.toNat)
  | .rori n a d => some (a, d, fun v => v.rotateRight n.toNat)
  | .bfxN p l a d => some (a, d, fun v => BitVec.ofNat 64 (v.toNat / 2 ^ p.toNat % 2 ^ (l.toNat + 1)))
  | .bfxI p l a d => some (a, d, fun v => ((v.extractLsb' p.toNat (l.toNat + 1)).signExtend 64))
  | .addiW i a u w d => some (a, d, fun v => resultWord (widen w) u ((v.toNat : Int) + i.toInt))
  | _ => none

/-! Predicates (R213). -/

/-- An operation on predicates: its sources, its destination and its result. -/
def predCase : Instr → Option (List (BitVec 3) × BitVec 3 × (Thread → Bool))
  | .pand b a d => some ([a, b], d, fun t => t.rp a && t.rp b)
  | .por b a d => some ([a, b], d, fun t => t.rp a || t.rp b)
  | .pxor b a d => some ([a, b], d, fun t => xor (t.rp a) (t.rp b))
  | .pandn b a d => some ([a, b], d, fun t => t.rp a && !t.rp b)
  | .pnot a d => some ([a], d, fun t => !t.rp a)
  | _ => none

/-- An integer compare: width, U, registers, and the relation it tests on the operands as integers. -/
def compareCase : Instr → Option (Width × Bool × BitVec 5 × BitVec 5 × BitVec 3 × (Int → Int → Bool))
  | .cmpeq u w b a d => some (w, u, b, a, d, fun x y => x == y)
  | .cmpne u w b a d => some (w, u, b, a, d, fun x y => x != y)
  | .cmplt u w b a d => some (w, u, b, a, d, fun x y => decide (x < y))
  | .cmpge u w b a d => some (w, u, b, a, d, fun x y => decide (y ≤ x))
  | _ => none

/-! Scalar floating point (R207 to R212, R214). -/

/-- An operation that rounds once to its type: the type, its sources, its destination, its latency, whether it holds the divider, and
what it gives on the values of its sources before it is rounded. -/
structure FloatCase where
  ty : FTyp
  rs : List (BitVec 5)
  d  : BitVec 5
  cycles : Nat
  divides : Bool
  gives : (BitVec 5 → FVal) → RMode → FRes

/-- The latency of a quotient or root by type (R223). -/
def longLatency : FTyp → Nat
  | .f64 => 36 | _ => 20

/-- The rounding operations of FOP and FMA. -/
def floatCase : Instr → Option FloatCase
  | .fadd t b a d => some ⟨t, [a, b], d, 5, false, fun x m => fAdd (m = .rdn) (x a) (x b)⟩
  | .fsub t b a d => some ⟨t, [a, b], d, 5, false, fun x m => fAdd (m = .rdn) (x a) (x b).neg⟩
  | .fmul t b a d => some ⟨t, [a, b], d, 5, false, fun x _ => fMul (x a) (x b)⟩
  | .fdiv t b a d => some ⟨t, [a, b], d, longLatency t, true, fun x _ => fDiv (x a) (x b)⟩
  | .fsqrt t a d => some ⟨t, [a], d, longLatency t, true, fun x _ => fSqrt (x a)⟩
  | .fmadd c t b a d => some ⟨t, [a, b, c], d, 5, false, fun x m => fFma (m = .rdn) (x a) (x b) (x c)⟩
  | .fmsub c t b a d => some ⟨t, [a, b, c], d, 5, false, fun x m => fFma (m = .rdn) (x a) (x b) (x c).neg⟩
  | .fnmsub c t b a d => some ⟨t, [a, b, c], d, 5, false, fun x m => fFma (m = .rdn) (x a).neg (x b) (x c)⟩
  | .fnmadd c t b a d => some ⟨t, [a, b, c], d, 5, false, fun x m => fFma (m = .rdn) (x a).neg (x b) (x c).neg⟩
  | _ => none

/-- What a prefixable scalar floating instruction needs to issue. -/
def floatNeed (rs : List (BitVec 5)) (d : BitVec 5) (cycles : Nat) (divides : Bool) : Need :=
  { prefixed := true, reads := rs, writes := [d], cycles := cycles, divides := divides }

/-- No prefix is pending, no trap is enabled, and no vector draw of the agent comes first in mode SR (R160, R162, R188). -/
def PlainFloat (s : State) : Prop :=
  let x := s.thread s.turn
  x.pp = false ∧ rndTraps x.rnd = 0 ∧ (x.mode = .sr → s.drawsPending s.turn = false)

/-- The value of a register as an operand of a type (R184). -/
def Thread.value (x : Thread) (ty : FTyp) (r : BitVec 5) : FVal := decodeFloat (typFmt ty) ((x.rx r).toNat % 2 ^ (typFmt ty).width)

/-- The thread's rounding registers after n elements rounded with an exception set: the flags gain the set, and rctr advances by n in
mode SR (R14, R162). -/
def Thread.signals (x y : Thread) (e : Exc) (n : Nat) : Prop :=
  y.rnd = x.rnd ||| (e.setWidth 32 <<< 8) ∧ y.rkey = x.rkey ∧ y.rctr = (if x.mode = .sr then x.rctr + BitVec.ofNat 64 n else x.rctr)

/-- The executing agent retires with X[d] ← v and an exception set signalled. -/
def WritesF (s t : State) (d : BitVec 5) (v : Nat) (taint : Bool) (e : Exc) (n : Nat) : Prop :=
  let x := s.thread s.turn
  let y := t.thread s.turn
  y.holds d (BitVec.ofNat 64 v) taint ∧ x.keepsX y [d] ∧ y.p = x.p ∧ x.signals y e n ∧ y.stat = x.unprefixed.stat ∧
    y.pc = x.pc + 4 ∧ Framed s t

/-! Branches (R215). -/

/-- A branch on registers: its offset, its sources and the relation under which it is taken. -/
def branchCase : Instr → Option (BitVec 12 × BitVec 5 × BitVec 5 × (Word → Word → Bool))
  | .beq i b a => some (i, b, a, fun x y => x == y)
  | .bne i b a => some (i, b, a, fun x y => x != y)
  | .blt i b a => some (i, b, a, fun x y => decide (x.toInt < y.toInt))
  | .bge i b a => some (i, b, a, fun x y => decide (y.toInt ≤ x.toInt))
  | .bltu i b a => some (i, b, a, fun x y => decide (x.toNat < y.toNat))
  | .bgeu i b a => some (i, b, a, fun x y => decide (y.toNat ≤ x.toNat))
  | _ => none

/-- A slot is not ready for the four cycles after a taken transfer (R217). -/
def FourCyclesOff (s t : State) : Prop :=
  ∀ f n, s.turn = .slot f n → ∀ j, 1 ≤ j → j ≤ 4 → (t.slot f n).candidate ((s.facet f).cyc + j) = false

/-! Exceptions of a control core (R348). -/

/-- What a trap leaves in a control core: the address, the cause, the saved level and interrupt enable, and the handler's address. -/
def Trapped (x y : Core) (kind : BitVec 2) (code : BitVec 12) (epc addr : Word) : Prop :=
  y.sepc = epc &&& ~~~3#64 ∧ y.scause = (0#46 ++ kind ++ 0#4 ++ code) ∧ y.staddr = addr ∧ y.pl = (x.level == 1) ∧ y.pie = x.ie ∧
    y.ie = false ∧ y.level = 1 ∧ y.th.pc = x.stvec ∧ y.th.x = x.th.x ∧ y.th.xt = x.th.xt ∧ y.th.p = x.th.p ∧ y.stvec = x.stvec ∧
    y.sscratch = x.sscratch ∧ y.sctx = x.sctx ∧ y.stream = x.stream ∧ y.sie = x.sie ∧ y.stimer = x.stimer ∧ y.sfqb = x.sfqb ∧ y.sip = x.sip

/-! Control registers (R192 to R195, R219, R346, R347). -/

/-- The register of a control core at level 1 by number: the bits that a write stores and the bits that keep their value. sip,
scause and rnd have rules of their own. -/
def coreCsrMask : Nat → Option (Word × Word)
  | 0x001 | 0x00A | 0x80C | 0x80E => some (0, BitVec.allOnes 64)
  | 0x00D | 0x00E | 0x804 | 0x805 | 0x809 => some (BitVec.allOnes 64, 0)
  | 0x800 => some (7, 8)
  | 0x801 | 0x802 => some (0xFFFFFFFFFFFFFFFC, 0)
  | 0x806 | 0x808 => some (0x3F, 0)
  | 0x80A => some (0xFFFFFFFF000, 0)
  | 0x80B => some (0x1F, 0x1F00)
  | 0x80D => some (0x7FF, 0)
  | _ => none

/-- The user register of a slot by number. rnd, vl and cpt have rules of their own. -/
def slotCsrMask : Nat → Option (Word × Word)
  | 0x001 | 0x008 | 0x009 | 0x00A | 0x00B | 0x00F | 0x010 => some (0, BitVec.allOnes 64)
  | 0x002 => some (0x3FFFF, 0)
  | 0x003 => some (0xFFFFFFFF, 0)
  | 0x004 => some (0x1FFFFF, 0)
  | 0x006 | 0x00D | 0x00E => some (BitVec.allOnes 64, 0)
  | 0x007 => some (0x7C0, 0)
  | _ => none

/-- The three CSR instructions: number, source, destination, what it would write on the old value and the source, whether it writes. -/
def csrCase : Instr → Option (BitVec 12 × BitVec 5 × BitVec 5 × (Word → Word → Word) × Bool)
  | .csrrw n a d => some (n, a, d, fun _ x => x, true)
  | .csrrs n a d => some (n, a, d, fun old x => old ||| x, a != 0)
  | .csrrc n a d => some (n, a, d, fun old x => old &&& ~~~x, a != 0)
  | _ => none

/-- The registers of an agent of a state by number. -/
def State.csr (s : State) (n : Nat) : Option (Word × Bool) :=
  match s.turn with
  | .core k => (s.core k).csr n
  | .slot f j => s.slotCsr f j n
  | .peer _ => none

/-- What a CSR instruction leaves: X[d] the old value with its taint, the register its new one, every other scalar register,
predicate and location as before; `also` names registers that follow from the one written. -/
def CsrDone (s t : State) (n : Nat) (d : BitVec 5) (old new : Word) (taint : Bool) (also : List Nat) : Prop :=
  let x := s.thread s.turn
  let y := t.thread s.turn
  y.holds d old taint ∧ x.keepsX y [d] ∧ y.p = x.p ∧ y.pc = x.pc + 4 ∧ t.csr n = some (new, taint) ∧
    (∀ j, j ≠ n → j ∉ also → t.csr j = s.csr j) ∧ MemorySame s t ∧ OthersSame s t

/-! Faults of an agent. -/

/-- A control core takes the fault of the instruction at its pc. -/
def CoreFaults (s t : State) (k : Nat) (cause : BitVec 8) (addr : Word) : Prop :=
  Trapped (s.core k) (t.core k) 0 (cause.setWidth 12) (s.core k).th.pc addr ∧ MemorySame s t ∧
    ∀ b, b ≠ Agent.core k → t.thread b = s.thread b

/-- A slot of a tile task halts with a trap record of its own instruction (R352, R353). -/
def SlotFaults (s t : State) (f n : Nat) (cause : BitVec 8) (addr info : Word) : Prop :=
  (t.slot f n).trap = some { cause := cause, pc := (s.slot f n).th.pc, addr := addr, info := info } ∧
    (t.slot f n).park = none ∧ (∀ c, (t.slot f n).candidate c = false) ∧
    (t.slot f n).th.x = (s.slot f n).th.x ∧ (t.slot f n).th.xt = (s.slot f n).th.xt ∧ (t.slot f n).th.p = (s.slot f n).th.p ∧
    MemorySame s t ∧ ∀ b, b ≠ Agent.slot f n → t.thread b = s.thread b

/-- The executing agent faults with a cause: a core traps, the slot of a tile task halts. -/
def Faults (s t : State) (cause : BitVec 8) (addr info : Word) : Prop :=
  (∀ k, s.turn = .core k → CoreFaults s t k cause addr) ∧
    ∀ f n, s.turn = .slot f n → (∃ c q o b, (s.slot f n).job = .task c q o b) → SlotFaults s t f n cause addr info

/-! Memory of a control core at level 1 without translation (R384). -/

/-- A physical access of core k at an address lies in HBM at pa and is allowed. -/
def PhysicalHbm (s : State) (k : Nat) (va : Word) (pa : Nat) : Prop :=
  s.turn = .core k ∧ s.spaceOf (.core k) = .phys ∧ s.physOf va = some pa ∧ isRegister pa = false ∧ s.mayTouch (s.core k).wld pa = true

/-- A number of n bytes as a register: sign-extended or zero-extended. -/
def extended (signed : Bool) (n m : Nat) : Word :=
  if signed && decide (2 ^ (8 * n) ≤ 2 * m) then BitVec.ofInt 64 ((m : Int) - 2 ^ (8 * n)) else BitVec.ofNat 64 m

/-- n bytes of HBM from pa now hold the low bytes of a value, the first the least significant; every other byte is as before; the
sector gains a taint bit or keeps its own; slices, prism caches, poison and special registers are as before. -/
def HbmWrites (s t : State) (pa n : Nat) (v : Word) (taint : Bool) : Prop :=
  (∀ j, j < n → readByte t.mem (pa + j) = BitVec.ofNat 8 (v.toNat / 2 ^ (8 * j))) ∧
    (∀ a, a < pa ∨ pa + n ≤ a → readByte t.mem a = readByte s.mem a) ∧
    (∀ i, i ∈ t.memT ↔ if i = pa / 32 then taint = true ∨ i ∈ s.memT else i ∈ s.memT) ∧
    (∀ i, i ∈ t.memP ↔ i ∈ s.memP) ∧ t.slices = s.slices ∧ t.prisms = s.prisms ∧ OthersSame s t ∧ SpecialsSame s t

/-- The executing agent's registers after an instruction that may write X[d]. -/
def Retired (s t : State) (ds : List (BitVec 5)) : Prop :=
  let x := s.thread s.turn
  let y := t.thread s.turn
  x.keepsX y ds ∧ y.p = x.p ∧ x.quiet y ∧ y.pc = x.pc + 4

/-! Local store of a facet (R72 to R78). -/

/-- What a facet holds beside its slots and its local store. -/
def Facet.lanes (x : Facet) := (x.v, x.streams, x.mq0, x.mq1, x.seqQ, x.inflight, x.sb)

/-- Slot n of facet f executes, may use the bytes [la, la + k), no copy holds the access up, no debugger watches, and no access of the
facet is parked. -/
def LocalReady (s : State) (f n la k : Nat) (wr : Bool) : Prop :=
  s.turn = .slot f n ∧ s.mayUse f n la k = true ∧ (s.facet f).covered la k wr = false ∧
    (∀ c q, (s.slot f n).owner = some (c, q) → (s.ctx c).dbg.att = false) ∧ (s.facet f).parked = []

/-- Everything but the executing agent's thread and the local store of facet f is as before. -/
def FramedOutside (s t : State) (f : Nat) : Prop :=
  MemorySame s t ∧ OthersSame s t ∧ (∀ k, (t.core k).special = (s.core k).special) ∧
    (∀ g n, (t.slot g n).controls = (s.slot g n).controls) ∧ (∀ g, (t.facet g).lanes = (s.facet g).lanes) ∧
    ∀ g, g ≠ f → (t.facet g).ls = (s.facet g).ls

/-- The bytes of [la, la + k) of facet f hold a list; every other byte is as before. -/
def LocalBytes (s t : State) (f la : Nat) (b : List Byte) : Prop :=
  (∀ j, j < b.length → some ((t.facet f).lsByte (la + j)) = b[j]?) ∧
    ∀ a, a < la ∨ la + b.length ≤ a → (t.facet f).lsByte a = (s.facet f).lsByte a

/-- Taint of the words of local store after [la, la + k) was written: a word written whole takes the data's, a word written in part
the OR, another keeps its own (R78). -/
def LocalTaint (s t : State) (f la k : Nat) (taint : Bool) : Prop :=
  ∀ i, ((t.facet f).word i).taint =
    if 4 * i + 4 ≤ la ∨ la + k ≤ 4 * i then ((s.facet f).word i).taint
    else taint || (!(decide (la ≤ 4 * i) && decide (4 * i + 4 ≤ la + k)) && ((s.facet f).word i).taint)

/-- Full-empty bits after those of the words of [la, la + k) were set, or as before. -/
def LocalEmpty (s t : State) (f la k : Nat) (set : Option Bool) : Prop :=
  ∀ i, ((t.facet f).word i).empty =
    match set with
    | some e => if la ≤ 4 * i ∧ 4 * i < la + k then e else ((s.facet f).word i).empty
    | none => ((s.facet f).word i).empty

/-- The slot parks on local store behind those already parked, and its thread is as before. -/
def ParksLocal (s t : State) (f n : Nat) (kind : ParkKind) : Prop :=
  (t.slot f n).th = (s.slot f n).th ∧ (t.slot f n).park.map (·.kind) = some kind ∧
    (t.facet f).parked = (s.facet f).parked.filter (· != n) ++ [n] ∧ (t.facet f).ls = (s.facet f).ls ∧ FramedOutside s t f

/-- Bit j of the local store of a facet (R72). -/
def Facet.lsBit (x : Facet) (j : Nat) : Bool := (x.lsByte (j / 8)).getLsbD (j % 8)

/-- The fields of a byte barrier (R110). -/
def barPend (w : Word) : Nat := w.toNat % 2 ^ 32
def barCount (w : Word) : Nat := w.toNat / 2 ^ 32 % 2 ^ 16
def barPhase (w : Word) : Bool := w.getLsbD 48
def barOver (w : Word) : Bool := w.getLsbD 49

/-- What an arrival of c bytes makes of a barrier (R110). -/
def Arrived (w v : Word) (c : Nat) : Prop :=
  if barPend w = 0 then barOver v = true ∧ barPend v = 0 ∧ barCount v = barCount w ∧ barPhase v = barPhase w
  else barCount v = (barCount w + 1) % 2 ^ 16 ∧
    if barPend w ≤ c then barPend v = 0 ∧ barPhase v = !barPhase w ∧ barOver v = (barOver w || decide (barPend w < c))
    else barPend v = barPend w - c ∧ barPhase v = barPhase w ∧ barOver v = barOver w

/-- A synchronising load: word offset, base, destination, whether it takes, its bytes, and whether it is sign-extended (R235). -/
def syncLoadCase : Instr → Option (BitVec 8 × BitVec 5 × BitVec 5 × Bool × Nat × Bool)
  | .ldftN32 o a d => some (o, a, d, true, 4, false)
  | .ldftI32 o a d => some (o, a, d, true, 4, true)
  | .ldftN64 o a d => some (o, a, d, true, 8, false)
  | .ldfpN32 o a d => some (o, a, d, false, 4, false)
  | .ldfpI32 o a d => some (o, a, d, false, 4, true)
  | .ldfpN64 o a d => some (o, a, d, false, 8, false)
  | _ => none

/-- The value that n bytes of local store hold. -/
def Facet.lsValue (x : Facet) (la n : Nat) : Nat := ofBytes (x.lsBytes la n)

/-- Every word of [la, la + k) is in one full-empty state. -/
def Facet.allAre (x : Facet) (la k : Nat) (e : Bool) : Prop := ∀ i, la ≤ 4 * i → 4 * i < la + k → (x.word i).empty = e

/-- An access of local store: its address, alignment and bytes, whether it stores, and what it names. -/
def localForm (t : Thread) : Instr → Option (Word × Nat × Bool × List (BitVec 5) × List (BitVec 5))
  | .ldl i a w d => some (t.rx a + i.signExtend 64, ldBytes w, false, [a], [d])
  | .stl i b a w => some (t.rx a + i.signExtend 64, stBytes w, true, [a, b], [])
  | .stfpN32 o b a => some (t.rx a + o.signExtend 64 * 4, 4, true, [a, b], [])
  | .stfpN64 o b a => some (t.rx a + o.signExtend 64 * 4, 8, true, [a, b], [])
  | .stffN32 o b a => some (t.rx a + o.signExtend 64 * 4, 4, true, [a, b], [])
  | .stffN64 o b a => some (t.rx a + o.signExtend 64 * 4, 8, true, [a, b], [])
  | .mkeN32 o a => some (t.rx a + o.signExtend 64 * 4, 4, true, [a], [])
  | .mkeN64 o a => some (t.rx a + o.signExtend 64 * 4, 8, true, [a], [])
  | .barm b a => some (t.rx a, 8, true, [a, b], [])
  | .barr b a => some (t.rx a, 8, true, [a, b], [])
  | .bwait b a => some (t.rx a, 8, false, [a, b], [])
  | i => (syncLoadCase i).map fun (o, a, d, _, k, _) => (t.rx a + o.signExtend 64 * 4, k, false, [a], [d])

/-- A bit-field access: the bit address it uses, its length in bits, and its registers. -/
def fieldForm (x : Slot) : Instr → Option (Nat × Nat × List (BitVec 5) × List (BitVec 5))
  | .bldPointer _ l d => some (x.bap.toNat, l.toNat + 1, [], [d])
  | .bldRegister _ l a d => some ((x.th.rx a).toNat, l.toNat + 1, [a], [d])
  | .bstPointer b l => some (x.bap.toNat, l.toNat + 1, [b], [])
  | .bstRegister b a l => some ((x.th.rx a).toNat, l.toNat + 1, [a, b], [])
  | _ => none

/-- The bytes that hold bits [ba, ba + l): the first and their number. -/
def fieldFirst (ba : Nat) : Nat := ba / 8
def fieldBytes (ba l : Nat) : Nat := (ba + l - 1) / 8 + 1 - ba / 8

/-! Atomics (R238 to R241). -/

/-- An atomic: operation, form, operand, base, type, destination. -/
structure AtomicCase where
  op : Nat
  form : AmForm
  b : BitVec 5
  a : BitVec 5
  ty : AmTyp
  d : BitVec 5

/-- The instructions of AMO. -/
def atomicCase : Instr → Option AtomicCase
  | .amswap f b a t d => some ⟨opSwap, f, b, a, t, d⟩
  | .amcas f b a t d => some ⟨opCas, f, b, a, t, d⟩
  | .amadd f b a t d => some ⟨opAdd, f, b, a, t, d⟩
  | .ammin f b a t d => some ⟨opMin, f, b, a, t, d⟩
  | .ammax f b a t d => some ⟨opMax, f, b, a, t, d⟩
  | .amand f b a t d => some ⟨opAnd, f, b, a, t, d⟩
  | .amor f b a t d => some ⟨opOr, f, b, a, t, d⟩
  | .amxor f b a t d => some ⟨opXor, f, b, a, t, d⟩
  | .ldsc b a t d => some ⟨opLoad, .sc, b, a, t, d⟩
  | .stsc b a t d => some ⟨opStore, .sc, b, a, t, d⟩
  | _ => none

/-- The registers an atomic reads and writes. -/
def AtomicCase.reads (c : AtomicCase) : List (BitVec 5) :=
  [c.a] ++ (if c.op = opLoad then [] else [c.b]) ++ (if c.op = opCas then [c.d] else [])
def AtomicCase.writes (c : AtomicCase) : List (BitVec 5) := if c.op = opStore then [] else [c.d]

/-- The taint of an atomic's data. -/
def AtomicCase.taint (c : AtomicCase) (t : Thread) : Bool := c.op != opLoad && (t.tx c.b || (c.op == opCas && t.tx c.d))

/-- k bytes as an integer of a type. -/
def typed (t : AmTyp) (v : Nat) : Int := if amSigned t && decide (2 ^ (8 * amBytes t) ≤ 2 * v) then (v : Int) - 2 ^ (8 * amBytes t) else v

/-- The new value of R238 from the old one, the operand and the compare value, each of k bytes; for a floating type the sum or choice
rounded RNE (R240). -/
def AtomicCase.next (c : AtomicCase) (old v cmp : Nat) : Nat :=
  if (amFmt c.ty).isSome ∧ (c.op = opAdd ∨ c.op = opMin ∨ c.op = opMax) then amNew c.op c.ty old v 0
  else if c.op = opCas then (if old = cmp then v else old)
  else if c.op = opAdd then (old + v) % 2 ^ (8 * amBytes c.ty)
  else if c.op = opMin then (if typed c.ty v < typed c.ty old then v else old)
  else if c.op = opMax then (if typed c.ty old < typed c.ty v then v else old)
  else if c.op = opAnd then old &&& v
  else if c.op = opOr then old ||| v
  else if c.op = opXor then old ^^^ v
  else if c.op = opLoad then old
  else v

/-! Requests of a slot to a home slice (R190, R228). -/

/-- An access that an instruction of slot n of facet f sends: what it names, its address and what is asked there, the count it joins,
and the checks it passes first. -/
structure Sending where
  reads  : List (BitVec 5)
  writes : List (BitVec 5)
  va     : Word
  op     : ReqOp
  join   : Counts → Counts
  ok     : Bool := true

/-- The request of an atomic. -/
def AtomicCase.sending (c : AtomicCase) (s : State) (f n : Nat) : Sending :=
  let x := s.slot f n
  let seq := (x.owner.map Prod.snd).getD 0
  let no := s.detSeq f n ((x.owner.map Prod.fst).getD 0) seq
  { reads := c.reads, writes := c.writes, va := x.th.rx c.a,
    op := .atomic c.op c.ty c.form (x.th.rx c.b) (x.th.rx c.d) (c.taint x.th) c.d
      (if c.form = .sc then BitVec.ofNat 64 (s.tick / 64) else x.ord ++ BitVec.ofNat 16 no),
    join := fun k => if c.op = opLoad then k.addLd else if c.op = opStore ∨ c.d = 0 then k.addSt else k,
    ok := (x.th.rx c.a).toNat % amBytes c.ty == 0 && (c.form != .d || decide (no < 65536)) }

/-- The requests of scalar loads and stores, atomics, JOIN and the versioned instructions. -/
def sendingOf (s : State) (f n : Nat) (i : Instr) : Option Sending :=
  let x := s.slot f n
  let t := x.th
  let ver := fun (b : BitVec 5) => (t.rx b).toNat % 2 ^ 32
  match i with
  | .ld o a w d =>
    let va := t.rx a + o.signExtend 64
    some { reads := [a], writes := [d], va := va, op := .load d w, join := Counts.addLd, ok := va.toNat % ldBytes w == 0 }
  | .st o b a w =>
    let va := t.rx a + o.signExtend 64
    some { reads := [a, b], writes := [], va := va, op := .store (stBytes w) (t.rx b) (t.tx b), join := Counts.addSt,
           ok := va.toNat % stBytes w == 0 }
  | .join a d =>
    some { reads := [a], writes := [d], va := t.rx a, op := .join d, join := fun k => if d = 0 then k.addSt else k,
           ok := (t.rx a).toNat % 64 == 0 }
  | .vstore b a d =>
    some { reads := [a, b, d], writes := [], va := t.rx a, op := .create true (ver b) (t.rx d).toNat x.lb x.lsize (s.quotaOf x) 0,
           join := Counts.addVg, ok := (t.rx d).toNat % 64 == 0 }
  | .vopen b a =>
    some { reads := [a, b], writes := [], va := t.rx a, op := .create false (ver b) 0 x.lb x.lsize (s.quotaOf x) 0, join := Counts.addVg }
  | .vput b a p d =>
    some { reads := [a, b, d], writes := [], va := t.rx a, op := .vput (ver b) (t.rx d).toNat (128 * 2 ^ p.toNat), join := Counts.addVg,
           ok := (t.rx d).toNat % 64 == 0 && x.holdsRange (t.rx d).toNat (128 * 2 ^ p.toNat) }
  | .vseal b a => some { reads := [a, b], writes := [], va := t.rx a, op := .vseal (ver b), join := Counts.addVg }
  | .vget b a d =>
    some { reads := [a, b, d], writes := [], va := t.rx a, op := .vget (ver b) (t.rx d).toNat x.lb x.lsize, join := Counts.addVg,
           ok := (t.rx d).toNat % 64 == 0 }
  | .vretain b a => some { reads := [a, b], writes := [], va := t.rx a, op := .vretain (ver b), join := Counts.addVg }
  | .vrelease b a => some { reads := [a, b], writes := [], va := t.rx a, op := .vrelease (ver b), join := Counts.addVg }
  | .vdrop b a => some { reads := [a, b], writes := [], va := t.rx a, op := .vdrop (ver b), join := Counts.addVg }
  | .vquery b a d => some { reads := [a, b], writes := [d], va := t.rx a, op := .vquery (ver b) d, join := Counts.addVg }
  | i => (atomicCase i).map fun c => c.sending s f n

/-- Slot n of facet f executes for a task, no request of it is under way, its prism caches nothing, no debugger watches, and its counts
and its facet's scoreboard have room. -/
def Idle (s : State) (f n : Nat) : Prop :=
  s.turn = .slot f n ∧ (∃ c q o b, (s.slot f n).job = .task c q o b ∧ (s.ctx c).dbg.att = false) ∧
    (∀ e ∈ s.reqs, e.2.who ≠ .slot f n) ∧ (s.facet f).seqQ = [] ∧ (s.prism (prismOf f)).cache = [] ∧
    (s.slot f n).cnt.ld < 63 ∧ (s.slot f n).cnt.st < 63 ∧ (s.slot f n).cnt.cp < 63 ∧ (s.slot f n).cnt.mx < 63 ∧
    (s.slot f n).cnt.vg < 63 ∧ (s.facet f).sb.length < 16

/-- What a slot and the memory keep while a request is on its way: registers, pc, HBM and the slices. -/
def Waits (s t : State) (f n : Nat) : Prop :=
  (t.slot f n).th = (s.slot f n).th ∧ (∀ a, readByte t.mem a = readByte s.mem a) ∧ t.slices = s.slices ∧ OthersSame s t

/-- The request of the executing slot is on its way to the home slice, and the slot waits for its acceptance. -/
def Sends (s t : State) (f n : Nat) (q : Sending) : Prop :=
  (∃ r, t.req s.nextId = some r ∧ r.who = .slot f n ∧ r.va = q.va ∧ r.pc = (s.slot f n).th.pc ∧ r.op = q.op ∧ r.stage = .sent) ∧
    t.nextId = s.nextId + 1 ∧ (t.slot f n).cnt = q.join (s.slot f n).cnt ∧
    ((t.slot f n).park.map fun p => (p.kind, p.addr, p.req)) = some (.accept, q.va, some s.nextId) ∧
    (s.whereIs q.va = .here → .acceptance s.nextId noAnswer ∈ t.due) ∧ Waits s t f n

/-! Requests at their home slice (R80, R112 to R118, R190, R228 to R240). -/

/-- An agent of this device. -/
def Agent.ours (a : Agent) : Prop := ∀ d, a ≠ .peer d

/-- No access is parked on the local store of an agent's facet. -/
def NoneParked (s : State) (a : Agent) : Prop := ∀ f n, a = .slot f n → (s.facet f).parked = []

/-- HBM reads as before at every address, with its taint and poison. -/
def BytesSame (s t : State) : Prop := (∀ a, readByte t.mem a = readByte s.mem a) ∧ t.memT = s.memT ∧ t.memP = s.memP

/-- The instruction of an agent retires, every register but those of a list as before, and no other agent's thread changes. -/
def RetiresAs (s t : State) (a : Agent) (ds : List (BitVec 5)) : Prop :=
  let x := s.thread a
  let y := t.thread a
  x.keepsX y ds ∧ y.p = x.p ∧ x.quiet y ∧ y.pc = x.pc + 4 ∧ ∀ b, b ≠ a → t.thread b = s.thread b

/-- A result reaches X[d] of an agent whose instruction has retired before: the register is no longer awaited, and no other register, pc
or thread changes. -/
def Delivers (s t : State) (a : Agent) (d : BitVec 5) (v : Word) (taint : Bool) : Prop :=
  let x := s.thread a
  let y := t.thread a
  y.holds d v taint ∧ x.keepsX y [d] ∧ y.p = x.p ∧ x.quiet y ∧ y.pc = x.pc ∧ (d ≠ 0 → y.pend.getLsbD d.toNat = false) ∧
    ∀ b, b ≠ a → t.thread b = s.thread b

/-- A request that its instruction has sent stands at its home slice of this device: the page allows it, nothing there holds it up, and neither the
slice nor a prism caches anything. -/
def AtSlice (s : State) (id : Nat) (r : Req) (sl pa : Nat) (leaf : Word) : Prop :=
  s.req id = some r ∧ r.who.ours ∧ NoneParked s r.who ∧ r.stage = .sent ∧ r.again = false ∧ s.whereIs r.va = .here ∧
    s.home r.ctx r.va = some sl ∧ s.migrating sl r.ctx r.va = false ∧ s.areaBusy sl r = false ∧ s.acceptReg id r (s.translate sl r.ctx (localVa r.va)).1 = none ∧
    s.findAt sl r.ctx r.va r.op.access = (.at pa leaf, s) ∧ s.dBlocked sl id r.ctx r.va pa r.op.size = false ∧
    (s.slice sl).heldD = [] ∧ (s.slice sl).parkq = [] ∧ (s.slice sl).cache = [] ∧ pa % 65536 = r.va.toNat % 65536 ∧
    ∀ p, (s.prism p).cache = []

/-- Such a request, while no SC operation is under way. -/
def AtHome (s : State) (id : Nat) (r : Req) (sl pa : Nat) (leaf : Word) : Prop :=
  AtSlice s id r sl pa leaf ∧ ∀ e ∈ s.reqs, e.2.op.isSc = false

/-- The n bytes that a slice gives at a physical address within one line. -/
def State.sliceBytes (s : State) (sl pa n : Nat) (dir : Bool) : List Byte := (s.sliceRead sl pa n dir).1.bytes

/-- A slice that caches nothing holds an accepted request for n aligned bytes at an address that is not poisoned, and no atomic that arrived
before it is still to be applied there. -/
def Accepted (s : State) (id : Nat) (r : Req) (sl pa n : Nat) (leaf : Word) : Prop :=
  s.req id = some r ∧ r.who.ours ∧ NoneParked s r.who ∧ r.stage = .accepted pa leaf ∧ s.whereIs r.va = .here ∧
    s.home r.ctx r.va = some sl ∧ (s.slice sl).cache = [] ∧ pa % n = 0 ∧ pa / 64 ∉ s.memP ∧ s.applyAhead id r = false

/-- The new value that an atomic gives an old one (R238). -/
def atomicNext (op : Nat) (ty : AmTyp) (old : Nat) (v cmp : Word) : Nat :=
  ({ op := op, form := .relaxed, b := 0, a := 0, ty := ty, d := 0 } : AtomicCase).next old (v.toNat % 2 ^ (8 * amBytes ty))
    (cmp.toNat % 2 ^ (8 * amBytes ty))

/-- An operation of R238 that its type allows: compare-and-swap and the bitwise ones are of integers. -/
def atomicOk (op : Nat) (ty : AmTyp) : Bool :=
  decide (op < 10) && (ty.isInt || !(op == opCas || op == opAnd || op == opOr || op == opXor))

/-! Versions (R88 to R98, R242 to R246). -/

/-- A versioned request of a tile task's slot stands at its home slice: its page has tiles of `size` bytes and its address is a tile
name. -/
def AtTile (s : State) (id : Nat) (r : Req) (sl f n size : Nat) : Prop :=
  (∃ pa leaf, AtHome s id r sl pa leaf ∧ tileSize leaf = size) ∧ r.who = .slot f n ∧ r.op.versioned = true ∧ localVa r.va % size = 0 ∧
    (∃ c q o b, (s.slot f n).job = .task c q o b)

/-- The entry of the pair that a request names. -/
def State.pair (s : State) (sl : Nat) (r : Req) (ver : Nat) : Option VEntry := (s.slice sl).version r.ctx (localVa r.va) ver

/-- The slot of a tile task halts with a trap record. -/
def Halts (s t : State) (f n : Nat) (r : TrapRec) : Prop :=
  (t.slot f n).trap = some r ∧ (t.slot f n).park = none ∧ (t.slot f n).th.x = (s.slot f n).th.x ∧ (t.slot f n).th.p = (s.slot f n).th.p

/-- The record of a halt request that a slot meets (R416): BKPT with INFO 0xFF, and STEP where its group's hold meets it in a step (R420). -/
def HaltRecord (x : Slot) : TrapRec :=
  let stepped := x.sdc.held && x.sdc.stepping.isSome
  { cause := if stepped then cSTEP else cBKPT, dbg := true, pc := x.th.pc, info := if stepped then 0 else 0xFF }

/-! Copies (R99 to R106, R248 to R251). -/

/-- A copy instruction: its registers for length, global address and local address, whether it goes to global memory, whether it is a
multicast. -/
def copyCase : Instr → Option (BitVec 5 × BitVec 5 × BitVec 5 × Bool × Bool)
  | .cpg b a d => some (b, a, d, false, false)
  | .cpl b a d => some (b, a, d, true, false)
  | .cpm b a d => some (b, a, d, false, true)
  | _ => none

/-- The copy that an instruction of slot n of facet f issues, before it has moved anything. -/
def Issued (s t : State) (f n : Nat) (ga la : Word) (len : Nat) (out multi : Bool) : Prop :=
  let x := s.slot f n
  (∃ c, kfind s.nextId t.copies = some c ∧ c.f = f ∧ c.n = n ∧ some (c.ctx, c.seq) = x.owner ∧ c.pc = x.th.pc ∧ c.toGlobal = out ∧
    c.multi = (multi && decide (x.mcb.toNat ≤ f ∧ f < x.mcb.toNat + 64)) ∧ c.ga = ga ∧ c.la = la.toNat ∧ c.len = len ∧ c.cpt = x.cpt ∧
    c.done = 0 ∧ c.finished = false ∧ c.cause = none) ∧
  (t.slot f n).cnt = (if x.cpt.extractLsb' 0 2 = 0 then x.cnt.addCp else x.cnt) ∧
  (t.facet f).sb.map (fun e => (e.op, e.slot, e.dir, e.laddr, e.len)) =
    (s.facet f).sb.map (fun e => (e.op, e.slot, e.dir, e.laddr, e.len)) ++ (if len = 0 then [] else [(s.nextId, n, out, la.toNat, len)]) ∧
  .copyPiece s.nextId noAnswer ∈ t.due ∧ Retired s t [] ∧ BytesSame s t ∧ OthersSame s t

/-- A copy moves its next n bytes on its own, from or to bytes at pa of slice sl that are not poisoned, which neither the slice nor a prism
caches. -/
def Moves (s : State) (id : Nat) (c : Copy) (sl pa n : Nat) (leaf : Word) : Prop :=
  let va := c.ga + BitVec.ofNat 64 c.done
  kfind id s.copies = some c ∧ c.finished = false ∧ c.done < c.stop ∧ n = min (c.stop - c.done) (65536 - va.toNat % 65536) ∧
    s.streamOf id = none ∧ s.copyReady id c c.done n = true ∧ s.whereIs va = .here ∧ s.pieceReq id = none ∧ s.home c.ctx va = some sl ∧
    s.migrating sl c.ctx va = false ∧ s.missAhead sl 0 c.ctx va = false ∧ s.findAt sl c.ctx va (if c.toGlobal then .write else .read) = (.at pa leaf, s) ∧
    s.dBlocked sl 0 c.ctx va pa n = false ∧ (∀ p, (s.prism p).cache = []) ∧ (s.slice sl).cache = [] ∧
    (∀ i, i < n → (pa + i) / 64 ∉ s.memP) ∧ (s.facet c.f).parked = []

/-! Messages (R308 to R316) and remote operations (R107 to R109, R252, R253). -/

/-- A message is on its way: a new flight with its content, delivery due where its target is of this device. -/
def Launched (s t : State) (w : Flight) : Prop :=
  kfind s.nextId t.flights = some { w with msg := { w.msg with id := s.nextId } } ∧
    (tidDevice w.target = s.dev → .messageDelivery s.nextId noAnswer ∈ t.due)

/-- The message that MSEND or AMSG sends from registers a and a + 1 with the word w. -/
def messageOf (s : State) (f n : Nat) (a : BitVec 5) (w h : Word) : Msg :=
  let t := (s.slot f n).th
  { pay := t.rx (a + 1) ++ t.rx a, hnd := h, src := BitVec.ofNat 28 (s.tid f n), tag := w.extractLsb' 32 8,
    tnt := bit (t.tx (a + 1)) ++ bit (t.tx (a + 1)) ++ bit (t.tx a) ++ bit (t.tx a),
    ctx := ((s.slot f n).owner.getD (0, 0)).1, seq := ((s.slot f n).owner.getD (0, 0)).2 }

/-- The only message in flight is one of a slot to slot n of facet f of this device, no load of that slot is awaited, and neither facet is
being saved or is saved. -/
def Arriving (s : State) (id : Nat) (w : Flight) (f n : Nat) : Prop :=
  s.flights = [(id, w)] ∧ tidDevice w.target = s.dev ∧ tidFacet w.target = f ∧ tidSlot w.target = n ∧ w.entered = false ∧ w.msg.op = none ∧
    w.reply = none ∧ w.copy = none ∧ s.loadAhead (.slot f n) = false ∧ (s.facet f).diverting = false ∧ (∃ g k, w.who = .slot g k ∧ k < 15 ∧ k ≠ n ∧ (s.facet g).stash = none)

/-- What becomes of a message at the mailbox of a slot of this device. -/
def Arrival (s t : State) (id : Nat) (w : Flight) (f n : Nat) : Prop :=
  let x := s.slot f n
  let mine := ∃ q o b, x.job = .task w.ctx q o b
  (n < 15 → ¬mine → kfind id t.flights = none ∧ t.cntOf w.who = (s.cntOf w.who).subSt ∧
    (∀ g k, w.who = .slot g k → (t.slot g k).late =
      addLate { cause := cACCESS, pc := w.pc, addr := w.word, no := id, cyc := (s.facet g).cyc } (s.slot g k).late)) ∧
  (n < 15 → mine → x.mbox.length < 8 → x.spill = [] → kfind id t.flights = none ∧ t.cntOf w.who = (s.cntOf w.who).subSt ∧
    (t.slot f n).mbox = x.mbox ++ [w.msg] ∧
    (x.park = none → ∀ b, t.thread b = s.thread b) ∧
    ∀ d p, x.park = some p → p.kind = .waitmsg → p.fe = some { kind := .waitmsg, la := 0, k := 0, d := d } →
      (t.slot f n).park = none ∧ (t.slot f n).th.holds d (BitVec.ofNat 64 (x.mbox.length + 1)) false ∧
        (t.slot f n).th.pc = x.th.pc + 4) ∧
  (n < 15 → mine → 8 ≤ x.mbox.length → x.spillN ≤ x.spill.length →
    kfind id t.flights = some { w with refused := true } ∧ (s.tick + 64, .messageResend id) ∈ t.later ∧ (t.slot f n).mbox = x.mbox) ∧
  (n = 15 → (∃ m q o b, m < 15 ∧ (s.slot f m).job = .task w.ctx q o b) → x.mbox.length < 8 → x.spill = [] → x.park = none →
    kfind id t.flights = some { w with entered := true, refused := false } ∧ (t.slot f n).mbox = x.mbox ++ [w.msg] ∧
    t.cntOf w.who = s.cntOf w.who ∧
    (x.job = .vacant → x.trap = none → x.mbox = [] → (s.facet f).save = .idle → .handlerStart f ∈ t.due)) ∧
  ((n < 15 ∧ mine) ∨ (n = 15 ∧ ∃ m q o b, m < 15 ∧ (s.slot f m).job = .task w.ctx q o b) → 8 ≤ x.mbox.length ∨ x.spill ≠ [] →
    x.spill.length < s.spillRoom f n → x.park = none →
    ∃ i, (∀ y ∈ x.spill, y.at' ≠ i) ∧ (∀ j, j < i → ∃ y ∈ x.spill, y.at' = j) ∧
      (t.slot f n).spill = x.spill ++ [{ w.msg with at' := i }] ∧ (t.slot f n).mbox = x.mbox ∧
      kfind id t.flights = (if n = 15 then some { w with entered := true, refused := false } else none) ∧
      let secure := if n = 15 then (s.prism (prismOf f)).world else (s.ctx ((x.owner.map Prod.fst).getD 0)).d.world
      let a := s.spillBase f n x i
      (s.mayTouch secure a = true → s.mayTouch secure (a + 31) = true → readBytes t.mem a 32 = w.msg.encoded) ∧
        ∀ b, ¬(a ≤ b ∧ b < a + 32) → readByte t.mem b = readByte s.mem b) ∧
  (s.spillRoom f n ≤ x.spill.length ∨ x.spill = [] ∧ x.mbox.length < 8 → t.mem = s.mem)

/-- A remote operation: the registers it reads and writes, the register of its word, and what it asks of the owner. -/
def remoteCase : Instr → Option (List (BitVec 5) × List (BitVec 5) × BitVec 5 × (Thread → BuiltOp))
  | .rld a t d => some ([a], [d], a, fun _ => .load t d)
  | .rst b a t => some ([a, b], [], a, fun x => .store (stBytes t) (x.rx b) (x.tx b))
  | .rstf b a w => some ([a, b], [], a, fun x => .fullEmpty (if w then 8 else 4) (x.rx b) (x.tx b))
  | .rarr b a => some ([a, b], [], a, fun x => .arrive ((x.rx b).toNat % 2 ^ 32) (x.tx b))
  | .ramswap b a t d => some ([a, b], [d], a, fun x => .amo opSwap t (x.rx b) (x.tx b) d)
  | .ramadd b a t d => some ([a, b], [d], a, fun x => .amo opAdd t (x.rx b) (x.tx b) d)
  | .ramand b a t d => some ([a, b], [d], a, fun x => .amo opAnd t (x.rx b) (x.tx b) d)
  | .ramor b a t d => some ([a, b], [d], a, fun x => .amo opOr t (x.rx b) (x.tx b) d)
  | .ramxor b a t d => some ([a, b], [d], a, fun x => .amo opXor t (x.rx b) (x.tx b) d)
  | .rammin b a t d => some ([a, b], [d], a, fun x => .amo opMin t (x.rx b) (x.tx b) d)
  | .rammax b a t d => some ([a, b], [d], a, fun x => .amo opMax t (x.rx b) (x.tx b) d)
  | .rbst l b a => some ([a, b], [], a, fun x => .bits (l.toNat + 1) (x.rx b) (x.tx b))
  | _ => none

/-- The count that a remote operation joins: LD for RLD, ST for the others (R190). -/
def BuiltOp.joins (o : BuiltOp) (c : Counts) : Counts := match o with | .load _ _ => c.addLd | _ => c.addSt
def BuiltOp.leaves (o : BuiltOp) (c : Counts) : Counts := match o with | .load _ _ => c.subLd | _ => c.subSt

/-- The first byte and the number of bytes that a remote operation touches from a bit address, and whether they are aligned (R253). -/
def BuiltOp.first (ba : Nat) : Nat := ba / 8
def BuiltOp.length (o : BuiltOp) (ba : Nat) : Nat :=
  match o with
  | .load t _ => ldBytes t
  | .store k _ _ | .fullEmpty k _ _ => k
  | .amo _ t _ _ _ => rmBytes t
  | .bits l _ _ => (ba + l - 1) / 8 + 1 - ba / 8
  | .arrive _ _ => 8
def BuiltOp.aligned (o : BuiltOp) (ba : Nat) : Bool :=
  match o with
  | .bits _ _ _ => true
  | .arrive _ _ => ba % 64 == 0
  | _ => ba % 8 == 0 && ba / 8 % o.length ba == 0

/-- The new value of a remote atomic of k bytes from the old one and the operand (R253). -/
def remoteNext (op : Nat) (t : RmTyp) (old v : Nat) : Nat :=
  let k := rmBytes t
  let m := 2 ^ (8 * k)
  let z := fun (u : Nat) => if rmSigned t && decide (m ≤ 2 * u) then (u : Int) - m else (u : Int)
  if op = opAdd then (old + v) % m
  else if op = opMin then (if z (v % m) < z old then v % m else old)
  else if op = opMax then (if z old < z (v % m) then v % m else old)
  else if op = opAnd then old &&& (v % m)
  else if op = opOr then old ||| (v % m)
  else if op = opXor then old ^^^ (v % m)
  else v % m

/-- Slot 15 of a facet has a built-in operation at the head of its mailbox, for bytes that its context may use and no copy covers, and no
access is parked on the facet. -/
def Serves (s : State) (f : Nat) (m : Msg) (rest : List Msg) (o : BuiltOp) (ba : Nat) (w : Flight) : Prop :=
  let x := s.slot f 15
  x.job = .vacant ∧ x.trap = none ∧ x.mbox = m :: rest ∧ x.spill = [] ∧ m.op = some (o, ba) ∧
    (s.facet f).residentRange m.ctx (BuiltOp.first ba) (o.length ba) = true ∧ (s.facet f).covered (BuiltOp.first ba) (o.length ba) o.writes = false ∧
    kfind m.id s.flights = some w ∧ (s.facet f).parked = []

/-- The reply to a remote operation is on its way to its sender. -/
def Answered (s t : State) (id : Nat) (w : Flight) (r : Reply) : Prop :=
  kfind id t.flights = some { w with reply := some r } ∧ .messageDelivery id noAnswer ∈ t.due ∧ (∀ b, t.thread b = s.thread b) ∧ t.mem = s.mem

/-- The reply of a remote operation of a tile task's slot of this device has arrived. -/
def ReplyHere (s : State) (id : Nat) (w : Flight) (o : BuiltOp) (r : Reply) (g k : Nat) : Prop :=
  kfind id s.flights = some w ∧ w.msg.id = id ∧ w.msg.op.map Prod.fst = some o ∧ w.reply = some r ∧ tidDevice w.target = s.dev ∧
    w.who = .slot g k ∧ k < 15 ∧ (∃ c q o' b, (s.slot g k).job = .task c q o' b) ∧ (s.facet g).parked = []

/-- The sender's instruction retires with the reply. -/
def Replied (s t : State) (g k id : Nat) (o : BuiltOp) (ds : List (BitVec 5)) : Prop :=
  RetiresAs s t (.slot g k) ds ∧ (t.slot g k).cnt = o.leaves (s.slot g k).cnt ∧ kfind id t.flights = none ∧ t.mem = s.mem

/-! Tile tasks (R46 to R60, R303 to R307). -/

/-- A slot begins a task of an entry (R56): its registers, its allocation and vector registers cleared, its counts and mailbox empty. -/
def Begins (s t : State) (f n c : Nat) (e : Entry) (ord : Nat) (k : Entering) : Prop :=
  let x := t.slot f n
  let kp : Word := BitVec.ofNat 64 (s.dev * 2 ^ 52 + (s.ctx c).d.lra + 512 * (e.seq % 256))
  let set : List (BitVec 5 × Word) := [(2, BitVec.ofNat 64 (x.lb + e.hdr.lsize)), (3, BitVec.ofNat 64 (e.hdr.widOf ord)), (4, kp),
    (5, BitVec.ofNat 64 x.lb), (6, (k.map (·.2.2)).getD 0), (7, (k.map (·.2.1)).getD 0)]
  x.job = .task c e.seq ord k.isSome ∧ x.th.pc = (k.map (·.1)).getD e.hdr.entry &&& ~~~3#64 ∧ (∀ r v, (r, v) ∈ set → x.th.rx r = v) ∧
    (∀ r, r ∉ set.map Prod.fst → x.th.rx r = 0) ∧ (∀ r, x.th.tx r = false) ∧ x.th.p = 1 ∧ x.ord = BitVec.ofNat 48 ord ∧
    x.wid = BitVec.ofNat 64 (e.hdr.widOf ord) ∧ x.lsize = e.hdr.lsize ∧ x.slim = BitVec.ofNat 18 (x.lb + e.hdr.lsize - e.hdr.stack) ∧
    x.felim = e.hdr.felim0 ∧ x.th.rkey = e.hdr.rkey0 ^^^ BitVec.ofNat 64 ord ∧ x.th.rctr = 0 ∧ x.cnt = {} ∧ x.mbox = [] ∧ x.holds = [] ∧
    (∀ i, x.lb ≤ 4 * i → 4 * i < x.lb + x.lsize → (t.facet f).word i = {}) ∧ ∀ j, j < 16 → kget {} (t.facet f).v (16 * n + j) = {}

/-- A slot is the only free one of its prism, no gang waits, and the window of the context that it serves holds one issued entry, neither a
DET entry nor of gangs, of which a task can start there. -/
def Offered (s : State) (p i n c : Nat) (e : Entry) : Prop :=
  i < 8 ∧ n < 15 ∧ (∀ j m, j < 8 → m < 15 → (j, m) ≠ (i, n) → (s.slot (p * 8 + j) m).job ≠ .vacant) ∧ (s.slot (p * 8 + i) n).job = .vacant ∧
    (∀ x ∈ s.ctxs, ∀ y ∈ x.2.window, y.gangsWaiting = []) ∧ ((s.prism p).mode i n = 1 ∧ (s.prism p).owner i n = c ∨
      (s.prism p).mode i n = 0 ∧ s.ctxs.map Prod.fst = [c]) ∧
    (s.ctx c).window = [e] ∧ e.state = .issued ∧ e.hdr.det = false ∧ e.hdr.gang = 0 ∧ s.slotTakes p i n c e = true ∧
    s.facetTakes (p * 8 + i) e c 1 = true ∧ s.spillFits c e.hdr 1 = true ∧ (s.facet (p * 8 + i)).cyc % 16 = 0 ∧
    ∀ j, j < 8 → (∀ x ∈ (s.facet (p * 8 + j)).slots, x.2.rem = none) ∧ ∀ m, m < 15 → (s.slot (p * 8 + j) m).next = none

/-- A slot has nothing under way and nothing to report, its prism caches nothing and its facet parks nothing. -/
def Quiet (s : State) (f n : Nat) : Prop :=
  (s.slot f n).cnt = {} ∧ (∀ e ∈ (s.facet f).sb, e.slot ≠ n) ∧ (s.facet f).vecBusy n = false ∧ (s.facet f).drained n = true ∧
    (s.slot f n).late = [] ∧ s.unfinished (.slot f n) = false ∧ (s.prism (prismOf f)).cache = [] ∧ (s.facet f).parked = []

/-! The task window (R31 to R45). -/

/-- A record of a fault (R323) in its 64 bytes. -/
def IsFaultRecord (b : List Byte) (r : Report) (lpc ipc : Word) (seq : Nat) (mult : Bool) : Prop :=
  b.length = 64 ∧ fieldOf b 0 8 = lpc.toNat ∧ fieldOf b 8 4 = seq % 2 ^ 32 ∧ fieldOf b 12 1 = r.cause.toNat ∧
    fieldOf b 13 1 = mult.toNat + 2 * r.late.toNat + 4 * r.handler.toNat + 8 * r.dec.toNat ∧ fieldOf b 16 8 = r.ord % 2 ^ 64 ∧
    fieldOf b 24 8 = r.pc.toNat ∧ fieldOf b 32 8 = r.addr.toNat ∧ fieldOf b 40 8 = r.info.toNat ∧ fieldOf b 48 8 = ipc.toNat ∧
    fieldOf b 56 4 = r.tid % 2 ^ 32

/-- A fault of a context waits for delivery, with no answer of another device outstanding (R42). -/
def FaultWaits (s : State) (c : Nat) (r : Report) (lpc : Word) (seq : Nat) (mult : Bool) : Prop :=
  .faultDelivery c ∈ s.due ∧ (s.ctx c).phase = .waiting r lpc seq mult ∧ (s.ctx c).dropDevs = [] ∧ (s.ctx c).noRecord = false ∧
    s.recordReq c = none

/-- Core k executes at level 1 without translation and may read n bytes at va, in HBM at pa, none of them poisoned. -/
def CoreReads (s : State) (k : Nat) (va : Word) (pa n : Nat) : Prop :=
  s.spaceOf (.core k) = .phys ∧ s.physOf va = some pa ∧ 0 < n ∧
    ∀ i, i < n → s.mayTouch (s.core k).wld (pa + i) = true ∧ (pa + i) / 64 ∉ s.memP

/-- Core k's addresses lie in context c, and its n bytes at va, within one line at pa, are readable in the page that the first translation
entry of their home slice names; nothing waits there, no line of theirs is cached, and none of them is poisoned. -/
def CtxReads (s : State) (k c : Nat) (va : Word) (pa n : Nat) : Prop :=
  s.spaceOf (.core k) = .ctx c ∧ s.whereIs va = .here ∧ 0 < n ∧ va.toNat % 512 + n ≤ 512 ∧ pa % 512 + n ≤ 512 ∧
    (∀ p, (s.prism p).cache = []) ∧ (∀ i, i < n → (pa + i) / 64 ∉ s.memP) ∧
    ∃ sl e rest, s.home c va = some sl ∧ (s.slice sl).tlb = e :: rest ∧ e.covers (s.ctx c).d.asn (localVa va) = true ∧
      pa = leafPa e.leaf e.size (localVa va) ∧ leafAllows .read e.leaf = true ∧ s.worldAllows c e.leaf pa = true ∧
      s.migrating sl c va = false ∧ (s.slice sl).parkq = [] ∧ (s.slice sl).cache = [] ∧ 0 < (s.slice sl).lineLimit

/-- A header that R47 accepts for an entry without operands and gangs, where the prisms are in the context's world. -/
def PlainHeader (s : State) (c : Nat) (h : Header) : Prop :=
  (∀ w ∈ h.wd, w ≤ 32) ∧ h.wd.sum ≤ 64 ∧ (∀ x ∈ h.ext.zip h.wd, x.1 ≠ 0 ∧ x.1 ≤ 2 ^ x.2) ∧ h.total ≤ 2 ^ 48 ∧ h.place ≤ 6 ∧ h.gang = 0 ∧
    h.lsize % 1024 = 0 ∧ h.lsize ≤ 262144 ∧ h.stack % 64 = 0 ∧ h.stack ≤ h.lsize ∧ h.entry.toNat % 4 = 0 ∧
    ∀ p, (s.prism p).world = (s.ctx c).d.world

/-- The context that the executing core's stream instructions act on is c, and no older access of the core is under way. -/
def Streams (s : State) (k c : Nat) : Prop :=
  s.turn = .core k ∧ (s.core k).stream.toNat = c ∧ (∀ e ∈ s.reqs, e.2.who ≠ .core k)

/-! Vector instructions (R255 to R279). -/

/-- A slot executes for a task that no debugger watches, no prefix pends, no stream is bound or being bound, no loop body is being entered,
the sequencer has room, and the instruction may issue. -/
def VecReady (s : State) (f n : Nat) (i : Instr) : Prop :=
  let info := vinfo i none
  s.turn = .slot f n ∧ (∃ c q o b, (s.slot f n).job = .task c q o b ∧ (s.ctx c).dbg.att = false) ∧ (s.slot f n).th.pp = false ∧
    (s.facet f).streams = [] ∧ (∀ x ∈ (s.facet f).seqQ, ∀ v ∈ x.body, v.desc = none) ∧ (s.slot f n).loopLeft = 0 ∧ s.seqUsed f < 16 ∧
    Ready s { core := false, handler := false, body := true, prefixed := info.pre, reads := [info.ra, info.rb], writes := [info.xd] }

/-- The lanes that a slot's elements need are granted, for each element width of an instruction (R259). -/
def Granted (s : State) (f n : Nat) (i : Instr) : Bool :=
  (vinfo i none).widths.all fun w =>
    let k := (s.slot f n).vl.toNat
    (if w = 64 then 2 * k else (k * w + 31) / 32) ≤ (s.facet f).grant

/-- The instruction has entered the sequencer behind what it held, with the registers as they were read at its issue; it retires, its scalar
destination awaits its result, and no vector register or memory changes. -/
def Enters (s t : State) (f n : Nat) (i : Instr) (desc : Option Stream) : Prop :=
  let x := s.slot f n
  let info := vinfo i none
  (∃ v, (t.facet f).seqQ = (s.facet f).seqQ ++ [{ body := [v], slot := n }] ∧ v.slot = n ∧ v.ins = i ∧ v.pc = x.th.pc ∧ v.vl = x.vl.toNat ∧
    v.desc = desc ∧ v.xa = x.th.rx info.ra ∧ v.xb = x.th.rx info.rb ∧ v.rm = (if info.fp then x.th.mode else .rne)) ∧
  .sequencerStart f ∈ t.due ∧ Retired s t [] ∧ (info.xd ≠ 0 → (t.slot f n).th.pend.getLsbD info.xd.toNat = true) ∧
  (t.facet f).v = (s.facet f).v ∧ (t.facet f).ls = (s.facet f).ls ∧ MemorySame s t ∧ OthersSame s t

/-- The instructions of VOP and VFX. -/
def vecOp : Instr → Bool
  | .vadd _ _ _ _ _ _ | .vsub _ _ _ _ _ _ | .vmul _ _ _ _ _ _ | .vmulh _ _ _ _ _ _ | .vmin _ _ _ _ _ _ | .vmax _ _ _ _ _ _
  | .vand _ _ _ _ _ _ | .vor _ _ _ _ _ _ | .vxor _ _ _ _ _ _ | .vshl _ _ _ _ _ _ | .vshr _ _ _ _ _ _ | .vadds _ _ _ _ _ _
  | .vsubs _ _ _ _ _ _ | .vcmpeq _ _ _ _ _ _ | .vcmplt _ _ _ _ _ _ | .vcmple _ _ _ _ _ _ | .vfadd _ _ _ _ _ | .vfsub _ _ _ _ _
  | .vfmul _ _ _ _ _ | .vfdiv _ _ _ _ _ | .vfmin _ _ _ _ _ | .vfmax _ _ _ _ _ | .vfma _ _ _ _ _ | .vfnma _ _ _ _ _
  | .vfcmpun _ _ _ _ _ | .vfsqrt _ _ _ _ | .vfsgnj _ _ _ _ _ | .vfsgnjn _ _ _ _ _ | .vfsgnjx _ _ _ _ _ | .vfcmpeq _ _ _ _ _
  | .vfcmplt _ _ _ _ _ | .vfcmple _ _ _ _ _ | .vcvtF _ _ _ _ _ | .vcvtI _ _ _ _ _ | .vqnt32 _ _ _ _ | .vqnt128 _ _ _ _
  | .vqnt256 _ _ _ _ | .vdqnt32 _ _ _ _ | .vdqnt128 _ _ _ _ | .vdqnt256 _ _ _ _ | .vexp2 _ _ _ _ | .vlog2 _ _ _ _ | .vrcp _ _ _ _
  | .vrsqrt _ _ _ _ | .vclz _ _ _ _ | .vctz _ _ _ _ | .vffs _ _ _ _ | .vpopc _ _ _ _ | .vbcast _ _ _ _ | .vext _ _ _ _ _
  | .vins _ _ _ _ _ | .vperm _ _ _ _ _ | .vslup _ _ _ _ _ | .vsldn _ _ _ _ _ | .viota _ _ _ | .vmv _ _ _ _ | .vrsum _ _ _ _ _
  | .vrmax _ _ _ _ _ | .vrmin _ _ _ _ _ | .vscan _ _ _ _ _ => true
  | _ => false

/-- A vector memory instruction of local store: whether it is strided, whether it stores, its element width. -/
def vecLocalCase : Instr → Option (Bool × Bool × Nat)
  | .vldl _ _ w _ => some (false, false, w.bits)
  | .vstl _ _ w _ => some (false, true, w.bits)
  | .vldls _ _ _ w _ => some (true, false, iBits w)
  | .vstls _ _ _ w _ => some (true, true, iBits w)
  | _ => none

/-- The bit address of element e of an access with base a and stride b. -/
def elemBit (strided : Bool) (w : Nat) (a b : Word) (e : Nat) : Nat :=
  if strided then 8 * (a + BitVec.ofNat 64 e * b).toNat else 8 * a.toNat + w * e

/-- The bytes of which the address of an element of a width is a multiple (R268). -/
def elemAlign (w : Nat) : Nat := if w = 6 then 3 else if w = 4 then 1 else w / 8

/-- The first address of an access of vl elements with a property: that of an element, of a unit-stride access its base. -/
def firstElem (strided : Bool) (w vl : Nat) (a b : Word) (bad : Nat → Bool) : Option Nat :=
  if strided then ((List.range vl).map fun e => elemBit true w a b e / 8).find? bad
  else if vl ≠ 0 ∧ bad a.toNat then some a.toNat else none

/-! Results of vector instructions by element. -/

/-- A number from its bits below place n. -/
def natOf : Nat → (Nat → Bool) → Nat
  | 0, _ => 0
  | n + 1, f => natOf n f + (if f n then 2 ^ n else 0)

/-- An element of width w as an integer, signed where U is 0. -/
def elemInt (u : Bool) (w v : Nat) : Int := if u = false ∧ 2 ^ w ≤ 2 * v then (v : Int) - 2 ^ w else v

/-- An integer clamped to the values of width w. -/
def elemClamp (u : Bool) (w : Nat) (z : Int) : Int :=
  if u then (if z < 0 then 0 else if 2 ^ w - 1 < z then 2 ^ w - 1 else z)
  else if z < -(2 ^ (w - 1)) then -(2 ^ (w - 1)) else if 2 ^ (w - 1) - 1 < z then 2 ^ (w - 1) - 1 else z

/-- What an elementwise instruction gives: whether it is masked, its destination with the width of its elements, and each active element's
new value from the sources (register, width, element), what was read at issue, and the element's rounding; none where it leaves one. -/
structure ElemCase where
  m : Bool
  d : Nat
  w : Nat
  gives : (Nat → Nat → Nat → Nat) → VIns → Rounding → Nat → Option (Nat × Exc)

/-- An integer result of two elements, wrapped. -/
def ElemCase.int (u m : Bool) (b a : BitVec 5) (w : Nat) (d : BitVec 5) (g : Int → Int → Int) : ElemCase :=
  { m := m, d := d.toNat, w := w, gives := fun src _ _ e =>
      some ((g (elemInt u w (src a.toNat w e)) (elemInt u w (src b.toNat w e)) % 2 ^ w).toNat, 0) }

/-- A result of two elements as numbers of w bits. -/
def ElemCase.nat (m : Bool) (b a : BitVec 5) (w : Nat) (d : BitVec 5) (g : Nat → Nat → Nat) : ElemCase :=
  { m := m, d := d.toNat, w := w, gives := fun src _ _ e => some (g (src a.toNat w e) (src b.toNat w e) % 2 ^ w, 0) }

/-- An integer compare: a mask bit. -/
def ElemCase.cmp (u m : Bool) (b a : BitVec 5) (w : Nat) (d : BitVec 5) (g : Int → Int → Bool) : ElemCase :=
  { m := m, d := d.toNat, w := 1, gives := fun src _ _ e =>
      some ((g (elemInt u w (src a.toNat w e)) (elemInt u w (src b.toNat w e))).toNat, 0) }

/-- A result rounded once to a format. -/
def ElemCase.round (f : Fmt) (m : Bool) (rs : List (BitVec 5)) (d : BitVec 5) (g : List FVal → RMode → FRes) : ElemCase :=
  { m := m, d := d.toNat, w := f.width, gives := fun src _ r e =>
      some (deliver f r (g (rs.map fun a => decodeFloat f (src a.toNat f.width e)) r.mode)) }

/-- A selection of encodings of a format. -/
def ElemCase.enc (f : Fmt) (m : Bool) (b a d : BitVec 5) (g : Nat → Nat → Nat × Exc) : ElemCase :=
  { m := m, d := d.toNat, w := f.width, gives := fun src _ _ e => some (g (src a.toNat f.width e) (src b.toNat f.width e)) }

/-- A floating compare: a mask bit; what it gives with a NaN, and whether a quiet NaN raises NV too. -/
def ElemCase.fcmp (f : Fmt) (m : Bool) (b a d : BitVec 5) (onNan loud : Bool) (g : FVal → FVal → Bool) : ElemCase :=
  { m := m, d := d.toNat, w := 1, gives := fun src _ _ e =>
      let x := decodeFloat f (src a.toNat f.width e)
      let y := decodeFloat f (src b.toNat f.width e)
      let nan := x.isNan || y.isNan
      some ((if nan then onNan else g x y).toNat, if x.isSnan || y.isSnan || (loud && nan) then xNV else 0) }

/-- A result of one element as a number of w bits. -/
def ElemCase.one (m : Bool) (a : BitVec 5) (w : Nat) (d : BitVec 5) (g : Nat → Nat) : ElemCase :=
  { m := m, d := d.toNat, w := w, gives := fun src _ _ e => some (g (src a.toNat w e), 0) }

/-- The element of x with its sign replaced, in a format. -/
def signed' (f : Fmt) (x : Nat) (neg : Bool) : Nat := x % 2 ^ (f.width - 1) + (if neg then 2 ^ (f.width - 1) else 0)

/-- The operands of a list, by place. -/
def operandAt (l : List FVal) (i : Nat) : FVal := (l[i]?).getD (.zero false)

/-- A dequantised element: its value times the scale of its block (R274). -/
def ElemCase.scaled (blk : Nat) (m : Bool) (q : Fmt) (a d : BitVec 5) : ElemCase :=
  { m := m, d := d.toNat, w := 32, gives := fun src _ r e =>
      let x := src a.toNat q.width e
      let k := src (a.toNat + 1) 32 (e / blk)
      let kv := if q.width = 8 then decodeFloat .f32 k else decodeFloat .e8m0 (k % 256)
      let xv := if q.isFloat then decodeFloat q x else ofInt (decodeInt q x)
      some (if kv.isNan then (canonNan .f32, xNV) else deliver .f32 r (fMul xv kv)) }

/-- The elementwise instructions (R269 to R276). -/
def elemCase : Instr → Option ElemCase
  | .vadd u m b a w d => some (.int u m b a (iBits w) d (· + ·))
  | .vsub u m b a w d => some (.int u m b a (iBits w) d (· - ·))
  | .vmul u m b a w d => some (.int u m b a (iBits w) d (· * ·))
  | .vmulh u m b a w d => some (.int u m b a (iBits w) d fun x y => x * y / 2 ^ iBits w)
  | .vmin u m b a w d => some (.int u m b a (iBits w) d fun x y => if x ≤ y then x else y)
  | .vmax u m b a w d => some (.int u m b a (iBits w) d fun x y => if x ≤ y then y else x)
  | .vadds u m b a w d => some (.int u m b a (iBits w) d fun x y => elemClamp u (iBits w) (x + y))
  | .vsubs u m b a w d => some (.int u m b a (iBits w) d fun x y => elemClamp u (iBits w) (x - y))
  | .vand _ m b a w d => some (.nat m b a (iBits w) d (· &&& ·))
  | .vor _ m b a w d => some (.nat m b a (iBits w) d (· ||| ·))
  | .vxor _ m b a w d => some (.nat m b a (iBits w) d (· ^^^ ·))
  | .vshl _ m b a w d => some (.nat m b a (iBits w) d fun x y => x * 2 ^ (y % iBits w))
  | .vshr u m b a w d => some (.nat m b a (iBits w) d fun x y => (elemInt u (iBits w) x / 2 ^ (y % iBits w) % 2 ^ iBits w).toNat)
  | .vcmpeq u m b a w d => some (.cmp u m b a (iBits w) d fun x y => x == y)
  | .vcmplt u m b a w d => some (.cmp u m b a (iBits w) d fun x y => decide (x < y))
  | .vcmple u m b a w d => some (.cmp u m b a (iBits w) d fun x y => decide (x ≤ y))
  | .vfadd t m b a d => some (.round (vfFmt t) m [a, b] d fun x r => fAdd (r = .rdn) (operandAt x 0) (operandAt x 1))
  | .vfsub t m b a d => some (.round (vfFmt t) m [a, b] d fun x r => fAdd (r = .rdn) (operandAt x 0) (operandAt x 1).neg)
  | .vfmul t m b a d => some (.round (vfFmt t) m [a, b] d fun x _ => fMul (operandAt x 0) (operandAt x 1))
  | .vfdiv t m b a d => some (.round (vfFmt t) m [a, b] d fun x _ => fDiv (operandAt x 0) (operandAt x 1))
  | .vfma t m b a d =>
    some (.round (vfFmt t) m [a, b, d] d fun x r => fFma (r = .rdn) (operandAt x 0) (operandAt x 1) (operandAt x 2))
  | .vfnma t m b a d =>
    some (.round (vfFmt t) m [a, b, d] d fun x r => fFma (r = .rdn) (operandAt x 0).neg (operandAt x 1) (operandAt x 2))
  | .vfsqrt t m a d => some (.round (vfFmt t) m [a] d fun x _ => fSqrt (operandAt x 0))
  | .vfmin t m b a d => some (.enc (vfFmt t) m b a d (fMinMax false (vfFmt t)))
  | .vfmax t m b a d => some (.enc (vfFmt t) m b a d (fMinMax true (vfFmt t)))
  | .vfsgnj t m b a d => some (.enc (vfFmt t) m b a d fun x y => (signed' (vfFmt t) x (y.testBit ((vfFmt t).width - 1)), 0))
  | .vfsgnjn t m b a d => some (.enc (vfFmt t) m b a d fun x y => (signed' (vfFmt t) x (!y.testBit ((vfFmt t).width - 1)), 0))
  | .vfsgnjx t m b a d =>
    some (.enc (vfFmt t) m b a d fun x y =>
      (signed' (vfFmt t) x (x.testBit ((vfFmt t).width - 1) != y.testBit ((vfFmt t).width - 1)), 0))
  | .vfcmpun t m b a d => some (.fcmp (vfFmt t) m b a d true false fun _ _ => false)
  | .vfcmpeq t m b a d => some (.fcmp (vfFmt t) m b a d false false fEqual)
  | .vfcmplt t m b a d => some (.fcmp (vfFmt t) m b a d false true fLess)
  | .vfcmple t m b a d => some (.fcmp (vfFmt t) m b a d false true fun x y => fLess x y || fEqual x y)
  | .vcvtF m b a w d =>
    some { m := m, d := d.toNat, w := b.width, gives := fun src _ r e => some (convert (cvtFloat w) b r (src a.toNat w.bits e)) }
  | .vcvtI m b a w d =>
    some { m := m, d := d.toNat, w := b.width, gives := fun src _ r e => some (convert (cvtInt w) b r (src a.toNat w.bits e)) }
  | .vdqnt32 m q a d => some (.scaled 32 m q a d)
  | .vdqnt128 m q a d => some (.scaled 128 m q a d)
  | .vdqnt256 m q a d => some (.scaled 256 m q a d)
  | .vexp2 m a w d => some (.round (specialFmt w) m [a] d fun x _ => fExp2 (operandAt x 0))
  | .vlog2 m a w d => some (.round (specialFmt w) m [a] d fun x _ => fLog2 (operandAt x 0))
  | .vrcp m a w d => some (.round (specialFmt w) m [a] d fun x _ => fRcp (operandAt x 0))
  | .vrsqrt m a w d => some (.round (specialFmt w) m [a] d fun x _ => fRsqrt (operandAt x 0))
  | .vclz m a w d => some (.one m a (cBits w) d fun v => zerosAbove (BitVec.ofNat 64 v) (cBits w))
  | .vctz m a w d => some (.one m a (cBits w) d fun v => lowestSet (BitVec.ofNat 64 v) 0 (cBits w))
  | .vffs m a w d => some (.one m a (cBits w) d fun v => if v = 0 then 0 else lowestSet (BitVec.ofNat 64 v) 0 (cBits w) + 1)
  | .vpopc m a w d => some (.one m a (cBits w) d fun v => setBits (BitVec.ofNat 64 v) (cBits w))
  | .vmv m a w d => some (.one m a w.bits d id)
  | .vbcast m _ w d => some { m := m, d := d.toNat, w := w.bits, gives := fun _ v _ _ => some (v.xa.toNat % 2 ^ w.bits, 0) }
  | .viota m w d => some { m := m, d := d.toNat, w := iBits w, gives := fun _ _ _ e => some (e % 2 ^ iBits w, 0) }
  | .vperm m b a w d =>
    some { m := m, d := d.toNat, w := iBits w, gives := fun src v _ e =>
             some (if src b.toNat (iBits w) e < v.vl then src a.toNat (iBits w) (src b.toNat (iBits w) e) else 0, 0) }
  | .vslup m _ a w d =>
    some { m := m, d := d.toNat, w := w.bits, gives := fun src v _ e =>
             if v.xb.toNat ≤ e then some (src a.toNat w.bits (e - v.xb.toNat), 0) else none }
  | .vsldn m _ a w d =>
    some { m := m, d := d.toNat, w := w.bits, gives := fun src v _ e =>
             some (if e + v.xb.toNat < v.vl then src a.toNat w.bits (e + v.xb.toNat) else 0, 0) }
  | _ => none

/-- The sequencer of a facet holds one instruction, which it may start in this cycle, and nothing is in flight, no stream is bound, no copy
covers local store and no access is parked on it. -/
def Alone (s : State) (f : Nat) (v : VIns) : Prop :=
  (s.facet f).seqQ = [{ body := [v], slot := v.slot }] ∧ (s.facet f).inflight = [] ∧ (s.facet f).streams = [] ∧ (s.facet f).sb = [] ∧
    (s.facet f).parked = [] ∧ (s.facet f).seqFree ≤ (s.facet f).cyc ∧ v.fa = none ∧ v.fd = none

/-- It has started: it is in flight, with no vector register changed and no instruction affected. -/
def Starts (s t : State) (f : Nat) (v : VIns) (r : SeqRes) : Prop :=
  (t.facet f).seqQ = [] ∧ (t.facet f).inflight = [r] ∧ r.id = v.id ∧ r.slot = v.slot ∧ r.pc = v.pc ∧ r.traps = v.traps ∧
    (s.facet f).cyc + (vinfo v.ins none).latency ≤ r.lands ∧ (t.facet f).v = (s.facet f).v ∧ t.mem = s.mem ∧
    ∀ b, (t.thread b).x = (s.thread b).x ∧ (t.thread b).pc = (s.thread b).pc

/-- An element is active: below vl, and its bit of v15 set where the instruction is masked (R260). -/
def activeElem (s : State) (f : Nat) (v : VIns) (m : Bool) (e : Nat) : Bool :=
  decide (e < v.vl) && (!m || ((s.facet f).vreg v.slot 15).bits.getLsbD e)

/-- How many active elements come before one: its place among the draws of its instruction (R162). -/
def rankOf (s : State) (f : Nat) (v : VIns) (m : Bool) (e : Nat) : Nat := ((List.range e).filter (activeElem s f v m)).length

/-- The rounding of element e: the instruction's mode, and in mode SR the draw of its rank. -/
def elemRounding (s : State) (f : Nat) (v : VIns) (m : Bool) (e : Nat) : Rounding :=
  { mode := v.rm, sat := v.sat, draw := draw v.key (s.slot f v.slot).th.rctr (rankOf s f v m e) }

/-- A register after the writes of a result. -/
def SeqRes.after (r : SeqRes) (key : Nat) (old : VReg) : VReg := (r.writes.filter fun u => u.reg == key).foldl VReg.apply old

/-- A result writes elements of width w of one register: those that P names receive its value, every other keeps its own. -/
def SeqRes.Elements (r : SeqRes) (key w : Nat) (P : Nat → Option Nat) : Prop :=
  (∀ u ∈ r.writes, u.reg = key) ∧
    ∀ old e, w * e + w ≤ 8192 → (r.after key old).elem w e = (match P e with | some x => x | none => old.elem w e)

/-- Element e of width w touches the 32-bit word l. -/
def touches (w e l : Nat) : Bool := decide (w * e < 32 * l + 32) && decide (32 * l < w * e + w)

/-- The taint of word l after some of the first n elements are written, each with its taint: a word written whole takes theirs, any other, and
the word of a compare's mask bit, keeps its own beside them (R176, R258, R270). -/
def wordTaint (w n : Nat) (given : Nat → Option Bool) (keeps old : Bool) (l : Nat) : Bool :=
  let whole := (List.range 32).all fun j => (List.range n).any fun e => (given e).isSome && decide (w * e ≤ 32 * l + j) && decide (32 * l + j < w * e + w)
  (List.range n).any (fun e => (given e).getD false && touches w e l) || (old && (keeps || !whole))

/-- The taint that a result's writes leave in one register. -/
def SeqRes.Tainted (r : SeqRes) (key w n : Nat) (given : Nat → Option Bool) (keeps : Bool) : Prop :=
  ∀ old l, l < 256 → (r.after key old).taint.getLsbD l = wordTaint w n given keeps (old.taint.getLsbD l) l

/-- The taint of what element e of an elementwise result is made of (R16, R276). -/
def elemTaint (s : State) (f : Nat) (v : VIns) (e : Nat) : Bool :=
  let t := fun (r w e : Nat) => ((s.facet f).vreg v.slot r).tainted w e
  match v.ins with
  | .vdqnt32 _ q a _ => t a.toNat q.width e || t (a.toNat + 1) 32 (e / 32)
  | .vdqnt128 _ q a _ => t a.toNat q.width e || t (a.toNat + 1) 32 (e / 128)
  | .vdqnt256 _ q a _ => t a.toNat q.width e || t (a.toNat + 1) 32 (e / 256)
  | .vperm _ b a w _ =>
    let j := ((s.facet f).vreg v.slot b.toNat).elem (iBits w) e
    decide (j < v.vl) && t a.toNat (iBits w) j
  | .vslup _ _ a w _ => t a.toNat w.bits (e - v.xb.toNat)
  | .vsldn _ _ a w _ => decide (e + v.xb.toNat < v.vl) && t a.toNat w.bits (e + v.xb.toNat)
  | .vbcast _ _ _ _ => v.xat
  | i => (vinfo i none).srcs.any fun (r, w) => t r w e

/-- x is not below y in the order of R208, in which −0 is below +0. -/
def floatAtLeast (x y : FVal) : Bool := fLess y x || (fEqual x y && (!x.sign || y.sign))

/-- A value that passes through a sum: a NaN becomes the canonical one (R173). -/
def passed (f : Fmt) (x : Nat) : Nat := if (decodeFloat f x).isNan then canonNan f else x

/-- A sum of two values rounded to their format. -/
def addedAs (f : Fmt) (r : Rounding) (x y : Nat) : Nat := (deliver f r (fAdd (r.mode = .rdn) (decodeFloat f x) (decodeFloat f y))).1

/-- One level of the tree of R173: neighbours added, one alone passed, absent leaves absent. -/
def treeLevel (f : Fmt) (r : Rounding) : List (Option Nat) → List (Option Nat)
  | some x :: some y :: l => some (addedAs f r x y) :: treeLevel f r l
  | some x :: none :: l => some (passed f x) :: treeLevel f r l
  | none :: some y :: l => some (passed f y) :: treeLevel f r l
  | none :: none :: l => none :: treeLevel f r l
  | l => l

/-- The tree of R173 over 2^k leaves, in mode SR with every node but the root rounded RNE. -/
def treeSum (f : Fmt) (r : Rounding) : Nat → List (Option Nat) → Option Nat
  | 0, l => (l.headD none).map (passed f)
  | 1, l => (treeLevel f r l).headD none
  | k + 2, l => treeSum f r (k + 1) (treeLevel f r.inner l)

/-- The sum of two FP32 encodings rounded to nearest even, and the term of one participant of a merge: its sum times 2^(m − M), each operation
rounded (R14, R278). -/
def sumSingle (sat : Bool) (x y : Nat) : Nat :=
  (deliver .f32 { rne with sat := sat } (fAdd false (decodeFloat .f32 x) (decodeFloat .f32 y))).1
def mergeTerm (sat : Bool) (m : FVal) (sum big : Nat) : Nat :=
  let single := fun (r : FRes) => (deliver .f32 { rne with sat := sat } r).1
  if m = .inf true then 0
  else
    let d := single (fAdd false m (decodeFloat .f32 big).neg)
    single (fMul (decodeFloat .f32 sum) (decodeFloat .f32 (single (fExp2 (decodeFloat .f32 d)))))

/-! Matrix queues, engines and accumulators (R280 to R300). -/

/-- The bytes of a vector of A or B by class (R284). -/
def vectorBytes : MClass → Nat
  | .w => 64 | .h => 128 | .e => 128 | .q6 => 192 | .q4 => 128

/-- A descriptor of 64 vectors or rows of a size is aligned (R286, R288, R291). -/
def blockAligned (d : Word) (f : MFmt) (size : Nat) : Prop :=
  let p := fieldAt d 40 16
  dData d % 64 = 0 ∧ (p = 0 ∨ size ≤ p ∧ p % 16 = 0 ∧ (f.cls = .q6 → p % 3 = 0))

/-- Every byte of 64 vectors or rows lies in the slot's allocation. -/
def blockHeld (x : Slot) (d : Word) (size : Nat) : Prop := ∀ i, i < 64 → x.holdsRange (dData d + i * dPitch d size) size = true

/-- Slot n of facet f executes for a tile task that no debugger watches, without a pending prefix, the instruction may issue, and its queue
and its count have room. -/
def MxReady (s : State) (f n : Nat) (pre : Bool) (reads : List (BitVec 5)) (q : Bool) : Prop :=
  s.turn = .slot f n ∧ (∃ c g o b, (s.slot f n).job = .task c g o b ∧ (s.ctx c).dbg.att = false) ∧ (s.slot f n).th.pp = false ∧
    Ready s { core := false, handler := false, prefixed := pre, reads := reads } ∧ ((s.facet f).mq q).entries.length < 16 ∧
    (s.slot f n).cnt.mx < 63 ∧ s.drawsPending (.slot f n) = false

/-- The instruction is the youngest entry of its queue, with the rounding in effect and the descriptors read; it has joined MX and retires;
in mode SR rctr has advanced by k. A queue that is not bound and was empty now waits for an engine. -/
def MxEnters (s t : State) (f n : Nat) (q : Bool) (i : Instr) (da db : Word) (k : Nat) : Prop :=
  let x := (s.slot f n).th
  let y := (t.slot f n).th
  let m := (s.facet f).mq q
  (∃ e, ((t.facet f).mq q).entries = m.entries ++ [e] ∧ e.slot = n ∧ e.ins = i ∧ e.pc = x.pc ∧ e.rm = x.mode ∧ e.sat = x.saturates ∧
    e.key = x.rkey ∧ e.ctr = x.rctr ∧ e.da = da ∧ e.db = db ∧ e.stage = .queued ∧ e.enq = (s.facet f).cyc ∧
    (e.ctx, e.seq) = (s.slot f n).owner.getD (0, 0)) ∧
  (t.slot f n).cnt = { (s.slot f n).cnt with mx := (s.slot f n).cnt.mx + 1 } ∧ x.keepsX y [] ∧ y.p = x.p ∧ y.pc = x.pc + 4 ∧ y.rnd = x.rnd ∧
  y.rctr = (if x.mode = .sr then x.rctr + BitVec.ofNat 64 k else x.rctr) ∧ (t.facet f).ls = (s.facet f).ls ∧ MemorySame s t ∧ OthersSame s t ∧
  (m.entries = [] → m.bind = none → i ≠ .mxrel q → ((t.facet f).mq q).waiting ≠ none ∧ .queueBinding (prismOf f) ∈ t.due)

/-- Element (r, c) of an accumulator of a binding, with its taint. -/
def Binding.elem (b : Binding) (k r c : Nat) : Nat × Bool :=
  let a := kget {} b.acc k
  ((a.bits.extractLsb' (32 * (64 * r + c)) 32).toNat, a.taint.getLsbD (64 * r + c))

/-- The w bits from a bit of a little-endian stream of bytes (R154). -/
def streamBits (l : List Byte) (bit w : Nat) : Nat := natOf w fun j => ((l[(bit + j) / 8]?).getD 0).getLsbD ((bit + j) % 8)

/-- A value of an element of a matrix format. -/
def matrixValue (f : MFmt) (x : Nat) : FVal := if (mFmt f).isFloat then decodeFloat (mFmt f) x else ofInt (decodeInt (mFmt f) x)

/-- Element k of vector i of an operand that has been read. -/
def vectorElem (f : MFmt) (bytes : List Byte) (i k : Nat) : FVal :=
  matrixValue f (streamBits bytes (8 * vectorBytes f.cls * i + (mFmt f).width * k) (mFmt f).width)

/-- Scale i of an operand that has been read (R287). -/
def scaleOf (f : MFmt) (bytes : List Byte) (i : Nat) : FVal :=
  if f.cls = .e then decodeFloat .f32 (streamBits bytes (32 * i) 32) else decodeFloat .e8m0 (streamBits bytes (8 * i) 8)

/-- Element k of row r of a chained A with the exceptions of its conversion, from accumulators of the engine (R172, R294). -/
def chainedElem (e : MxEntry) (b : Binding) (a : BitVec 5) (r k : Nat) : FVal × Exc :=
  let j := a.toNat % 8
  let src := fun (k : Nat) => decodeFloat .f32 (if e.fa.cls = .w then b.elem j r (16 * (a.toNat / 8) + k) else b.elem (j + k / 64) r (k % 64)).1
  let rnd : Rounding := { mode := e.rm, sat := e.sat, draw := draw e.key e.ctr (mDepth e.fa.cls * r + k) }
  match e.fa.cls with
  | .w => (src k, 0)
  | .h => let x := deliver (mFmt e.fa) rnd (fCvt (src k)); (matrixValue e.fa x.1, x.2)
  | _ =>
    let x := deliverAny (mFmt e.fa) rnd ((src k).scaleDown (scaleExp ((List.range (mDepth e.fa.cls)).map src) (mFmt e.fa)))
    (matrixValue e.fa x.1, x.2)

/-- The scale of row r of a chained A. -/
def chainedScale (e : MxEntry) (b : Binding) (a : BitVec 5) (r : Nat) : FVal :=
  .fin false 1 (scaleExp ((List.range (mDepth e.fa.cls)).map fun k => decodeFloat .f32 (b.elem (a.toNat % 8 + k / 64) r (k % 64)).1) (mFmt e.fa))

/-- The taint of row r of a chained A: of any element read. -/
def chainedTaint (e : MxEntry) (b : Binding) (a : BitVec 5) (r : Nat) : Bool :=
  (List.range (mDepth e.fa.cls)).any fun k =>
    (if e.fa.cls = .w then b.elem (a.toNat % 8) r (16 * (a.toNat / 8) + k) else b.elem (a.toNat % 8 + k / 64) r (k % 64)).2

/-- A rounding of R173: to nearest even in FP32. -/
def roundSingle (r : FRes) : Nat × Exc := deliver .f32 rne r

/-- One level of the balanced tree: pairs (0, 1), (2, 3), … (R173). -/
def pairSums : List (FVal × Exc) → List (FVal × Exc)
  | (x, a) :: (y, b) :: l =>
    let s := roundSingle (fAdd false x y)
    (decodeFloat .f32 s.1, a ||| b ||| s.2) :: pairSums l
  | l => l

/-- An exact product as an operand of a sum. -/
def productOf (x y : FVal) : FVal :=
  match fProd x y with
  | .nan nv => .nan nv false
  | .inf n => .inf n
  | .zero n => .zero n
  | .fin n m e => .fin n m e

/-- A finite value of an operand of class E or Q in units of 2^-16, of which all these formats are multiples. -/
def inUnits : FVal → Int
  | .fin n m e => (if n then -1 else 1) * (m * 2 ^ (e + 16).toNat)
  | _ => 0

/-- t of R171: the exact sum of the products of a chunk times the product of the scales, with the special cases. -/
def scaledSum (l : List (FVal × FVal)) (sa sb : FVal) : Nat × Exc :=
  let p := roundSingle (fMul sa sb)
  let ps := l.map fun (x, y) => productOf x y
  let pos := ps.contains (.inf false)
  let neg := ps.contains (.inf true)
  if ps.any (·.isNan) || (pos && neg) || sa.isNan || sb.isNan || (decodeFloat .f32 p.1).isNan then (canonNan .f32, p.2 ||| xNV)
  else
    let z : Int := (l.map fun (x, y) => inUnits x * inUnits y).sum
    let v : FVal := if pos then .inf false else if neg then .inf true else if z = 0 then .zero false else .fin (decide (z < 0)) z.natAbs (-32)
    let u := roundSingle (fMul v (decodeFloat .f32 p.1))
    (u.1, p.2 ||| u.2)

/-- One output of a multiplication from its initial value, row r of A with its scale and column c of B with its scale (R293). -/
def outputOf (k : MClass) (init : Nat) (a b : Nat → FVal) (sa sb : FVal) : Nat × Exc :=
  let l := (List.range (mDepth k)).map fun i => (a i, b i)
  let plus := fun (x : Nat × Exc) => let v := roundSingle (fAdd false (decodeFloat .f32 init) (decodeFloat .f32 x.1)); (v.1, x.2 ||| v.2)
  match k with
  | .w => l.foldl (fun acc (x, y) => let v := roundSingle (fFma false x y (decodeFloat .f32 acc.1)); (v.1, acc.2 ||| v.2)) (init, 0)
  | .h =>
    match pairSums (pairSums (pairSums (pairSums (pairSums (pairSums (l.map fun (x, y) => (productOf x y, 0))))))) with
    | (v, x) :: _ => let u := roundSingle (fAdd false (decodeFloat .f32 init) v); (u.1, x ||| u.2)
    | [] => (init, 0)
  | _ => plus (scaledSum l sa sb)

/-- The head of a queue that is bound computes for its 128 cycles or longer, for a task that still holds its slot. -/
def MxHead (s : State) (f : Nat) (q : Bool) (e : MxEntry) (rest : List MxEntry) (b : Binding) : Prop :=
  let m := (s.facet f).mq q
  m.entries = e :: rest ∧ m.bind = some b ∧ e.stage = .computing ∧ e.compAt + 128 ≤ (s.facet f).cyc ∧
    (s.slot f e.slot).owner = some (e.ctx, e.seq) ∧ (∃ g o d, (s.slot f e.slot).job = .task b.ctx g o d) ∧ (s.facet f).parked = []

/-- It leaves its queue and MX, its exceptions join those that an MXFENCE of its queue shows, and no thread or memory of the device
changes. -/
def MxLeaves (s t : State) (f : Nat) (q : Bool) (e : MxEntry) (rest : List MxEntry) (fl : Exc) : Prop :=
  let x := s.slot f e.slot
  let y := t.slot f e.slot
  ((t.facet f).mq q).entries = rest ∧ ((t.facet f).mq q).lastDone = (s.facet f).cyc ∧ y.cnt = { x.cnt with mx := x.cnt.mx - 1 } ∧
    (if q then (y.mxf0, y.mxf1) = (x.mxf0, x.mxf1 ||| fl) else (y.mxf0, y.mxf1) = (x.mxf0 ||| fl, x.mxf1)) ∧
    (t.facet f).mq (!q) = (s.facet f).mq (!q) ∧ MemorySame s t ∧ ∀ a, t.thread a = s.thread a

/-- Accumulator d of the engine of a queue holds the elements that P gives, and every other accumulator is as before. -/
def AccBecomes (t : State) (f : Nat) (q : Bool) (b : Binding) (d : Nat) (P : Nat → Nat → Nat × Bool) : Prop :=
  ∃ u, ((t.facet f).mq q).bind = some u ∧ u.engine = b.engine ∧ u.ctx = b.ctx ∧ (∀ k, k ≠ d → kget {} u.acc k = kget {} b.acc k) ∧
    ∀ r c, r < 64 → c < 64 → u.elem d r c = P r c

/-- The flags of an operation are the OR of the exceptions of its elements. -/
def FlagsOf (fl : Exc) (P : Nat → Nat → Exc) : Prop := ∀ j, j < 5 → (fl.getLsbD j = true ↔ ∃ r c, r < 64 ∧ c < 64 ∧ (P r c).getLsbD j = true)

/-- The largest finite value of a target of the down-converter, doubled (R172). -/
def twiceLargest : Fmt → Nat
  | .e5m2 => 114688 | .e4m3 => 896 | .e3m2 => 56 | .e2m3 => 15 | .e2m1 => 12 | .i8 => 254 | .n8 => 510 | .i4 => 14 | .n4 => 30 | _ => 0

/-- An FP32 value is at most F × 2^k in magnitude, F doubled, in units of 2^-200. -/
def fitsScale (f2 : Nat) (k : Int) : FVal → Prop
  | .fin _ m e => 2 * m * 2 ^ (e + 200).toNat ≤ f2 * 2 ^ (k + 200).toNat
  | _ => True

/-- The bytes of 64 vectors of an operand, packed one after the other. -/
def packedBlock (x : Facet) (d : Word) (size : Nat) : List Byte := (List.range 64).flatMap fun i => x.lsBytes (dData d + i * dPitch d size) size

/-- The cycles for which an instruction reads the engine port (R300): bytes of A and B, of B alone where A is chained, or of an image. -/
def readCycles (i : Instr) (fa fb : MFmt) : Nat :=
  match i with
  | .mxmul false _ _ _ _ _ | .mxmulz false _ _ _ _ _ => (vectorBytes fa.cls + vectorBytes fb.cls) / 2
  | .mxmul true _ _ _ _ _ | .mxmulz true _ _ _ _ _ => vectorBytes fb.cls / 2
  | .mxld _ _ _ _ => 4 * (mFmt fa).width
  | _ => 0

/-- An instruction whose A is chained. -/
def isChained : Instr → Bool
  | .mxmul s _ _ _ _ _ | .mxmulz s _ _ _ _ _ => s
  | _ => false

/-! Registers of the supervisor (R362 to R400). -/

/-- The descriptor at an address passes the checks of R368 and R383 for context c and core k, by the bytes that memory holds. -/
def DescriptorPasses (s : State) (k c a : Nat) : Prop :=
  let u := fun (o n : Nat) => ofBytes (readBytes s.mem (a + o) n)
  let p := s.part (u 0 1)
  let w := (s.core k).wld
  let last := p.prisms.foldl max 0
  let areas := [(u 8 8, 131072), (u 0x10 8, 32 * u 0x18 4 * (last + 1)), (u 0x20 8, u 0x28 8), (u 0x30 8, u 0x38 8)]
  s.mayTouch w a = true ∧ s.mayTouch w (a + 127) = true ∧ s.partOfCore k = some (u 0 1) ∧
    (∀ r ∈ areas, r.1 % 512 = 0 ∧ p.inHbm r.1 r.2 = true ∧ s.areaWorld w r.1 r.2 = true) ∧
    u 2 6 = 0 ∧ u 0x1C 4 = 0 ∧ u 0x4C 52 = 0 ∧ u 0x48 2 < 2 ^ 12 ∧ u 0x4A 1 / 2 ^ 5 % 4 = 0 ∧ u 0x4B 1 / 2 ^ 2 = 0 ∧
    u 0x40 8 % 4096 = 0 ∧ p.inHbm (u 0x40 8) 4096 = true ∧
    (∀ sl ∈ p.slices, p.inHbm ((s.slice sl).sfrb.toNat * 65536) ((s.slice sl).sfrs.toNat * 65536) = true) ∧ (∀ x ∈ s.ctxs, x.1 ≠ c → x.2.live = true → x.2.d.asn ≠ u 0x48 2) ∧
    (2 ^ 7 ≤ u 0x4A 1 → u 0x4A 1 % 32 ∈ p.cores) ∧
    (u 0x4B 1 % 2 = 1 → ∀ x ∈ s.ctxs, x.1 ≠ c → x.2.live = true → x.2.d.sup = true → x.2.d.part ≠ u 0 1)

/-- A context has a stream at level 0, an unretired entry, a task or a saved task (R367). -/
def ContextInUse (s : State) (c : Nat) : Prop :=
  (∃ x ∈ s.cores, x.2.run ≠ .notStarted ∧ x.2.run ≠ .stopped ∧ x.2.level = 0 ∧ x.2.stream.toNat = c) ∨ (s.ctx c).window ≠ [] ∨
    ∃ x ∈ s.facets, ∃ n ∈ x.2.slots ++ x.2.savedSlots, ∃ g q b, n.2.job = .task c g q b

/-- Nothing but contexts has changed beside context c. -/
def OnlyContext (s t : State) (c : Nat) : Prop :=
  (∀ j, j ≠ c → t.ctx j = s.ctx j) ∧ MemorySame s t ∧ t.cores = s.cores ∧ t.facets = s.facets

/-- Core k is notified of queue q, and nothing else of the cores changes. -/
def NotifiesCore (s t : State) (k q : Nat) : Prop :=
  kget 0 t.nqpend k = kget 0 s.nqpend k ||| BitVec.ofNat 64 (2 ^ q) ∧ t.core k = { s.core k with sipNotify := true } ∧
    ∀ j, j ≠ k → kget 0 t.nqpend j = kget 0 s.nqpend j ∧ t.core j = s.core j

/-- The answer of a command of a migration engine: its code and state (R396). -/
def MigAnswers (s t : State) (sl code st : Nat) : Prop :=
  t.slice sl = { s.slice sl with mgerr := BitVec.ofNat 8 code, mgst := BitVec.ofNat 2 st } ∧ (∀ j, j ≠ sl → t.slice j = s.slice j) ∧
    t.mem = s.mem ∧ t.due = s.due

/-- A command has started; the code of the last refused one stays. -/
def MigStarts (s t : State) (sl : Nat) (w : MigWork) : Prop :=
  (t.slice sl).mgst = 1 ∧ (t.slice sl).mgerr = (s.slice sl).mgerr ∧ (t.slice sl).mig = w ∧ .migrationCopyDone sl ∈ t.due ∧
    (∀ j, j ≠ sl → t.slice j = s.slice j) ∧ t.mem = s.mem

/-- The reach of an invalidation among the translation entries of a slice (R392): a range of an address space, or the space. -/
def InReach (asn lo size : Nat) (e : TlbEntry) : Prop := e.asn = asn ∧ 0 < e.size ∧ e.base < lo + size ∧ lo < e.base + e.size

/-- An invalidation has begun: every slice of the partition has dropped the entries in its reach. -/
def Invalidates (s t : State) (k p : Nat) (reach : TlbEntry → Prop) : Prop :=
  (t.core k).tiWork.isSome = true ∧ (t.core k).tiErr = (s.core k).tiErr ∧ .invalidationDone k ∈ t.due ∧ t.mem = s.mem ∧
    ∀ sl, (sl ∈ (s.part p).slices → ∀ e, e ∈ (t.slice sl).tlb ↔ e ∈ (s.slice sl).tlb ∧ ¬ reach e) ∧
      (sl ∉ (s.part p).slices → t.slice sl = s.slice sl)

/-- A register write goes on as another step does. -/
def SameStep (s : State) (i j : Instr) : Prop := exec i s = exec j s

/-- The header and the slot records of a save area may be written for a facet, in its world (R359). -/
def AreaOk (s : State) (f a : Nat) : Prop := ∀ b, a ≤ b → b < a + 0x4000 → s.mayTouch (s.prism (prismOf f)).world b = true

/-! Pre-emption, debugging, monitor calls, links and errors (R356 to R361, R404 to R453). -/

/-- A request parked on a missing page under a token is the only request of the device, and its slice parks it alone. -/
def MissParked (s : State) (tok id : Nat) (r : Req) (sl : Nat) : Prop :=
  s.reqs = [(id, r)] ∧ r.stage = .missing (some tok) ∧ s.home r.ctx r.va = some sl ∧ (s.slice sl).parkq = [id]

/-- A token names the stream fault of context c, which waits for the answer of the service core, and nothing else. -/
def FaultNamed (s : State) (tok c : Nat) (ipc : Option Word) : Prop :=
  s.answered tok = [] ∧ (s.ctx c).phase = .service tok ipc ∧
    ∀ x ∈ s.ctxs, ∀ i, x.2.phase = .service tok i → x.1 = c ∧ i = ipc

/-- Nothing of a facet that a save is draining is under way: no request, copy or message, nothing in its sequencer and queues, nothing
parked, no loop being entered, and no line of its prism to write back. -/
def Drained (s : State) (f : Nat) : Prop :=
  s.reqs = [] ∧ s.copies = [] ∧ s.flights = [] ∧ (s.facet f).seqQ = [] ∧ (s.facet f).inflight = [] ∧ (s.facet f).mq0.entries = [] ∧
    (s.facet f).mq1.entries = [] ∧ (∀ n, n < 15 → (s.slot f n).park = none ∧ (s.slot f n).loopLeft = 0) ∧ (∀ c q m, (s.slot f 15).job ≠ .handler c q m) ∧
    (s.facet f).winFpx = [] ∧ (s.facet f).dirtied = [] ∧ (s.prism (prismOf f)).cache = []

/-- A slot and its facet's prism lie within the reach of the debug aperture (R405). -/
def InReachOf (s : State) (f n : Nat) : Prop := f < 2048 ∧ n < 16 ∧ s.reachesPrism (prismOf f) = true

/-- The outcome of an access through the debug aperture (R405). -/
def Outcome (t : State) (code : Nat) : Prop := t.apLast = BitVec.ofNat 4 code

/-- A core waits in an SMC whose call is the oldest that the monitor has to serve (R448). -/
def Calls (s : State) (k : Nat) (i : Instr) : Prop := s.oldestCall = some i ∧ (s.core k).run = .smc

/-- The monitor replies to a core's SMC with a0 and a1 (R344, R448): the core runs again past the SMC. -/
def Replies (s t : State) (k : Nat) (a0 a1 : Word) : Prop :=
  (t.core k).run = .running ∧ (t.core k).park = none ∧ (t.core k).th.holds 5 a0 false ∧ (t.core k).th.holds 6 a1 false ∧
    (s.core k).th.keepsX (t.core k).th [5, 6] ∧ (t.core k).th.pc = (s.core k).th.pc + 4 ∧ ∀ j, j ≠ k → t.core j = s.core j

/-- Argument i of a core's call (log 15). -/
def callArg (s : State) (k i : Nat) : Nat := ((s.core k).th.rx (BitVec.ofNat 5 (5 + i))).toNat

/-- The last entry of the event log has a code. -/
def Logged (t : State) (code : Nat) : Prop := (t.log.getLast?).map (·.code) = some (BitVec.ofNat 16 code)

end Sys2Proof.Machine
end

