-- ==== Sys2Proof/Certificates/Slice0/Obligations.lean ====
section
/-! DEFINITION. The statements for the provers. -/

open Sys2Proof Sys2Proof.Machine

/-- R201, R203: every two-operand integer instruction of OP and OPW retires with the exact result on its operands, read signed or
unsigned by U, wrapped to its width and extended; nothing else of the machine changes. -/
def Claims.IntegerResultsAreExact : Prop :=
  ∀ (i : Instr) (c : IntCase) (s : State), intCase i = some c → Ready s c.need →
    ∃ t, exec i s = .next t ∧
      WritesX s t c.d (c.value (s.thread s.turn)) ((s.thread s.turn).tx c.a || (s.thread s.turn).tx c.b)

/-- R201: the bitwise instructions act on each bit alone. -/
def Claims.LogicalResultsAreBitwise : Prop :=
  ∀ (i : Instr) (c : LogicCase) (s : State), logicCase i = some c → Ready s { reads := [c.a, c.b], writes := [c.d] } →
    let x := s.thread s.turn
    ∃ t v, exec i s = .next t ∧ WritesX s t c.d v (x.tx c.a || x.tx c.b) ∧
      HasBits c.w c.u v fun j => c.f ((x.rx c.a).getLsbD j) ((x.rx c.b).getLsbD j)

/-- R202: counts and reversals of the low w bits. -/
def Claims.BitCountsAndReversals : Prop :=
  ∀ (i : Instr) (c : UnaryCase) (s : State), unaryCase i = some c → Ready s { reads := [c.a], writes := [c.d] } →
    let x := s.thread s.turn
    ∃ t v, exec i s = .next t ∧ WritesX s t c.d v (x.tx c.a) ∧ c.kind.Gives c.w c.u (x.rx c.a) v

/-- R204, R205: an immediate instruction retires with its result. -/
def Claims.ImmediateResults : Prop :=
  ∀ (i : Instr) (a d : BitVec 5) (f : Word → Word) (s : State), immCase i = some (a, d, f) → i.wf = true →
    Ready s { reads := [a], writes := [d] } →
    ∃ t, exec i s = .next t ∧ WritesX s t d (f ((s.thread s.turn).rx a)) ((s.thread s.turn).tx a)

/-- R204: BFI replaces l bits of X[d] at p and leaves its other bits. -/
def Claims.BitFieldInsert : Prop :=
  ∀ (p l : BitVec 6) (a d : BitVec 5) (s : State), (Instr.bfi p l a d).wf = true → Ready s { reads := [a, d], writes := [d] } →
    let x := s.thread s.turn
    ∃ t v, exec (.bfi p l a d) s = .next t ∧ WritesX s t d v (x.tx d || x.tx a) ∧
      ∀ i, i < 64 → v.getLsbD i =
        if p.toNat ≤ i ∧ i ≤ p.toNat + l.toNat then (x.rx a).getLsbD (i - p.toNat) else (x.rx d).getLsbD i

/-- R206: LIM and PCADD, whose results are untainted. -/
def Claims.UpperImmediates : Prop :=
  ∀ (i : BitVec 20) (d : BitVec 5) (s : State), Ready s { writes := [d] } →
    (∃ t, exec (.lim i d) s = .next t ∧ WritesX s t d (BitVec.ofInt 64 (i.toInt * 4096)) false) ∧
    (∃ t, exec (.pcadd i d) s = .next t ∧ WritesX s t d ((s.thread s.turn).pc + BitVec.ofInt 64 (i.toInt * 4)) false)

/-- R213: integer compares write one predicate. -/
def Claims.IntegerComparesWriteOnePredicate : Prop :=
  ∀ (i : Instr) (w : Width) (u : Bool) (b a : BitVec 5) (d : BitVec 3) (f : Int → Int → Bool) (s : State),
    compareCase i = some (w, u, b, a, d, f) → Ready s { reads := [a, b], pwrites := [d] } →
    let x := s.thread s.turn
    ∃ t, exec i s = .next t ∧ WritesP s t d (f (operandInt w u (x.rx a)) (operandInt w u (x.rx b)))

/-- R213: operations on predicates, TTEST, SEL, PPACK and PUNPACK. -/
def Claims.PredicateOperations : Prop :=
  (∀ (i : Instr) (ps : List (BitVec 3)) (d : BitVec 3) (f : Thread → Bool) (s : State), predCase i = some (ps, d, f) →
    Ready s { preads := ps, pwrites := [d] } → ∃ t, exec i s = .next t ∧ WritesP s t d (f (s.thread s.turn))) ∧
  (∀ (a : BitVec 5) (d : BitVec 3) (s : State), Ready s { reads := [a], pwrites := [d] } →
    ∃ t, exec (.ttest a d) s = .next t ∧ WritesP s t d ((s.thread s.turn).tx a)) ∧
  (∀ (n : BitVec 3) (b a d : BitVec 5) (s : State), Ready s { reads := [a, b], preads := [n], writes := [d] } →
    let x := s.thread s.turn
    let r := if x.rp n then a else b
    ∃ t, exec (.sel n b a d) s = .next t ∧ WritesX s t d (x.rx r) (x.tx r)) ∧
  (∀ (d : BitVec 5) (s : State), Ready s { writes := [d], preads := [1, 2, 3, 4, 5, 6, 7] } →
    ∃ t v, exec (.ppack d) s = .next t ∧ WritesX s t d v false ∧
      (∀ i : BitVec 3, v.getLsbD i.toNat = (s.thread s.turn).rp i) ∧ ∀ i, 8 ≤ i → v.getLsbD i = false) ∧
  (∀ (m : BitVec 7) (a : BitVec 5) (s : State), Ready s { reads := [a] } →
    let x := s.thread s.turn
    ∃ t, exec (.punpack m a) s = .next t ∧
      (∀ q : BitVec 3, q ≠ 0 → (t.thread s.turn).rp q = if m.getLsbD (q.toNat - 1) then (x.rx a).getLsbD q.toNat else x.rp q) ∧
      x.keepsX (t.thread s.turn) [] ∧ x.quiet (t.thread s.turn) ∧ (t.thread s.turn).pc = x.pc + 4 ∧ Framed s t)

/-- R207, R212: a rounding operation retires with its exact result rounded once to its type and its exceptions signalled, where no
trap is enabled and no prefix pends. -/
def Obligations.FloatArithmeticRoundsOnce : Prop :=
  ∀ (i : Instr) (c : FloatCase) (s : State), floatCase i = some c → Ready s (floatNeed c.rs c.d c.cycles c.divides) →
    PlainFloat s →
    let x := s.thread s.turn
    let r := deliver (typFmt c.ty) (x.rounding 0) (c.gives (x.value c.ty) x.mode)
    ∃ t, exec i s = .next t ∧ WritesF s t c.d r.1 (c.rs.any x.tx) r.2 1

/-- R208: FMIN and FMAX with NaN operands: the other operand, or the canonical NaN; a signalling NaN raises NV. -/
def Claims.FloatMinMaxOnNaN : Prop :=
  ∀ (max : Bool) (ty : FTyp) (b a d : BitVec 5) (s : State),
    Ready s (floatNeed [a, b] d 5 false) → PlainFloat s →
    let i : Instr := if max then .fmax ty b a d else .fmin ty b a d
    let x := s.thread s.turn
    let va := x.value ty a
    let vb := x.value ty b
    let low := fun (r : BitVec 5) => (x.rx r).toNat % 2 ^ (typFmt ty).width
    va.isNan = true ∨ vb.isNan = true →
    ∃ t, exec i s = .next t ∧
      WritesF s t d (if va.isNan = false then low a else if vb.isNan = false then low b else canonNan (typFmt ty))
        (x.tx a || x.tx b) (if va.isSnan || vb.isSnan then xNV else 0) 0

/-- R208: FMIN and FMAX of operands that are no NaN give one of them, no smaller or no larger than the other, -0 counting as less than +0. -/
def Claims.FloatMinMaxOrders : Prop :=
  ∀ (max : Bool) (ty : FTyp) (b a d : BitVec 5) (s : State),
    Ready s (floatNeed [a, b] d 5 false) → PlainFloat s →
    let i : Instr := if max then .fmax ty b a d else .fmin ty b a d
    let x := s.thread s.turn
    let low := fun (r : BitVec 5) => (x.rx r).toNat % 2 ^ (typFmt ty).width
    (x.value ty a).isNan = false → (x.value ty b).isNan = false →
    ∃ t r, exec i s = .next t ∧ (r = a ∨ r = b) ∧ WritesF s t d (low r) (x.tx a || x.tx b) 0 0 ∧
      (∀ q, q = a ∨ q = b → if max then fLess (x.value ty r) (x.value ty q) = false else fLess (x.value ty q) (x.value ty r) = false) ∧
      ∀ m n, x.value ty a = .zero m → x.value ty b = .zero n → x.value ty r = .zero (if max then m && n else m || n)

/-- R209: FSGN takes the magnitude bits of X[a] and a sign from both signs; no exception, no draw. -/
def Claims.FloatSignInjection : Prop :=
  ∀ (ty : FTyp) (b a d : BitVec 5) (s : State), Ready s (floatNeed [a, b] d 5 false) → (s.thread s.turn).pp = false →
    let x := s.thread s.turn
    let n := (typFmt ty).width - 1
    let sign := fun (r : BitVec 5) => (x.rx r).getLsbD n
    let ok := fun (i : Instr) (f : Bool → Bool → Bool) =>
      ∃ t v, exec i s = .next t ∧ WritesX s t d v (x.tx a || x.tx b) ∧
        (∀ j, j < n → v.getLsbD j = (x.rx a).getLsbD j) ∧ v.getLsbD n = f (sign a) (sign b) ∧ ∀ j, n < j → v.getLsbD j = false
    ok (.fsgnj ty b a d) (fun _ y => y) ∧ ok (.fsgnjn ty b a d) (fun _ y => !y) ∧ ok (.fsgnjx ty b a d) fun x y => xor x y

/-- R210, R211: conversions retire with the delivered value, and FCLASS with its mask, where no trap is enabled and no prefix pends. -/
def Claims.FloatConversionsAndClasses : Prop :=
  ∀ (ty : FTyp) (b : Fmt) (a d : BitVec 5) (s : State), Ready s (floatNeed [a] d 5 false) → PlainFloat s →
    let x := s.thread s.turn
    let f := typFmt ty
    let low := fun (g : Fmt) => (x.rx a).toNat % 2 ^ g.width
    (b.isFloat = true → ∃ t, exec (.fcvtFloatToFloat ty b a d) s = .next t ∧
      WritesF s t d (convert f b (x.rounding 0) (low f)).1 (x.tx a) (convert f b (x.rounding 0) (low f)).2 1) ∧
    (b.isFloat = false → ∃ t, exec (.fcvtIntegerToFloat ty b a d) s = .next t ∧
      WritesF s t d (convert b f (x.rounding 0) (low b)).1 (x.tx a) (convert b f (x.rounding 0) (low b)).2 1) ∧
    (b.isFloat = false → ∃ t, exec (.fcvtFloatToInteger ty b a d) s = .next t ∧
      WritesF s t d (BitVec.ofInt 64 (decodeInt b (convert f b (x.rounding 0) (low f)).1)).toNat (x.tx a)
        (convert f b (x.rounding 0) (low f)).2 1) ∧
    (∃ t, exec (.fclass ty a d) s = .next t ∧
      WritesX s t d (match x.value ty a with
        | .inf n => if n then 1 else 128
        | .zero n => if n then 8 else 16
        | .nan sn _ => if sn then 256 else 512
        | .fin n m _ => if m < 2 ^ (floatFmt f).m then (if n then 4 else 32) else (if n then 2 else 64)) (x.tx a))

/-- R214: what a floating compare writes with a NaN operand and without, and when it raises NV. -/
def Obligations.FloatComparesAndNaN : Prop :=
  ∀ (ty : FTyp) (b a : BitVec 5) (d : BitVec 3) (s : State), Ready s { reads := [a, b], pwrites := [d], cycles := 5 } →
    rndTraps (s.thread s.turn).rnd = 0 →
    let x := s.thread s.turn
    let va := x.value ty a
    let vb := x.value ty b
    let nan := va.isNan || vb.isNan
    let snan := va.isSnan || vb.isSnan
    let ok := fun (i : Instr) (loud onNan : Bool) (r : Bool) =>
      ∃ t, exec i s = .next t ∧ (t.thread s.turn).rp d = (d == 0 || if nan then onNan else r) ∧
        (∀ q, q ≠ d → (t.thread s.turn).rp q = x.rp q) ∧ x.keepsX (t.thread s.turn) [] ∧
        x.signals (t.thread s.turn) (if snan || (loud && nan) then xNV else 0) 0 ∧ (t.thread s.turn).pc = x.pc + 4 ∧ Framed s t
    ok (.fcmpeq ty b a d) false false (fEqual va vb) ∧ ok (.fcmpne ty b a d) false true (!fEqual va vb) ∧
      ok (.fcmplt ty b a d) true false (fLess va vb) ∧ ok (.fcmple ty b a d) true false (!fLess vb va) ∧
      ok (.fcmpun ty b a d) false true false

/-- R160: an enabled trap ends a rounding operation with FPX: X[d] is not written and the flags are. A control core traps; a tile task's slot
that no debugger has claimed halts with a record of the instruction, for its facet's collection window (R354). -/
def Obligations.EnabledTrapTakesFpx : Prop :=
  (∀ (i : Instr) (c : FloatCase) (s : State) (k : Nat), floatCase i = some c → s.turn = .core k →
    Ready s (floatNeed c.rs c.d c.cycles c.divides) → (s.thread s.turn).pp = false →
    let x := s.thread s.turn
    let r := deliver (typFmt c.ty) (x.rounding 0) (c.gives (x.value c.ty) x.mode)
    (rndTraps x.rnd &&& r.2.extractLsb' 0 3) ≠ 0 →
    ∃ t, exec i s = .next t ∧ Trapped (s.core k) (t.core k) 0 (cFPX.setWidth 12) x.pc 0 ∧
      (t.core k).th.rnd = x.rnd ||| (r.2.setWidth 32 <<< 8)) ∧
  ∀ (i : Instr) (e : FloatCase) (s : State) (f n c seq ord : Nat) (cont : Bool), floatCase i = some e → s.turn = .slot f n →
    (s.slot f n).job = .task c seq ord cont → s.claimed (s.slot f n) c cFPX = false → s.drawsPending s.turn = false →
    Ready s (floatNeed e.rs e.d e.cycles e.divides) → (s.thread s.turn).pp = false →
    let x := s.thread s.turn
    let r := deliver (typFmt e.ty) (x.rounding 0) (e.gives (x.value e.ty) x.mode)
    (rndTraps x.rnd &&& r.2.extractLsb' 0 3) ≠ 0 →
    ∃ t, exec i s = .next t ∧ Halts s t f n { cause := cFPX, pc := x.pc } ∧ (t.slot f n).th.rnd = x.rnd ||| (r.2.setWidth 32 <<< 8) ∧
      (t.slot f n).th.pc = x.pc ∧ n ∈ (t.facet f).winFpx ∧ ∀ b, b ≠ s.turn → t.thread b = s.thread b

/-- R215: a branch goes to pc + offset × 4 where its relation holds and past itself otherwise. -/
def Claims.BranchesOnRegisters : Prop :=
  ∀ (i : Instr) (o : BitVec 12) (b a : BitVec 5) (f : Word → Word → Bool) (s : State), branchCase i = some (o, b, a, f) →
    Ready s { reads := [a, b] } →
    let x := s.thread s.turn
    ∃ t, exec i s = .next t ∧
      if f (x.rx a) (x.rx b) = true then MovesPc s t (x.pc + BitVec.ofInt 64 (o.toInt * 4)) ∧ FourCyclesOff s t
      else MovesPc s t (x.pc + 4)

/-- R215: BP and BNP branch on a predicate. -/
def Claims.BranchesOnPredicates : Prop :=
  ∀ (o : BitVec 12) (p : BitVec 3) (s : State), Ready s { preads := [p] } →
    let x := s.thread s.turn
    let target := x.pc + BitVec.ofInt 64 (o.toInt * 4)
    (∃ t, exec (.bp o p) s = .next t ∧ if x.rp p = true then MovesPc s t target ∧ FourCyclesOff s t else MovesPc s t (x.pc + 4)) ∧
    (∃ t, exec (.bnp o p) s = .next t ∧ if x.rp p = false then MovesPc s t target ∧ FourCyclesOff s t else MovesPc s t (x.pc + 4))

/-- R216: JAL and JALR write the return address and jump; a JALR target that is no multiple of 4 faults with ALIGN. -/
def Claims.JumpsAndLinks : Prop :=
  (∀ (o : BitVec 20) (d : BitVec 5) (s : State), Ready s { writes := [d] } →
    let x := s.thread s.turn
    ∃ t, exec (.jal o d) s = .next t ∧ (t.thread s.turn).holds d (x.pc + 4) false ∧ x.keepsX (t.thread s.turn) [d] ∧
      (t.thread s.turn).pc = x.pc + BitVec.ofInt 64 (o.toInt * 4) ∧ FourCyclesOff s t ∧ Framed s t) ∧
  (∀ (o : BitVec 12) (a d : BitVec 5) (s : State), Ready s { reads := [a], writes := [d] } →
    let x := s.thread s.turn
    let target := x.rx a + o.signExtend 64
    if target.toNat % 4 = 0 then
      ∃ t, exec (.jalr o a d) s = .next t ∧ (t.thread s.turn).holds d (x.pc + 4) false ∧ x.keepsX (t.thread s.turn) [d] ∧
        (t.thread s.turn).pc = target ∧ FourCyclesOff s t ∧ Framed s t
    else exec (.jalr o a d) s = .next (s.takeFault s.turn { cause := cALIGN, addr := target }))

/-- R219, R346, R347: a CSR instruction of a control core at level 1 gives the old value and stores the bits that the register's
layout makes writable; sfrply and spre read 0. -/
def Claims.CoreRegistersByMask : Prop :=
  ∀ (i : Instr) (n : BitVec 12) (a d : BitVec 5) (f : Word → Word → Word) (wr : Bool) (m keep : Word) (k : Nat) (s : State),
    csrCase i = some (n, a, d, f, wr) → coreCsrMask n.toNat = some (m, keep) → s.turn = .core k → (s.core k).level = 1 →
    n ≠ 0x80C#12 ∨ wr = false → Ready s { reads := [a], writes := [d] } →
    ∃ t old taint, exec i s = .next t ∧ s.csr n.toNat = some (old, taint) ∧ (taint = true ↔ n = 0x00A#12) ∧
      CsrDone s t n.toNat d old (if wr then (f old ((s.core k).th.rx a) &&& m) ||| (old &&& keep) else old) taint
        (if n = 0x809#12 ∨ n = 0x80B#12 then [0x807] else []) ∧
      (t.core k).level = 1 ∧ ∀ j, j ≠ k → t.core j = s.core j

/-- R347: sip clears the bits of MGMT, PRE, NOTIFY and STRM that are written as 1; FMSG and TIMER follow from the fault queue and the
timer. -/
def Claims.PendingInterruptsClearOnOne : Prop :=
  ∀ (i : Instr) (a d : BitVec 5) (f : Word → Word → Word) (wr : Bool) (k : Nat) (s : State),
    csrCase i = some (0x807#12, a, d, f, wr) → s.turn = .core k → (s.core k).level = 1 → Ready s { reads := [a], writes := [d] } →
    let x := s.core k
    (x.sip.getLsbD 2 = true ↔ x.sfqHead ≠ x.sfqTail) ∧ (x.sip.getLsbD 0 = true ↔ x.stimer ≠ 0 ∧ x.stimer.toNat ≤ x.cyc) ∧
    ∃ t, exec i s = .next t ∧
      CsrDone s t 0x807 d (zext64 x.sip) (if wr then zext64 x.sip &&& ~~~(f (zext64 x.sip) (x.th.rx a) &&& 0x3A#64) else zext64 x.sip)
        false []

/-- R219, R347, R17: scause stores KIND 0 to 2 and CODE; KIND 3 stores 0, and a fault's reserved cause reads back as 1. -/
def Claims.TrapCauseAsStored : Prop :=
  ∀ (i : Instr) (a d : BitVec 5) (f : Word → Word → Word) (wr : Bool) (k : Nat) (s : State),
    csrCase i = some (0x803#12, a, d, f, wr) → s.turn = .core k → (s.core k).level = 1 → Ready s { reads := [a], writes := [d] } →
    let old := (s.core k).scause
    let v := f old ((s.core k).th.rx a)
    let kind : Nat := if v.toNat / 65536 % 4 = 3 then 0 else v.toNat / 65536 % 4
    let code : Nat := v.toNat % 4096
    ∃ t, exec i s = .next t ∧
      CsrDone s t 0x803 d old
        (if wr then BitVec.ofNat 64 (kind * 65536 + if kind = 0 ∧ (code = 0 ∨ 0x12 < code) then 1 else code) else old) false []

/-- R192 to R195, R219: a CSR instruction of a slot gives the old value and stores the bits that the register's layout makes writable. -/
def Claims.SlotRegistersByMask : Prop :=
  ∀ (i : Instr) (n : BitVec 12) (a d : BitVec 5) (f : Word → Word → Word) (wr : Bool) (m keep : Word) (x j : Nat) (s : State),
    csrCase i = some (n, a, d, f, wr) → slotCsrMask n.toNat = some (m, keep) → s.turn = .slot x j →
    (n = 0x00E#12 → s.drawsPending s.turn = false) → Ready s { reads := [a], writes := [d] } →
    ∃ t old taint, exec i s = .next t ∧ s.csr n.toNat = some (old, taint) ∧
      CsrDone s t n.toNat d old (if wr then (f old ((s.slot x j).th.rx a) &&& m) ||| (old &&& keep) else old) taint [] ∧
      (∀ g q, (g, q) ≠ (x, j) → (t.slot g q).controls = (s.slot g q).controls) ∧ ∀ g, (t.facet g).stores = (s.facet g).stores

/-- R155, R219: what a CSR instruction of a control core, or of a slot in a cycle in which no vector instruction of it completes with an
exception (R156), stores in rnd. -/
def Claims.RoundingAsStored : Prop :=
  ∀ (i : Instr) (a d : BitVec 5) (f : Word → Word → Word) (wr : Bool) (s : State), csrCase i = some (0x000#12, a, d, f, wr) →
    Ready s { reads := [a], writes := [d] } →
    ((∃ k, s.turn = .core k) ∨ ∃ x j, s.turn = .slot x j ∧ (s.facet x).vecBusy j = false ∧ (s.slot x j).orNow = 0) →
    let old := zext64 (s.thread s.turn).rnd
    let v := f old ((s.thread s.turn).rx a)
    let stored := if v.toNat % 8 < 6 then v &&& 0x71F0F#64 else v &&& 0x71F08#64
    ∃ t, exec i s = .next t ∧ CsrDone s t 0x000 d old (if wr then stored else old) false []

/-- R194, R195, R219: the values that cpt and vl store. -/
def Claims.CompletionAndLengthAsStored : Prop :=
  ∀ (i : Instr) (n : BitVec 12) (a d : BitVec 5) (f : Word → Word → Word) (wr : Bool) (x j : Nat) (s : State),
    csrCase i = some (n, a, d, f, wr) → s.turn = .slot x j → Ready s { reads := [a], writes := [d] } →
    let done := fun (old new : Word) => ∃ t, exec i s = .next t ∧ CsrDone s t n.toNat d old (if wr then new else old) false []
    (n = 0x005#12 →
      let old := zext64 (s.slot x j).cpt
      let v := f old ((s.slot x j).th.rx a)
      done old (if v.toNat % 4 < 3 then v &&& 0x7FFFFF03#64 else v &&& 0x7FFFFF00#64)) ∧
    (n = 0x00C#12 →
      let old := zext64 (s.slot x j).vl
      let v := f old ((s.slot x j).th.rx a)
      done old (BitVec.ofNat 64 (if 256 < v.toNat % 512 then 256 else v.toNat % 512)))

/-- R192, R219, R346: a number that an agent may not name faults: PRIV from 0x800 on a facet and at level 0, ILLEGAL otherwise. -/
def Obligations.ControlRegisterFaults : Prop :=
  ∀ (i : Instr) (n : BitVec 12) (a d : BitVec 5) (f : Word → Word → Word) (wr : Bool) (s : State),
    csrCase i = some (n, a, d, f, wr) → Ready s { reads := [a], writes := [d] } →
    (∀ x j, s.turn = .slot x j →
      (0x800 ≤ n.toNat → ∃ t, exec i s = .next t ∧ Faults s t cPRIV 0 0) ∧
      (0x011 ≤ n.toNat → n.toNat < 0x800 → ∃ t, exec i s = .next t ∧ Faults s t cILLEGAL 0 0)) ∧
    (∀ k, s.turn = .core k →
      (0x800 ≤ n.toNat → (s.core k).level = 0 → ∃ t, exec i s = .next t ∧ Faults s t cPRIV 0 0) ∧
      (0x80F ≤ n.toNat → (s.core k).level = 1 → ∃ t, exec i s = .next t ∧ Faults s t cILLEGAL 0 0) ∧
      (n.toNat < 0x800 → n.toNat ∉ [0x000, 0x001, 0x00A, 0x00D, 0x00E] → ∃ t, exec i s = .next t ∧ Faults s t cILLEGAL 0 0))

/-- R219, R357, R358: sfrply and spre read 0; a write of sfrply makes the answer of its VERDICT the next step, and a write of spre a save or a
resume of the facet that spsel names. -/
def Claims.AnswersAndPreemptionStartFromRegisters : Prop :=
  ∀ (i : Instr) (n : BitVec 12) (a d : BitVec 5) (f : Word → Word → Word) (wr : Bool) (k : Nat) (s t : State),
    csrCase i = some (n, a, d, f, wr) → s.turn = .core k → (s.core k).level = 1 → Ready s { reads := [a], writes := [d] } →
    s.release s.turn true = some t →
    let v := (f 0 ((s.core k).th.rx a)).toNat
    let token := v % 2 ^ 32
    let base := v / 2 ^ 12 % 2 ^ 32 * 4096
    let g := (s.core k).spsel.toNat
    let done := fun (u : State) => (u.core k).th.pc = (s.core k).th.pc + 4 ∧ (u.core k).th.holds d 0 false ∧ (wr = false → u.due = s.due)
    (n = 0x80C#12 → ∃ u, exec i s = .next u ∧ done u ∧
      (wr = true → match v / 2 ^ 32 % 4 with
        | 0 => u.due.head? = some (.sfrplyRetry k token)
        | 1 => u.due.head? = some (.sfrplyNomap k token)
        | 2 => u.due.head? = some (.sfrplyAccess k token)
        | _ => u.due = s.due)) ∧
    (n = 0x80E#12 → ∃ u, exec i s = .next u ∧ done u ∧
      (wr = true → u.due.head? = some (if v % 2 = 1 then .spreResume k g base else .spreSave k g base)))

/-- R220: SVC enters level 1 at the handler with its call number; the return address is its own address plus 4. -/
def Obligations.SupervisorCallEnters : Prop :=
  ∀ (n : BitVec 12) (k : Nat) (s : State), s.turn = .core k → Ready s {} →
    ∃ t, exec (.svc n) s = .next t ∧ Trapped (s.core k) (t.core k) 1 n ((s.core k).th.pc + 4) 0 ∧
      (∀ j, j ≠ k → t.core j = s.core j) ∧ t.facets = s.facets ∧ MemorySame s t

/-- R345: TRET restores the level, the interrupt enable and the pc; at level 0 the core's space is that of SCTX.CTX. No answer of a service
core has the stream continue elsewhere (R357). -/
def Obligations.TrapReturns : Prop :=
  ∀ (k : Nat) (s : State), s.turn = .core k → (s.core k).level = 1 → Ready s {} →
    let x := s.core k
    x.pl = true ∨ (s.ctx x.sctx.toNat).goAt = none →
    ∃ t, exec .tret s = .next t ∧ (t.core k).level = (if x.pl then 1 else 0) ∧ (t.core k).ie = x.pie ∧ (t.core k).pie = true ∧
      (t.core k).th = { x.th with pc := x.sepc } ∧ (x.pl = false → t.spaceOf (.core k) = .ctx x.sctx.toNat) ∧
      (t.core k).pl = x.pl ∧ (t.core k).sepc = x.sepc ∧ (t.core k).stvec = x.stvec ∧ (t.core k).scause = x.scause ∧
      (∀ j, j ≠ k → t.core j = s.core j) ∧ t.facets = s.facets ∧ MemorySame s t

/-- R344: WAITI retires where an enabled interrupt is pending, whatever IE, and otherwise waits with its pc unchanged. -/
def Claims.WaitForInterrupt : Prop :=
  ∀ (k : Nat) (s : State), s.turn = .core k → (s.core k).level = 1 → Ready s {} →
    let x := s.core k
    ∃ t, exec .waiti s = .next t ∧ MemorySame s t ∧ (t.core k).th.x = x.th.x ∧
      if x.sip &&& x.sie = 0 then (t.core k).park.isSome = true ∧ (t.core k).th.pc = x.th.pc
      else (t.core k).park = none ∧ (t.core k).th.pc = x.th.pc + 4

/-- R344, R448: SMC hands a call that the monitor serves to the management controller and waits; another, when no call comes before it, returns
refused. -/
def Claims.MonitorCall : Prop :=
  ∀ (k : Nat) (s t : State), s.turn = .core k → (s.core k).level = 1 → Ready s {} → s.release (.core k) true = some t →
    let x := s.core k
    ∃ u, exec .smc s = .next u ∧
      if 1 ≤ (x.th.rx 5).toNat ∧ (x.th.rx 5).toNat ≤ 9 then
        (u.core k).run = .smc ∧ (u.core k).th = x.th ∧ ∃ i, i ∈ u.due ∧ callOf (x.th.rx 5).toNat (.core k) = some i
      else t.oldestCall = none → (u.core k).run = .running ∧ (u.core k).th.rx 5 = BitVec.allOnes 64 ∧ (u.core k).th.tx 5 = false ∧
        (u.core k).th.rx 6 = 1 ∧ (u.core k).th.tx 6 = false ∧ (u.core k).th.pc = x.th.pc + 4 ∧ x.th.keepsX (u.core k).th [5, 6]

/-- R343: TRET, WAITI and SMC fault with PRIV on a facet and at level 0. -/
def Obligations.PrivilegedInstructions : Prop :=
  ∀ (i : Instr) (s : State), i = .tret ∨ i = .waiti ∨ i = .smc → Ready s { handler := false } →
    (∀ f n, s.turn = .slot f n → ∃ t, exec i s = .next t ∧ Faults s t cPRIV 0 0) ∧
    (∀ k, s.turn = .core k → (s.core k).level = 0 → ∃ t, exec i s = .next t ∧ Faults s t cPRIV 0 0)

/-- R221: BRK in a tile task halts its slot with a record of its address, its resume address in ADDR and its code in INFO (log 22), and
resumes past it; on a control core it traps. -/
def Obligations.BreakHaltsOrTraps : Prop :=
  ∀ (n : BitVec 12) (s : State), Ready s {} →
    (∀ f j, s.turn = .slot f j → (∃ c q o b, (s.slot f j).job = .task c q o b) →
      ∃ t, exec (.brk n) s = .next t ∧
        (t.slot f j).trap = some { cause := cBREAK, pc := (s.slot f j).th.pc, addr := (s.slot f j).th.pc + 4, info := zext64 n } ∧
        (t.slot f j).th.pc = (s.slot f j).th.pc + 4 ∧ (t.slot f j).th.x = (s.slot f j).th.x ∧ MemorySame s t) ∧
    ∀ k, s.turn = .core k → ∃ t, exec (.brk n) s = .next t ∧ CoreFaults s t k cBREAK 0

/-- R222: FRAME checks the alignment, the stack limit and the allocation, and otherwise moves sp by 16 × imm bytes. -/
def Obligations.FrameMovesTheStackPointer : Prop :=
  ∀ (i : BitVec 12) (d : BitVec 5) (f n : Nat) (s : State), s.turn = .slot f n → (Instr.frame i d).wf = true →
    Ready s { reads := [2], writes := [2, d] } →
    let x := s.slot f n
    let old := x.th.rx 2
    let new : Int := (old.toNat : Int) - i.toInt * 16
    ∃ t, exec (.frame i d) s = .next t ∧
      if old.toNat % 16 ≠ 0 then Faults s t cALIGN old 0
      else if 0 < i.toInt ∧ (s.inHandler s.turn = true ∨ new < x.slim.toNat) then Faults s t cSTACK 0 (BitVec.ofInt 64 new)
      else if i.toInt < 0 ∧ (x.lb + x.lsize : Int) < new then Faults s t cLSRANGE (BitVec.ofInt 64 new) 0
      else (t.slot f n).th.holds 2 (BitVec.ofInt 64 new) (x.th.tx 2) ∧ (d ≠ 2 → (t.slot f n).th.holds d old (x.th.tx 2)) ∧
        x.th.keepsX (t.slot f n).th [2, d] ∧ (t.slot f n).th.p = x.th.p ∧ (t.slot f n).th.pc = x.th.pc + 4 ∧ Framed s t

/-- R187: FMTP leaves its fields in STAT with PP set and changes nothing else; while a prefix is pending it faults with ILLEGAL. -/
def Obligations.PrefixEntersStat : Prop :=
  ∀ (fa fb fd : Option Fmt) (r : Option RMode) (sat : Option Bool) (s : State),
    let x := s.thread s.turn
    (x.pp = true → ∃ t, exec (.fmtp fa fb fd r sat) s = .next t ∧ Faults s t cILLEGAL 0 0) ∧
    (Ready s {} → x.pp = false → ∃ t, exec (.fmtp fa fb fd r sat) s = .next t ∧ x.keepsX (t.thread s.turn) [] ∧ (t.thread s.turn).p = x.p ∧
      x.quiet (t.thread s.turn) ∧ (t.thread s.turn).pc = x.pc + 4 ∧ (t.thread s.turn).pp = true ∧
      (t.thread s.turn).pre.fa = fa ∧ (t.thread s.turn).pre.fb = fb ∧ (t.thread s.turn).pre.fd = fd ∧
      (t.thread s.turn).pre.rm = r ∧ (t.thread s.turn).pre.sat = sat ∧ Framed s t)

/-- R191: WAIT retires where every count meets its limit, 31 being none, and otherwise stalls. -/
def Obligations.WaitTestsTheCounts : Prop :=
  ∀ (l st c m v : BitVec 5) (f n : Nat) (s : State), s.turn = .slot f n → Ready s { core := false, handler := false } →
    let x := s.slot f n
    let ok := fun (k : BitVec 5) (q : Nat) => k = 31 ∨ q ≤ k.toNat
    ∃ t, exec (.wait l st c m v) s = .next t ∧
      if ok l x.cnt.ld ∧ ok st x.cnt.st ∧ ok c x.cnt.cp ∧ ok m x.cnt.mx ∧ ok v x.cnt.vg then MovesPc s t (x.th.pc + 4)
      else t.stalled.isSome = true ∧ (t.slot f n).th = x.th ∧ Framed s t

/-- R349: at a boundary a core takes the lowest-numbered pending and enabled interrupt, at level 0 or with IE. -/
def Obligations.InterruptEntry : Prop :=
  ∀ (k i : Nat) (s : State), (s.core k).run = .running → (s.core k).park = none → ((s.core k).level = 0 ∨ (s.core k).ie = true) →
    i < 6 → ((s.core k).sip &&& (s.core k).sie).getLsbD i = true →
    (∀ j, j < i → ((s.core k).sip &&& (s.core k).sie).getLsbD j = false) → .interrupt k ∈ s.due →
    ∃ t, exec (.interrupt k) s = .next t ∧ Trapped (s.core k) (t.core k) 2 (BitVec.ofNat 12 i) (s.core k).th.pc 0 ∧ t.facets = s.facets ∧
      MemorySame s t

/-! Decoding. -/

/-- R187, R191, R202, R212, R213, R215, R222, R232, R234 to R238, R343: words that the reference writes out decode to what they stand for. -/
def Claims.WrittenOutWordsDecode : Prop :=
  decodeWord 0x2103E01F#32 = some (.fmtp (some .e4m3) (some .e4m3) (some .bf16) none (some true)) ∧
    decodeWord 0xFFC1FFFB#32 = some (.wait 31 31 0 31 31) ∧ decodeWord 0x0C0352BB#32 = some (.clzW true .w16 6 5) ∧
    decodeWord 0x407302C3#32 = some (.fmadd 8 .f32 7 6 5) ∧ decodeWord 0x0001E1E3#32 = some (.bp 3 3) ∧
    decodeWord 0x005056F3#32 = some (.frame 5 13) ∧ decodeWord 0x01036283#32 = some (.ld 16 6 .n32 5) ∧
    decodeWord 0x04113427#32 = some (.stl 72 1 2 .n64) ∧ decodeWord 0x1262C02B#32 = some (.amadd .d 6 5 .f32 0) ∧
    decodeWord 0x80418153#32 = some (.vfadd .f32 false 4 3 2) ∧ decodeWord 0x1003A0DF#32 = some (.mxst false 7 false 4 .bf16) ∧
    decodeWord 0x00006073#32 = some .tret ∧ decodeWord 0#32 = none ∧ decodeWord 0xFFFFFFFF#32 = none

/-- R179 to R182: decoding the word of a well-formed instruction gives the instruction back, with every operand. -/
def Obligations.EncodedInstructionsDecode : Prop :=
  ∀ (i : Instr) (w : BitVec 32), i.wf = true → encode i = some w → decodeWord w = some i

/-- R182: a word that decodes is well formed and is the word of what it decodes to, so that every bit of it is read. -/
def Obligations.DecodedWordsEncode : Prop :=
  ∀ (w : BitVec 32) (i : Instr), decodeWord w = some i → i.wf = true ∧ encode i = some w

/-- R182: a word whose low two bits are not 11, or whose major is 0x7F, is no instruction. -/
def Claims.ReservedMajorsDoNotDecode : Prop :=
  ∀ w : BitVec 32, w.toNat % 4 ≠ 3 ∨ w.toNat % 128 = 0x7F → decodeWord w = none

/-! Steps. -/

/-- R177, R384, R402: a control core at level 1 without translation fetches the four bytes at its pc, the first least significant. -/
def Claims.FetchReadsTheWordAtThePc : Prop :=
  ∀ (k pa : Nat) (s : State), s.spaceOf (.core k) = .phys → s.physOf (s.core k).th.pc = some pa → s.mayTouch (s.core k).wld pa = true →
    pa / 64 ∉ s.memP →
    s.fetch (.core k) = .word (readByte s.mem (pa + 3) ++ readByte s.mem (pa + 2) ++ readByte s.mem (pa + 1) ++ readByte s.mem pa)

/-- R182, R349, R351: at a boundary where no report, interrupt or breakpoint stands before it, a control core's step executes the
instruction of the fetched word, and its clock and the time base advance by one. -/
def Claims.StepRunsTheInstructionOfACore : Prop :=
  ∀ (k : Nat) (s : State) (w : BitVec 32) (i : Instr), s.power ≠ .shutDown → s.sched = [] → s.due = [] → s.clock = .core k →
    (s.core k).run = .running → (s.core k).park = none → (s.core k).late = [] → (s.core k).interrupt = none →
    ((s.core k).level = 1 ∨ (s.ctx (s.core k).stream.toNat).dbg.att = false) →
    let ready : State := { s with stalled := none, turn := .core k }
    ready.fetch (.core k) = .word w → decodeWord w = some i →
    i.wf = true ∧ step s =
      match exec i (ready.modCore k fun c => { c with trapped := false }) with
      | .next t => .next (({ t.modCore k fun c => { c with cyc := c.cyc + 1 } with stalled := none }).tickOn).act
      | o => o

/-- R65, R182, R351: where the slot whose turn it is can issue and nothing stands before its instruction, a facet's step executes the
instruction of the fetched word, and unless that stalls the cycle ends. -/
def Claims.StepRunsTheInstructionOfASlot : Prop :=
  ∀ (f : Nat) (s t : State) (w : BitVec 32) (i : Instr), s.power ≠ .shutDown → s.sched = [] → s.due = [] → s.clock = .facet f →
    let n := (s.facet f).cyc % 16
    (s.slot f n).candidate (s.facet f).cyc = true → (s.facet f).save ≠ .draining → (s.slot f n).late = [] →
    (s.slot f n).sdc.haltReq = none → s.fpHeld (.slot f n) = false → (∀ c q, (s.slot f n).owner = some (c, q) → (s.ctx c).dbg.att = false) →
    let ready : State := { s with stalled := none, turn := .slot f n }
    ready.fetch (.slot f n) = .word w → decodeWord w = some i → exec i ready = .next t → t.stalled = none →
    i.wf = true ∧ step s = .next (t.endCycle f n none (if (s.facet f).saEn then (s.readySlots runWord f).length else 0)).act

/-- R182: a fetched word that is no instruction faults with ILLEGAL. -/
def Claims.UnassignedWordsAreIllegal : Prop :=
  ∀ (w : BitVec 32) (s : State), decodeWord w = none →
    ∃ t, runFetched runWord s w = .next t ∧ Faults s t cILLEGAL 0 0

/-! Reset and invariants. -/

/-- R12, R192 to R195, R341, R347: at reset every control core is at level 1, the fields of its registers and of every slot's are 0. -/
def Obligations.ResetLeavesZeroFields : Prop :=
  (∀ k, (State.reset.core k).level = 1 ∧
    ∀ n, n ∈ [0x000, 0x001, 0x00A, 0x00D, 0x00E, 0x800, 0x801, 0x802, 0x803, 0x804, 0x805, 0x806, 0x807, 0x808, 0x809, 0x80A, 0x80B,
      0x80D] → ((State.reset.core k).csr n).map Prod.fst = some 0) ∧
  (∀ f j n, n ≤ 0x010 → (State.reset.slotCsr f j n).map Prod.fst = some 0)

/-- Log 2 (DESIGN CHOICE): the scalar registers, which no rule gives a reset value, are 0 at reset, and p0 reads 1. -/
def Obligations.ResetRegistersAsChosen : Prop :=
  ∀ (a : Agent) (r : BitVec 5) (q : BitVec 3), (State.reset.thread a).rx r = 0 ∧ (State.reset.thread a).tx r = false ∧
    (State.reset.thread a).rp q = (q == 0)

/-- HBM is in its canonical form at reset. -/
def Obligations.MemoryIsCanonicalAtReset : Prop := memoryWf State.reset.mem = true

/-- Every step keeps HBM in its canonical form: addresses strictly rising, no byte listed that reads 0 anyway. -/
def Obligations.MemoryStaysCanonical : Prop :=
  ∀ s t : State, memoryWf s.mem = true → step s = .next t → memoryWf t.mem = true

/-- Once the device has shut down no step does anything; any other state has a next one, which is shut down only where that step is the
SHUTDOWN of a die (R453, R444). -/
def Obligations.ShutDownDeviceStops : Prop :=
  (∀ s : State, s.power = .shutDown → step s = .fault .shutDown) ∧ (∀ s : State, s.power ≠ .shutDown → ∃ t, step s = .next t) ∧
  ∀ s t : State, step s = .next t → t.power = .shutDown →
    ∃ die, die < 4 ∧ (s.sched.head? = some (.event (.shutdown die)) ∨ s.sched = [] ∧ s.due.head? = some (.shutdown die))

/-! Memory of a control core at level 1. -/

/-- R232, R233, R384: LD and ST of a control core at level 1 without translation read and write HBM, little-endian, with the taint of the
sector; every byte outside those stored is as before. -/
def Claims.PhysicalLoadsAndStores : Prop :=
  (∀ (i : BitVec 12) (a : BitVec 5) (w : LdTyp) (d : BitVec 5) (k pa : Nat) (s : State),
    let x := s.thread s.turn
    let va := x.rx a + i.signExtend 64
    let n := ldBytes w
    PhysicalHbm s k va pa → va.toNat % n = 0 → Ready s { reads := [a], writes := [d] } →
    ∃ t, exec (.ld i a w d) s = .next t ∧
      if pa / 64 ∈ s.memP then (d ≠ 0 → (t.core k).th.marked [d] = some { pc := x.pc, addr := va }) ∧ Retired s t [d] ∧ Framed s t
      else WritesX s t d (extended (ldSigned w) n (ofBytes (readBytes s.mem pa n))) (decide (pa / 32 ∈ s.memT))) ∧
  (∀ (i : BitVec 12) (b a : BitVec 5) (w : StTyp) (k pa : Nat) (s : State),
    let x := s.thread s.turn
    let va := x.rx a + i.signExtend 64
    let n := stBytes w
    PhysicalHbm s k va pa → va.toNat % n = 0 → Ready s { reads := [a, b] } →
    ∃ t, exec (.st i b a w) s = .next t ∧ HbmWrites s t pa n (x.rx b) (x.tx b) ∧ Retired s t [])

/-- R229, R232, R233, R384, R402: what such an access faults with: ALIGN, NOMAP where the address is not physical, ACCESS where the
region's world refuses. -/
def Claims.PhysicalAccessChecks : Prop :=
  ∀ (i : Instr) (o : BitVec 12) (a : BitVec 5) (rs ds : List (BitVec 5)) (n k : Nat) (s : State),
    ((∃ w d, i = .ld o a w d ∧ rs = [a] ∧ ds = [d] ∧ n = ldBytes w) ∨ (∃ w b, i = .st o b a w ∧ rs = [a, b] ∧ ds = [] ∧ n = stBytes w)) →
    s.turn = .core k → s.spaceOf (.core k) = .phys → Ready s { reads := rs, writes := ds } →
    let va := (s.core k).th.rx a + o.signExtend 64
    (va.toNat % n ≠ 0 → ∃ t, exec i s = .next t ∧ CoreFaults s t k cALIGN va) ∧
    (va.toNat % n = 0 → s.physOf va = none → ∃ t, exec i s = .next t ∧ CoreFaults s t k cNOMAP va) ∧
    ∀ pa, va.toNat % n = 0 → s.physOf va = some pa → isRegister pa = false → s.mayTouch (s.core k).wld pa = false →
      ∃ t, exec i s = .next t ∧ CoreFaults s t k cACCESS va

/-! Local store. -/

/-- R234, R78: LDL reads its bytes, extended, with the OR of the taint of the words read. -/
def Claims.LocalLoads : Prop :=
  ∀ (i : BitVec 12) (a : BitVec 5) (w : LdTyp) (d : BitVec 5) (f n : Nat) (s : State),
    let x := s.thread s.turn
    let la := x.rx a + i.signExtend 64
    let k := ldBytes w
    LocalReady s f n la.toNat k false → la.toNat % k = 0 → Ready s { reads := [a], writes := [d] } →
    ∃ t taint, exec (.ldl i a w d) s = .next t ∧ WritesX s t d (extended (ldSigned w) k ((s.facet f).lsValue la.toNat k)) taint ∧
      (taint = true ↔ ∃ q, 4 * q < la.toNat + k ∧ la.toNat < 4 * q + 4 ∧ ((s.facet f).word q).taint = true)

/-- R234, R78: STL stores the low bytes of X[b] with its taint; full-empty bits and every other byte stay. -/
def Claims.LocalStores : Prop :=
  ∀ (i : BitVec 12) (b a : BitVec 5) (w : StTyp) (f n : Nat) (s : State),
    let x := s.thread s.turn
    let la := (x.rx a + i.signExtend 64).toNat
    let k := stBytes w
    LocalReady s f n la k true → la % k = 0 → Ready s { reads := [a, b] } →
    ∃ t, exec (.stl i b a w) s = .next t ∧ LocalBytes s t f la (toBytes k (x.rx b).toNat) ∧ LocalTaint s t f la k (x.tx b) ∧
      LocalEmpty s t f la k none ∧ Retired s t [] ∧ FramedOutside s t f

/-- R76, R77, R235: a synchronising load proceeds where every word it covers is full: a take leaves them empty, a peek full; otherwise
its slot parks. -/
def Claims.SynchronisingLoads : Prop :=
  ∀ (i : Instr) (o : BitVec 8) (a d : BitVec 5) (take : Bool) (k : Nat) (signed : Bool) (f n : Nat) (s : State),
    syncLoadCase i = some (o, a, d, take, k, signed) →
    let x := s.thread s.turn
    let la := (x.rx a + o.signExtend 64 * 4).toNat
    LocalReady s f n la k false → la % k = 0 → s.unloaded s.turn = false →
    Ready s { handler := false, reads := [a], writes := [d] } →
    ∃ t, exec i s = .next t ∧ FramedOutside s t f ∧ LocalBytes s t f la ((s.facet f).lsBytes la k) ∧
      ((s.facet f).allAre la k false →
        (t.slot f n).th.rx d = (if d = 0 then 0 else extended signed k ((s.facet f).lsValue la k)) ∧ Retired s t [d] ∧
          LocalEmpty s t f la k (some take)) ∧
      (¬(s.facet f).allAre la k false → ParksLocal s t f n (if take then .take else .peek))

/-- R76, R77, R235: STFP stores where every word it covers is empty and leaves them full, and parks otherwise. -/
def Claims.SynchronisingStores : Prop :=
  ∀ (i : Instr) (o : BitVec 10) (b a : BitVec 5) (k f n : Nat) (s : State),
    (i = .stfpN32 o b a ∧ k = 4 ∨ i = .stfpN64 o b a ∧ k = 8) →
    let x := s.thread s.turn
    let la := (x.rx a + o.signExtend 64 * 4).toNat
    LocalReady s f n la k true → la % k = 0 → s.unfinished s.turn = false → Ready s { handler := false, reads := [a, b] } →
    ∃ t, exec i s = .next t ∧ FramedOutside s t f ∧
      ((s.facet f).allAre la k true → LocalBytes s t f la (toBytes k (x.rx b).toNat) ∧ LocalTaint s t f la k (x.tx b) ∧
        LocalEmpty s t f la k (some false) ∧ Retired s t []) ∧
      (¬(s.facet f).allAre la k true → ParksLocal s t f n .put)

/-- R76, R235: STFF stores whatever the full-empty bits hold and leaves them full; MKE marks empty and leaves the data. -/
def Claims.ForcedStoresAndMarkEmpty : Prop :=
  ∀ (i : Instr) (o : BitVec 10) (b a : BitVec 5) (k f n : Nat) (s : State),
    let x := s.thread s.turn
    let la := (x.rx a + o.signExtend 64 * 4).toNat
    LocalReady s f n la k true → la % k = 0 → s.unfinished s.turn = false → Ready s { reads := [a, b] } →
    ((i = .stffN32 o b a ∧ k = 4 ∨ i = .stffN64 o b a ∧ k = 8) → ∃ t, exec i s = .next t ∧ FramedOutside s t f ∧ Retired s t [] ∧
      LocalBytes s t f la (toBytes k (x.rx b).toNat) ∧ LocalTaint s t f la k (x.tx b) ∧ LocalEmpty s t f la k (some false)) ∧
    ((i = .mkeN32 o a ∧ k = 4 ∨ i = .mkeN64 o a ∧ k = 8) → ∃ t, exec i s = .next t ∧ FramedOutside s t f ∧ Retired s t [] ∧
      LocalBytes s t f la ((s.facet f).lsBytes la k) ∧ LocalEmpty s t f la k (some true))

/-- R236: BLD reads l bits of local store from a bit address, extended; BST replaces them; the pointer forms move bap on by l. -/
def Claims.BitFieldLoadsAndStores : Prop :=
  ∀ (i : Instr) (ba l : Nat) (rs ds : List (BitVec 5)) (f n : Nat) (s : State),
    fieldForm (s.slot f n) i = some (ba, l, rs, ds) → ba < 2 ^ 21 → (s.facet f).lsOld = [] →
    LocalReady s f n (fieldFirst ba) (fieldBytes ba l) (ds = []) → Ready s { reads := rs, writes := ds } →
    let x := s.slot f n
    ∃ t, exec i s = .next t ∧ MemorySame s t ∧ OthersSame s t ∧ (∀ k, (t.core k).special = (s.core k).special) ∧
      (∀ g q, (g, q) ≠ (f, n) → (t.slot g q).controls = (s.slot g q).controls) ∧ (∀ g, (t.facet g).lanes = (s.facet g).lanes) ∧
      (∀ g, g ≠ f → (t.facet g).ls = (s.facet g).ls) ∧ { t.slot f n with bap := x.bap }.controls = x.controls ∧
      (t.slot f n).th.pc = x.th.pc + 4 ∧ x.th.keepsX (t.slot f n).th ds ∧
      ((t.slot f n).bap = match i with
        | .bldPointer _ _ _ | .bstPointer _ _ => x.bap + BitVec.ofNat 21 l
        | _ => x.bap) ∧
      (∀ g q b d, i = .bldPointer g b d ∨ i = .bldRegister g b q d → d ≠ 0 →
        (∀ j, j < 64 → ((t.slot f n).th.rx d).getLsbD j =
          if j < l then (s.facet f).lsBit (ba + j) else g && (s.facet f).lsBit (ba + l - 1)) ∧ (t.facet f).ls = (s.facet f).ls) ∧
      ∀ b q m, i = .bstPointer b m ∨ i = .bstRegister b q m →
        (∀ j, (t.facet f).lsBit j = if ba ≤ j ∧ j < ba + l then (x.th.rx b).getLsbD (j - ba) else (s.facet f).lsBit j) ∧
          LocalEmpty s t f 0 0 none

/-- R72 to R74, R234, R236, R254: the checks of local accesses in order: ALIGN, LSRANGE, and the stall of the range scoreboard. -/
def Claims.LocalAccessChecks : Prop :=
  (∀ (i : Instr) (la : Word) (k : Nat) (wr : Bool) (rs ds : List (BitVec 5)) (f n : Nat) (s : State),
    localForm (s.slot f n).th i = some (la, k, wr, rs, ds) → s.turn = .slot f n → Ready s { handler := false, reads := rs, writes := ds } →
    ∃ t, exec i s = .next t ∧
      (la.toNat % k ≠ 0 → Faults s t cALIGN la 0) ∧
      (la.toNat % k = 0 → s.mayUse f n la.toNat k = false → Faults s t cLSRANGE la 0) ∧
      (la.toNat % k = 0 → s.mayUse f n la.toNat k = true → (s.facet f).covered la.toNat k wr = true →
        t = { s with stalled := some clSCORE })) ∧
  (∀ (i : Instr) (ba l : Nat) (rs ds : List (BitVec 5)) (f n : Nat) (s : State),
    fieldForm (s.slot f n) i = some (ba, l, rs, ds) → s.turn = .slot f n → Ready s { reads := rs, writes := ds } →
    2 ^ 21 ≤ ba ∨ s.mayUse f n (fieldFirst ba) (fieldBytes ba l) = false →
    ∃ t, exec i s = .next t ∧ Faults s t cLSRANGE (BitVec.ofNat 64 (fieldFirst ba)) 0)

/-- R110, R111, R254: BARM arms a byte barrier, BARR is an arrival at it, and BWAIT retires where its phase differs from X[b] bit 0
and parks otherwise. -/
def Obligations.ByteBarriers : Prop :=
  ∀ (b a : BitVec 5) (f n : Nat) (s : State),
    let x := s.thread s.turn
    let la := (x.rx a).toNat
    LocalReady s f n la 8 true → la % 8 = 0 → s.unfinished s.turn = false → Ready s { handler := false, reads := [a, b] } →
    let w := (s.facet f).barrier la
    (∃ t, exec (.barm b a) s = .next t ∧ FramedOutside s t f ∧ Retired s t [] ∧
      (let v := (t.facet f).barrier la
       barPend v = (x.rx b).toNat % 2 ^ 32 ∧ barCount v = 0 ∧ barPhase v = barPhase w ∧ barOver v = barOver w) ∧
      ∀ q, q < la ∨ la + 8 ≤ q → (t.facet f).lsByte q = (s.facet f).lsByte q) ∧
    (∃ t, exec (.barr b a) s = .next t ∧ FramedOutside s t f ∧ Retired s t [] ∧ Arrived w ((t.facet f).barrier la) ((x.rx b).toNat % 2 ^ 32) ∧
      ∀ q, q < la ∨ la + 8 ≤ q → (t.facet f).lsByte q = (s.facet f).lsByte q) ∧
    ∃ t, exec (.bwait b a) s = .next t ∧ FramedOutside s t f ∧ (t.facet f).ls = (s.facet f).ls ∧
      if barPhase w = (x.rx b).getLsbD 0 then ParksLocal s t f n .bwait else Retired s t []

/-! Atomics, fences and requests. -/

/-- R238 to R240: an atomic of a control core on HBM, in one step: the new value of the table, the old one in X[d] with the sector's
taint; a relaxed floating-point one taints its sector. -/
def Claims.PhysicalAtomics : Prop :=
  ∀ (i : Instr) (c : AtomicCase) (k pa : Nat) (s : State), atomicCase i = some c → i.wf = true → c.form ≠ .d →
    let x := s.thread s.turn
    let n := amBytes c.ty
    PhysicalHbm s k (x.rx c.a) pa → (x.rx c.a).toNat % n = 0 → pa / 64 ∉ s.memP → Ready s { reads := c.reads, writes := c.writes } →
    let old := ofBytes (readBytes s.mem pa n)
    let new := c.next old ((x.rx c.b).toNat % 2 ^ (8 * n)) ((x.rx c.d).toNat % 2 ^ (8 * n))
    ∃ t, exec i s = .next t ∧ Retired s t c.writes ∧
      (c.op ≠ opStore → (t.core k).th.holds c.d (extended (amSigned c.ty) n old) (decide (pa / 32 ∈ s.memT))) ∧
      if c.op = opLoad then Framed s t
      else HbmWrites s t pa n (BitVec.ofNat 64 new) (c.taint x || ((amFmt c.ty).isSome && c.form != .sc))

/-- R129, R237: a fence at slot, facet or prism scope, or of a control core, retires where no older access that it waits for is under way,
for an acquire no older load, and changes nothing else; otherwise it stalls. -/
def Claims.NarrowFences : Prop :=
  ∀ (i : Instr) (c : Scope) (s : State), i = .fenceRel c ∨ i = .fenceAcq c ∨ i = .fenceFull c → Ready s {} →
    (wideScope c = false ∨ ∃ k, s.turn = .core k) →
    ∃ t, exec i s = .next t ∧
      if (if i = .fenceAcq c then s.unloaded s.turn else s.unfinished s.turn) = false then MovesPc s t ((s.thread s.turn).pc + 4)
      else t = { s with stalled := some clFENCE }

/-- R129: a fence of a slot at die scope or wider. A release that retires leaves no dirty byte and no update in the prism cache, an
acquire no clean byte of a SHARED page. -/
def Claims.WideFences : Prop :=
  ∀ (c : Scope) (f n : Nat) (s : State), s.turn = .slot f n → wideScope c = true → Ready s {} →
    let clean := fun (t : State) => ∀ k l, kfind k (t.prism (prismOf f)).cache = some l → l.dirty = 0 ∧ l.upd = none
    let fresh := fun (t : State) => ∀ k l, kfind k (t.prism (prismOf f)).cache = some l → l.shared = true → l.valid &&& ~~~l.dirty = 0
    (s.unloaded s.turn = false → ∃ t, exec (.fenceAcq c) s = .next t ∧ Retired s t [] ∧ fresh t ∧ t.mem = s.mem ∧ t.slices = s.slices) ∧
    ∀ u, s.unfinished s.turn = false → s.flushPrism (prismOf f) = some u →
      (∃ t, exec (.fenceRel c) s = .next t ∧ Retired s t [] ∧ clean t ∧ t.mem = u.mem) ∧
      ∃ t, exec (.fenceFull c) s = .next t ∧ Retired s t [] ∧ clean t ∧ fresh t ∧ t.mem = u.mem

/-- R190, R228, R238 to R246, R304: a global access of a slot that its prism's cache does not serve is sent to its home slice; its slot
waits for acceptance with its registers unchanged, and it joins the count of its class. -/
def Obligations.GlobalAccessesAreSent : Prop :=
  ∀ (i : Instr) (q : Sending) (f n : Nat) (s : State), sendingOf s f n i = some q → i.wf = true → Idle s f n → q.ok = true →
    s.whereIs q.va ≠ .nowhere → Ready s { handler := false, reads := q.reads, writes := q.writes } →
    ∃ t, exec i s = .next t ∧ Sends s t f n q

/-! The statements that join several claims. -/

/-- R201 to R203: the integer instructions of OP and OPW: exact, bitwise and counting results, wrapped to their width and extended by U, with
the OR of the taint of their sources; nothing else changes. -/
def Obligations.IntegerInstructions : Prop :=
  Claims.IntegerResultsAreExact ∧ Claims.LogicalResultsAreBitwise ∧ Claims.BitCountsAndReversals

/-- R204 to R206: the immediate instructions, BFI, LIM and PCADD: their results and taint; nothing else changes. -/
def Obligations.ImmediateInstructions : Prop :=
  Claims.ImmediateResults ∧ Claims.BitFieldInsert ∧ Claims.UpperImmediates

/-- R213: integer compares, operations on predicates, TTEST, SEL, PPACK and PUNPACK: what they write; nothing else changes. -/
def Obligations.ComparesAndPredicates : Prop :=
  Claims.IntegerComparesWriteOnePredicate ∧ Claims.PredicateOperations

/-- R208 to R211: FMIN, FMAX, FSGN, FCVT and FCLASS. -/
def Obligations.FloatSelectionsAndConversions : Prop :=
  Claims.FloatMinMaxOnNaN ∧ Claims.FloatMinMaxOrders ∧ Claims.FloatSignInjection ∧ Claims.FloatConversionsAndClasses

/-- R215 to R217: where branches, JAL and JALR go, what they write, and that a slot is not ready for four cycles after a taken transfer. -/
def Obligations.BranchesAndJumps : Prop :=
  Claims.BranchesOnRegisters ∧ Claims.BranchesOnPredicates ∧ Claims.JumpsAndLinks

/-- R155, R219, R346, R347: CSRRW, CSRRS and CSRRC of a control core at level 1 on every register: the old value, the value stored, and what a
write of sfrply or spre starts. -/
def Obligations.CoreControlRegisters : Prop :=
  Claims.CoreRegistersByMask ∧ Claims.PendingInterruptsClearOnOne ∧ Claims.TrapCauseAsStored ∧ Claims.RoundingAsStored ∧
    Claims.AnswersAndPreemptionStartFromRegisters

/-- R155, R192 to R195, R219: CSRRW, CSRRS and CSRRC of a slot on every register: the old value and the value stored. -/
def Obligations.SlotControlRegisters : Prop :=
  Claims.SlotRegistersByMask ∧ Claims.RoundingAsStored ∧ Claims.CompletionAndLengthAsStored

/-- R344: WAITI and SMC of a control core at level 1. -/
def Obligations.WaitingAndMonitorCalls : Prop :=
  Claims.WaitForInterrupt ∧ Claims.MonitorCall

/-- R182: words that the reference writes out decode to what they stand for, reserved words to nothing, and a fetched word that is no
instruction faults with ILLEGAL. -/
def Obligations.WordsDecode : Prop :=
  Claims.WrittenOutWordsDecode ∧ Claims.ReservedMajorsDoNotDecode ∧ Claims.UnassignedWordsAreIllegal

/-- R65, R177, R182, R349, R351: a step fetches the word at the pc and executes the instruction it decodes to; around it only the clock, the
time base and the rotation move. -/
def Obligations.StepsRunTheDecodedInstruction : Prop :=
  Claims.FetchReadsTheWordAtThePc ∧ Claims.StepRunsTheInstructionOfACore ∧ Claims.StepRunsTheInstructionOfASlot

/-- R232, R233, R238 to R240, R384, R402: loads, stores and atomics of a control core at level 1 on HBM, and what they fault with.
The model's choices in it are those of log 35. -/
def Obligations.PhysicalMemory : Prop :=
  Claims.PhysicalLoadsAndStores ∧ Claims.PhysicalAccessChecks ∧ Claims.PhysicalAtomics

/-- R72 to R78, R234, R236: plain and bit-field accesses of local store, and the checks of every local access. -/
def Obligations.LocalMemory : Prop :=
  Claims.LocalLoads ∧ Claims.LocalStores ∧ Claims.BitFieldLoadsAndStores ∧ Claims.LocalAccessChecks

/-- R76, R77, R235: synchronising loads and stores, forced stores and MKE: what full-empty bits let proceed, what they leave, and when a slot
parks. -/
def Obligations.SynchronisingAccesses : Prop :=
  Claims.SynchronisingLoads ∧ Claims.SynchronisingStores ∧ Claims.ForcedStoresAndMarkEmpty

/-- R129, R237: when a fence retires, and what a fence of a slot at die scope or wider leaves in its prism's cache. -/
def Obligations.Fences : Prop :=
  Claims.NarrowFences ∧ Claims.WideFences

/-! Requests at their home slice. -/

/-- R190, R228, R232: a load retires when it is accepted, its register awaiting the data, and the bytes of its address follow with the
taint of their sector and the poison of their granule. -/
def Claims.AcceptedLoads : Prop :=
  ∀ (id : Nat) (ans : Answer) (r : Req) (sl pa : Nat) (leaf : Word) (d : BitVec 5) (ty : LdTyp) (s : State),
    AtHome (s.done (.acceptance id noAnswer)) id r sl pa leaf → r.op = .load d ty → r.va.toNat % ldBytes ty = 0 →
    let got : Answer := { cause := none, data := readBytes s.mem pa (ldBytes ty), taint := decide (pa / 32 ∈ s.memT),
                          poison := decide (pa / 64 ∈ s.memP) }
    ∃ t, exec (.acceptance id ans) s = .next t ∧ RetiresAs s t r.who [] ∧ (d ≠ 0 → (t.thread r.who).pend.getLsbD d.toNat = true) ∧
      .loadDataReturn id got ∈ t.due ∧ t.req id = some { r with stage := .returning } ∧ BytesSame s t

/-- R190, R232: the data of a load reaches its register, extended by the load's type, and the load leaves the LD count. -/
def Claims.ReturnedLoads : Prop :=
  ∀ (id : Nat) (ans : Answer) (r : Req) (d : BitVec 5) (ty : LdTyp) (s : State),
    s.req id = some r → r.who.ours → NoneParked s r.who → r.op = .load d ty → r.stage = .returning →
    .loadDataReturn id ans ∈ s.due → ans.data.length = ldBytes ty → ans.poison = false →
    (s.whereIs r.va ≠ .here → ans.sectors = [] ∧ ∀ p, (s.prism p).cache = []) →
    ∃ t, exec (.loadDataReturn id ans) s = .next t ∧
      Delivers s t r.who d (extended (ldSigned ty) (ldBytes ty) (ofBytes ans.data)) ans.taint ∧
      t.cntOf r.who = (s.cntOf r.who).subLd ∧ t.req id = none ∧ BytesSame s t ∧ t.prisms = s.prisms

/-- R80, R190, R228, R233: a store of a slot retires when it is accepted and enters its prism's cache, whose line records the write
permission; a store of a core enters the slice. The store leaves the ST count. -/
def Claims.AcceptedStores : Prop :=
  ∀ (id : Nat) (ans : Answer) (r : Req) (sl pa : Nat) (leaf : Word) (ty : StTyp) (v : Word) (taint : Bool) (s : State),
    AtHome (s.done (.acceptance id noAnswer)) id r sl pa leaf → r.op = .store (stBytes ty) v taint → r.va.toNat % stBytes ty = 0 →
    let n := stBytes ty
    ∃ t, exec (.acceptance id ans) s = .next t ∧ RetiresAs s t r.who [] ∧ t.cntOf r.who = (s.cntOf r.who).subSt ∧ t.req id = none ∧
      (∀ f k, r.who = .slot f k →
        let l := t.prismLine (prismOf f) (t.lineKey r.ctx r.va)
        (t.prismRead (prismOf f) r.ctx r.va n).map (·.bytes) = some (toBytes n v.toNat) ∧ l.wr = true ∧
          l.dirty &&& span (r.va.toNat % 512) n = span (r.va.toNat % 512) n ∧ BytesSame s t) ∧
      ∀ k, r.who = .core k → t.sliceBytes sl pa n (leafDir leaf) = toBytes n v.toNat ∧ t.prisms = s.prisms

/-- R112, R228, R239: a relaxed atomic, or a ".r" one whose page does not allow holding it, retires when it is accepted, its register
awaiting the old value, and is applied next. -/
def Claims.AcceptedAtomics : Prop :=
  ∀ (id : Nat) (ans : Answer) (r : Req) (sl pa : Nat) (leaf : Word) (op : Nat) (ty : AmTyp) (f : AmForm) (v cmp : Word) (vt : Bool)
    (d : BitVec 5) (key : BitVec 64) (s : State),
    AtHome (s.done (.acceptance id noAnswer)) id r sl pa leaf → r.op = .atomic op ty f v cmp vt d key →
    f = .relaxed ∨ (f = .r ∧ leafRed (s.ctx r.ctx).d leaf = false) →
    ∃ t, exec (.acceptance id ans) s = .next t ∧ RetiresAs s t r.who [] ∧ (d ≠ 0 → (t.thread r.who).pend.getLsbD d.toNat = true) ∧
      .atomicApply id noAnswer ∈ t.due ∧ t.req id = some { r with stage := .accepted pa leaf } ∧ BytesSame s t

/-- R112, R238 to R240: an accepted relaxed or ".r" atomic is applied in one step at its home slice: the bytes there hold the new value,
X[d] the old one, and it leaves the count of its class. -/
def Claims.AppliedAtomics : Prop :=
  ∀ (id : Nat) (ans : Answer) (r : Req) (sl pa : Nat) (leaf : Word) (op : Nat) (ty : AmTyp) (f : AmForm) (v cmp : Word) (vt : Bool)
    (d : BitVec 5) (key : BitVec 64) (s : State),
    Accepted s id r sl pa (amBytes ty) leaf → r.op = .atomic op ty f v cmp vt d key → atomicOk op ty = true → f ≠ .sc → f ≠ .d →
    let old := ofBytes (readBytes s.mem pa (amBytes ty))
    ∃ t, exec (.atomicApply id ans) s = .next t ∧
      t.sliceBytes sl pa (amBytes ty) (leafDir leaf) = toBytes (amBytes ty) (atomicNext op ty old v cmp) ∧
      Delivers s t r.who d (extended (amSigned ty) (amBytes ty) old) (decide (pa / 32 ∈ s.memT)) ∧
      t.cntOf r.who = r.op.leave (s.cntOf r.who) ∧ t.req id = none

/-- R58, R228, R304: a JOIN retires when it is accepted; then the word at its address is decremented in one step, X[d] receives it, and
where it is 0 the record of the join block enters the queue of the prism that holds its ordinal. -/
def Claims.Joins : Prop :=
  (∀ (id : Nat) (ans : Answer) (r : Req) (sl pa : Nat) (leaf : Word) (d : BitVec 5) (s : State),
    AtHome (s.done (.acceptance id noAnswer)) id r sl pa leaf → r.op = .join d →
    ∃ t, exec (.acceptance id ans) s = .next t ∧ RetiresAs s t r.who [] ∧ .joinDecrement id noAnswer ∈ t.due ∧
      t.req id = some { r with stage := .accepted pa leaf } ∧ BytesSame s t) ∧
  ∀ (id : Nat) (ans : Answer) (r : Req) (sl pa : Nat) (leaf : Word) (d : BitVec 5) (s : State),
    Accepted s id r sl pa 64 leaf → r.op = .join d →
    let word := fun (o : Nat) => ofBytes (readBytes s.mem (pa + o) 8)
    let count : Word := BitVec.ofNat 64 (word 0) - 1
    ∃ t, exec (.joinDecrement id ans) s = .next t ∧
      (count ≠ 0 ∨ leafDir leaf = false → t.sliceBytes sl pa 8 (leafDir leaf) = toBytes 8 count.toNat) ∧
      Delivers s t r.who d count (decide (pa / 32 ∈ s.memT)) ∧ t.req id = none ∧
      ∀ e, count = 0 → s.entry r.ctx r.seq = some e → word 56 < e.hdr.total →
        let p := (e.prismOf (word 56)).getD 0
        s.contsIn p r.ctx < (s.ctx r.ctx).d.contN →
        ∃ k ∈ (t.prism p).conts, { k with at' := 0 } =
          ({ c := r.ctx, seq := r.seq, code := BitVec.ofNat 64 (word 32), frame := BitVec.ofNat 64 (word 40),
             jaddr := BitVec.ofNat 64 (word 48), ord := word 56 } : Cont)

/-- R113, R114: a ".d" atomic is placed in the holding buffer by the step after its acceptance: it retires, leaves the ST count, and
memory is as before. -/
def Claims.HeldDeterministicAtomics : Prop :=
  (∀ (id : Nat) (ans : Answer) (r : Req) (sl pa : Nat) (leaf : Word) (op : Nat) (ty : AmTyp) (v cmp : Word) (vt : Bool)
    (d : BitVec 5) (key : BitVec 64) (s : State),
    AtHome (s.done (.acceptance id noAnswer)) id r sl pa leaf → r.op = .atomic op ty .d v cmp vt d key →
    ∃ t, exec (.acceptance id ans) s = .next t ∧ t.due.head? = some (.holdingBufferRecord id) ∧
      t.req id = some { r with stage := .accepted pa leaf } ∧ (∀ b, t.thread b = s.thread b) ∧ BytesSame s t) ∧
  ∀ (id : Nat) (r : Req) (sl pa : Nat) (leaf : Word) (op : Nat) (ty : AmTyp) (v cmp : Word) (vt : Bool) (key : BitVec 64) (f n : Nat)
    (s : State),
    s.req id = some r → r.who = .slot f n → NoneParked s r.who → r.stage = .accepted pa leaf → s.home r.ctx r.va = some sl →
    r.op = .atomic op ty .d v cmp vt 0 key → op ≠ opLoad → (s.slice sl).hold.length < 16 → (∀ p, (s.prism p).cache = []) →
    let x : DRec := { c := r.ctx, seq := r.seq, va := r.va, key := key, no := s.nextId, pa := pa, dir := leafDir leaf, op := op, t := ty, v := v }
    ∃ t, exec (.holdingBufferRecord id) s = .next t ∧ RetiresAs s t r.who [] ∧ t.cntOf r.who = (s.cntOf r.who).subSt ∧
      t.req id = none ∧ (∀ q, q ∈ (t.slice sl).hold ↔ q = x ∨ q ∈ (s.slice sl).hold) ∧ BytesSame s t

/-- R113, R114: the close of a batch takes every record of its entry out of the slice; records of one address give its bytes the value that
the updates make one after the other in ascending key order, those of equal keys in the order they arrived. -/
def Claims.ClosedBatches : Prop :=
  ∀ (sl c seq : Nat) (s : State), .batchClose sl c seq ∈ s.due →
    let mine := fun (r : DRec) => r.ofEntry c seq
    ∃ t, exec (.batchClose sl c seq) s = .next t ∧ (t.slice sl).hold = (s.slice sl).hold.filter (fun r => !mine r) ∧
      (∀ l ∈ (t.slice sl).runs, ∀ r ∈ l.2, mine r = false) ∧ (∀ b, t.thread b = s.thread b) ∧
      ∀ (l : List DRec) (pa : Nat) (ty : AmTyp) (dir : Bool), l.Perm ((s.slice sl).records.filter mine) →
        l.Pairwise (fun x y => x.key.toNat < y.key.toNat ∨ (x.key = y.key ∧ x.no < y.no)) →
        (∀ r ∈ l, r.pa = pa ∧ r.t = ty ∧ r.dir = dir ∧ atomicOk r.op ty = true) → (s.slice sl).cache = [] →
        (∀ p, (s.prism p).cache = []) → pa / 64 ∉ s.memP → pa % amBytes ty = 0 →
        let n := amBytes ty
        t.sliceBytes sl pa n dir =
          toBytes n (l.foldl (fun old r => atomicNext r.op ty old r.v 0 % 2 ^ (8 * n)) (ofBytes (readBytes s.mem pa n)))

/-- R118: a ".r" atomic of a page that allows it is held in its prism's cache, and the merge of its line gives the bytes at the home slice
the new value. -/
def Claims.ReductionLines : Prop :=
  (∀ (id : Nat) (ans : Answer) (r : Req) (sl pa : Nat) (leaf : Word) (op : Nat) (ty : AmTyp) (v cmp : Word) (vt : Bool)
    (d : BitVec 5) (key : BitVec 64) (f n : Nat) (s : State),
    AtHome (s.done (.acceptance id noAnswer)) id r sl pa leaf → r.op = .atomic op ty .r v cmp vt d key → r.who = .slot f n →
    leafRed (s.ctx r.ctx).d leaf = true →
    ∃ t, exec (.acceptance id ans) s = .next t ∧ RetiresAs s t r.who [] ∧ t.req id = none ∧ BytesSame s t ∧
      (t.prismLine (prismOf f) (t.lineKey r.ctx r.va)).upd =
        some (op, ty, [(r.va.toNat % 512, BitVec.ofNat 64 (v.toNat % 2 ^ (8 * amBytes ty)), vt)])) ∧
  ∀ (p asn line sl pa off op : Nat) (ty : AmTyp) (v : Word) (vt : Bool) (leaf : Word) (s : State),
    let k := asn * 2 ^ 55 + line
    let l := s.prismLine p k
    l.upd = some (op, ty, [(off, v, vt)]) → atomicOk op ty = true → off % amBytes ty = 0 → off < 512 → pa % 512 = 0 → (s.slice sl).cache = [] →
    (pa + off) / 64 ∉ s.memP →
    (s.slice sl).pendingD (pa + off) (amBytes ty) = false →
    (s.done (.reductionLineMerge p asn line)).wbPlace l.ctx (keyVa k) 0 = .at sl pa leaf →
    ∃ t, exec (.reductionLineMerge p asn line) s = .next t ∧ (t.prismLine p k).upd = none ∧ (∀ b, t.thread b = s.thread b) ∧
      t.sliceBytes sl (pa + off) (amBytes ty) (leafDir leaf) =
        toBytes (amBytes ty) (atomicNext op ty (ofBytes (readBytes s.mem (pa + off) (amBytes ty))) v 0)

/-- R71, R80, R228: a write-back of a prism's line evicts it and leaves its dirty bytes at the home slice; one of a slice's line puts its dirty
bytes into HBM and gives the line up, and every other byte of HBM is as before. -/
def Claims.WriteBacks : Prop :=
  (∀ (p asn line sl pa : Nat) (leaf : Word) (s : State),
    let k := asn * 2 ^ 55 + line
    let l := s.prismLine p k
    l.dirty ≠ 0 → (∀ q j, (s.prismLine q j).upd = none) → (s.slice sl).cache = [] → pa % 512 = 0 →
    (s.done (.writeBack (.prism p asn line))).wbPlace l.ctx (keyVa k) l.dirty = .at sl pa leaf →
    ∃ t, exec (.writeBack (.prism p asn line)) s = .next t ∧ t.prismLine p k = {} ∧ (∀ b, t.thread b = s.thread b) ∧
      ∀ i, i < 512 → l.dirty.getLsbD i = true → t.sliceBytes sl (pa + i) 1 (leafDir leaf) = l.bytes i 1) ∧
  ∀ (sl ln : Nat) (l : Line) (s : State), kfind ln (s.slice sl).cache = some l →
    ∃ t, exec (.writeBack (.slice sl ln)) s = .next t ∧ kfind ln (t.slice sl).cache = none ∧ t.prisms = s.prisms ∧
      (∀ b, t.thread b = s.thread b) ∧
      (∀ i, i < 512 → readByte t.mem (ln * 512 + i) =
        if l.dirty.getLsbD i then l.data.extractLsb' (8 * i) 8 else readByte s.mem (ln * 512 + i)) ∧
      ∀ a, a / 512 ≠ ln → readByte t.mem a = readByte s.mem a

/-- R119: a prefetch that its page allows leaves the bytes of its line in the slice's cache, and another does nothing. -/
def Claims.Prefetches : Prop :=
  ∀ (sl pa : Nat) (s : State), ∃ t, exec (.prefetch sl pa) s = .next t ∧
    ((s.slice sl).cache.length < (s.slice sl).lineLimit → BytesSame s t) ∧ t.prisms = s.prisms ∧
    (∀ b, t.thread b = s.thread b) ∧
    ((s.done (.prefetch sl pa)).mayPrefetch sl pa = false → t = s.done (.prefetch sl pa)) ∧
    ((s.done (.prefetch sl pa)).mayPrefetch sl pa = true → (s.slice sl).cache = [] →
      ∃ l, kfind (pa / 512) (t.slice sl).cache = some l ∧ l.valid = BitVec.allOnes 512 ∧ l.dirty = 0 ∧
        l.bytes 0 512 = readBytes s.mem (pa / 512 * 512) 512)

/-- R132, R133, R228: an SC operation is accepted into its window: an SC load or store waits, another retires. The close of the window
sends an end marker to every home slice of every partition, and the last marker has the operation applied. -/
def Claims.SequentialWindows : Prop :=
  (∀ (id : Nat) (ans : Answer) (r : Req) (sl pa : Nat) (leaf : Word) (op : Nat) (ty : AmTyp) (v cmp : Word) (vt : Bool)
    (d : BitVec 5) (key : BitVec 64) (s : State),
    AtSlice (s.done (.acceptance id noAnswer)) id r sl pa leaf → s.reqs = [(id, r)] → (∀ q, (s.slice q).marks = []) →
    r.op = .atomic op ty .sc v cmp vt d key →
    ∃ t, exec (.acceptance id ans) s = .next t ∧ t.req id = some { r with stage := .inWindow key.toNat pa leaf } ∧ BytesSame s t ∧
      if op = opLoad ∨ op = opStore then ∀ b, t.thread b = s.thread b
      else RetiresAs s t r.who [] ∧ (d ≠ 0 → (t.thread r.who).pend.getLsbD d.toNat = true)) ∧
  (∀ (w : Nat) (s : State), ∃ t, exec (.scWindowClose w) s = .next t ∧ t.mem = s.mem ∧ (∀ b, t.thread b = s.thread b) ∧
    if w ∈ s.scOpen ∧ w < s.tick / 64 then
      t.scOpen = sdel w s.scOpen ∧ ∀ p ∈ s.parts, ∀ sl ∈ p.2.homes, .endMarker sl s.dev w ∈ t.due
    else t = s.done (.scWindowClose w)) ∧
  ∀ (w id : Nat) (r : Req) (sl pa : Nat) (leaf : Word) (op : Nat) (ty : AmTyp) (v cmp : Word) (vt : Bool)
    (d : BitVec 5) (key : BitVec 64) (s : State),
    .endMarker sl s.dev w ∈ s.due → s.domain = [] → s.reqs = [(id, r)] → r.who.ours → NoneParked s r.who →
    r.stage = .inWindow w pa leaf → s.whereIs r.va = .here → s.home r.ctx r.va = some sl → (s.slice sl).cache = [] →
    pa % amBytes ty = 0 → pa / 64 ∉ s.memP → r.op = .atomic op ty .sc v cmp vt d key → atomicOk op ty = true →
    let old := ofBytes (readBytes s.mem pa (amBytes ty))
    ∃ t, exec (.endMarker sl s.dev w) s = .next t ∧
      t.sliceBytes sl pa (amBytes ty) (leafDir leaf) = toBytes (amBytes ty) (atomicNext op ty old v cmp) ∧ t.req id = none ∧
      (t.thread r.who).holds d (extended (amSigned ty) (amBytes ty) old) (decide (pa / 32 ∈ s.memT)) ∧
      (s.thread r.who).keepsX (t.thread r.who) [d] ∧ (∀ b, b ≠ r.who → t.thread b = s.thread b) ∧
      (t.thread r.who).pc = (s.thread r.who).pc + (if op = opLoad ∨ op = opStore then 4 else 0)

/-- R86: a request that found the waiter store full is sent again, and its acceptance is due. -/
def Claims.RefusedRequestsAreSentAgain : Prop :=
  ∀ (id : Nat) (r : Req) (b : Bool) (s : State), .refusedRequestResend id ∈ s.due → s.req id = some r → r.stage = .refusedFull b →
    ∃ t, exec (.refusedRequestResend id) s = .next t ∧ (t.req id).map (·.stage) = some .sent ∧ .acceptance id noAnswer ∈ t.due ∧
      (∀ b, t.thread b = s.thread b) ∧ MemorySame s t

/-- R77: a wait of a tile task's slot that has outlasted felim faults with WAITLIMIT at the address waited for. -/
def Claims.WaitLimits : Prop :=
  ∀ (f n : Nat) (p : Park) (s : State), (s.slot f n).park = some p → p.kind.limited = true → p.req = none → (s.slot f n).felim ≠ 0 →
    (s.slot f n).felim.toNat < p.elapsed → (∀ m ∈ s.merges, m.2.full = false) → (∃ c q o b, (s.slot f n).job = .task c q o b) →
    ∃ t, exec (.waitLimit (.slot f n)) s = .next t ∧ SlotFaults s t f n cWAITLIMIT p.addr 0

/-- R87, R126 to R129: what becomes of a request at its home slice. The model's choices in it are those of log 51. -/
def Obligations.RequestsAtTheirHomeSlice : Prop :=
  Claims.AcceptedLoads ∧ Claims.ReturnedLoads ∧ Claims.AcceptedStores ∧ Claims.RefusedRequestsAreSentAgain ∧ Claims.WaitLimits ∧
    Claims.WriteBacks ∧ Claims.Prefetches

/-- R112 to R118, R132, R133, R238 to R240, R304: what atomics of every form and JOIN do at their home slice.
The model's choices in it are those of log 34. -/
def Obligations.AtomicsAtTheirHomeSlice : Prop :=
  Claims.AcceptedAtomics ∧ Claims.AppliedAtomics ∧ Claims.Joins ∧ Claims.HeldDeterministicAtomics ∧ Claims.ClosedBatches ∧
    Claims.ReductionLines ∧ Claims.SequentialWindows

/-! Versions. -/

/-- R85, R90, R91, R243, R244: VSTORE and VOPEN create their version when they are accepted: an OPEN entry of the tile's size with a
frame, owned by the slot; VSTORE's holds the bytes and taint of local store, and its seal is due. -/
def Claims.Creations : Prop :=
  ∀ (id : Nat) (ans : Answer) (r : Req) (sl f n size ver la lb lsize quota : Nat) (whole pool : Bool) (s : State),
    AtTile (s.done (.acceptance id noAnswer)) id r sl f n size → r.op = .create whole ver la lb lsize quota 0 →
    (whole = true → lb ≤ la ∧ la + size ≤ lb + lsize) → s.pair sl r ver = none → (s.slice sl).created r.ctx < quota →
    (s.slice sl).noCreate = false → (s.slice sl).versions.length < 8192 → (s.slice sl).frameFor size = some pool →
    (pool = false → (s.slice sl).movesArea = false ∧ s.areaAllows sl = true) →
    ∃ t e, exec (.acceptance id ans) s = .next t ∧ RetiresAs s t r.who [] ∧ t.pair sl r ver = some e ∧ e.st = .opened ∧ e.size = size ∧
      e.pool = pool ∧ e.owner = some r.who ∧ e.count = 0 ∧
      if whole = true then
        e.bytes = (s.facet f).lsBytes la size ∧ e.taint = (s.facet f).sectorTaint la size ∧
          .seal sl (r.ctx * 2 ^ 52 + localVa r.va) ver ∈ t.due
      else t.req id = none ∧ t.cntOf r.who = (s.cntOf r.who).subVg

/-- R90, R243: what a creation faults with at its home slice: LSRANGE for bytes outside the allocation, WRITE_ONCE where the pair
exists. -/
def Claims.CreationFaults : Prop :=
  ∀ (id : Nat) (ans : Answer) (r : Req) (sl f n size ver la lb lsize quota : Nat) (whole : Bool) (s : State),
    AtTile (s.done (.acceptance id noAnswer)) id r sl f n size → r.op = .create whole ver la lb lsize quota 0 →
    let outside := la < lb ∨ lb + lsize < la + size
    ∃ t, exec (.acceptance id ans) s = .next t ∧
      (whole = true → outside → Halts s t f n { cause := cLSRANGE, pc := r.pc, addr := r.va }) ∧
      ((whole = true → ¬outside) → ((s.pair sl r ver).map (·.st.created)).getD false = true →
        Halts s t f n { cause := cWRITEONCE, pc := r.pc, addr := r.va })

/-- R90, R244: VPUT of the owner retires, its bytes are written into the OPEN frame, and the notice of its transfer is due, which ends it
(log 51); another thread's faults with ACCESS. VSEAL of the owner retires and its seal is due. -/
def Claims.FillingAndSealing : Prop :=
  (∀ (id : Nat) (ans : Answer) (r : Req) (sl f n ver la len : Nat) (pa : Nat) (leaf : Word) (e : VEntry) (s : State),
    AtHome (s.done (.acceptance id noAnswer)) id r sl pa leaf → r.who = .slot f n → (∃ c q o b, (s.slot f n).job = .task c q o b) →
    r.op = .vput ver la len →
    let size := tileSize leaf
    let off := localVa r.va % size
    len ≤ size → off % len = 0 → (s.slice sl).version r.ctx (localVa r.va / size * size) ver = some e → e.st = .opened →
    ∃ t, exec (.acceptance id ans) s = .next t ∧
      if e.owner = some r.who then
        RetiresAs s t r.who [] ∧ .versionArrivalNotice id noAnswer ∈ t.due ∧ (t.req id).map (·.stage) = some .returning ∧
          ((t.slice sl).version r.ctx (localVa r.va / size * size) ver).map (·.bytes) =
            some (e.bytes.take off ++ (s.facet f).lsBytes la len ++ e.bytes.drop (off + len))
      else Halts s t f n { cause := cACCESS, pc := r.pc, addr := r.va }) ∧
  ∀ (id : Nat) (ans : Answer) (r : Req) (sl f n size ver : Nat) (e : VEntry) (s : State),
    AtTile (s.done (.acceptance id noAnswer)) id r sl f n size → r.op = .vseal ver → s.pair sl r ver = some e → e.st = .opened →
    ∃ t, exec (.acceptance id ans) s = .next t ∧
      if e.owner = some r.who then
        RetiresAs s t r.who [] ∧ .seal sl (r.ctx * 2 ^ 52 + localVa r.va) ver ∈ t.due ∧
          t.req id = some { r with stage := .returning } ∧ t.pair sl r ver = some e
      else Halts s t f n { cause := cACCESS, pc := r.pc, addr := r.va }

/-- R90, R92, R93, R244: the seal makes an OPEN version SEALED without owner; a VGET that waits for it takes its transient hold and its
notice is due. -/
def Claims.Seals : Prop :=
  ∀ (sl c tile ver : Nat) (e : VEntry) (s : State), .seal sl (c * 2 ^ 52 + tile) ver ∈ s.due → tile < 2 ^ 52 →
    (s.slice sl).version c tile ver = some e → e.st = .opened →
    ∃ t, exec (.seal sl (c * 2 ^ 52 + tile) ver) s = .next t ∧
      (e.waiters = [] → ¬(e.count = 0 ∧ e.superseded = true) →
        (t.slice sl).version c tile ver = some { e with st := .sealed, owner := none }) ∧
      ∀ id r v la lb lsize, e.waiters = [id] → e.count < 65535 → s.req id = some r → r.op = .vget v la lb lsize →
        (t.slice sl).version c tile ver = some { e with st := .sealed, owner := none, waiters := [], count := e.count + 1,
                                                        peers := ((t.slice sl).version c tile ver).elim [] (·.peers) } ∧
          .versionArrivalNotice id noAnswer ∈ t.due ∧ (t.req id).map (·.stage) = some .returning

/-- R92, R245: VGET and VRETAIN of a SEALED version retire when they are accepted, with a hold counted, and their notice is due; VRETAIN's
is a hold of the task. -/
def Claims.ReadersTakeHolds : Prop :=
  ∀ (id : Nat) (ans : Answer) (r : Req) (sl f n size ver : Nat) (e : VEntry) (s : State),
    AtTile (s.done (.acceptance id noAnswer)) id r sl f n size → s.pair sl r ver = some e → e.st = .sealed → e.count < 65535 →
    s.heldLost r.who (s.canon r.va) ver = false →
    let taken := fun (t : State) =>
      RetiresAs s t r.who [] ∧ .versionArrivalNotice id noAnswer ∈ t.due ∧ t.req id = some { r with stage := .returning } ∧
        (t.pair sl r ver).map (·.count) = some (e.count + 1)
    ∃ t, exec (.acceptance id ans) s = .next t ∧
      (∀ la lb lsize, r.op = .vget ver la lb lsize → lb ≤ la → la + size ≤ lb + lsize →
        taken t ∧ (t.slot f n).holds = (s.slot f n).holds) ∧
      (r.op = .vretain ver → taken t ∧ (t.slot f n).holds = (s.slot f n).holds ++ [(s.canon r.va, ver, true)])

/-- R92, R93, R176, R244: the notice of a VPUT has it leave the VG count. The notice of a VGET writes the version's bytes to local store with
the taint of their sectors, ends its hold, and
it leaves the VG count, where no older load of its slot is awaited (R139). -/
def Claims.NoticesDeliver : Prop :=
  (∀ (id : Nat) (ans : Answer) (r : Req) (f n ver la len : Nat) (s : State),
    s.req id = some r → r.who = .slot f n → NoneParked s r.who → r.stage = .returning → r.op = .vput ver la len → s.whereIs r.va = .here →
    ∃ t, exec (.versionArrivalNotice id ans) s = .next t ∧ t.req id = none ∧ t.cntOf r.who = (s.cntOf r.who).subVg ∧ BytesSame s t ∧
      ∀ b, t.thread b = s.thread b) ∧
  ∀ (id : Nat) (ans : Answer) (r : Req) (sl f n ver la lb lsize : Nat) (e : VEntry) (s : State),
    s.req id = some r → r.who = .slot f n → NoneParked s r.who → r.stage = .returning → r.op = .vget ver la lb lsize →
    s.whereIs r.va = .here → s.home r.ctx r.va = some sl → s.pair sl r ver = some e → e.st = .sealed → e.poison = [] → e.waiters = [] →
    1 < e.count → la % 64 = 0 → e.bytes.length % 32 = 0 → s.olderLoad r.who id = false →
    ∃ t, exec (.versionArrivalNotice id ans) s = .next t ∧ LocalBytes s t f la e.bytes ∧
      (∀ i, la ≤ 4 * i → 4 * i < la + e.bytes.length → ((t.facet f).word i).taint = (e.taint[(4 * i - la) / 32]?).getD false) ∧
      t.req id = none ∧ t.cntOf r.who = (s.cntOf r.who).subVg ∧ (t.pair sl r ver).map (·.count) = some (e.count - 1) ∧
      (∀ b, t.thread b = s.thread b)

/-- R90, R92, R96, R245, R246: VRELEASE ends a hold of its task; VDROP frees a version without holds and makes one with holds DROPPING;
VQUERY reads state, Superseded and count. -/
def Claims.HoldsEnd : Prop :=
  ∀ (id : Nat) (ans : Answer) (r : Req) (sl f n size ver : Nat) (e : VEntry) (s : State),
    AtTile (s.done (.acceptance id noAnswer)) id r sl f n size → s.pair sl r ver = some e → e.waiters = [] → e.st = .sealed →
    s.heldLost r.who (s.canon r.va) ver = false → (s.slice sl).quota = [] → (∀ x ∈ s.reqs, x.2.stage ≠ .returning) →
    let gone := fun (t : State) => t.req id = none ∧ t.cntOf r.who = (s.cntOf r.who).subVg
    ∃ t, exec (.acceptance id ans) s = .next t ∧
      (r.op = .vrelease ver → (s.canon r.va, ver, true) ∈ (s.slot f n).holds → 1 < e.count →
        RetiresAs s t r.who [] ∧ gone t ∧ (t.slot f n).holds = (s.slot f n).holds.erase (s.canon r.va, ver, true) ∧
          (t.pair sl r ver).map (·.count) = some (e.count - 1)) ∧
      (r.op = .vrelease ver → (s.canon r.va, ver, true) ∉ (s.slot f n).holds →
        Halts s t f n { cause := cACCESS, pc := r.pc, addr := r.va }) ∧
      (r.op = .vdrop ver →
        RetiresAs s t r.who [] ∧ gone t ∧
          (if e.count = 0 then t.pair sl r ver = none else (t.pair sl r ver).map (·.st) = some .dropping)) ∧
      ∀ d, r.op = .vquery ver d →
        RetiresAs s t r.who [d] ∧ gone t ∧
          (t.thread r.who).holds d (BitVec.ofNat 64 (3 + (if e.superseded then 8 else 0) + e.count * 65536)) false

/-- R95: a supersede notice sets Superseded in every entry of its range with an older version, frees the SEALED ones without holds, and
leaves every other entry. -/
def Claims.SupersedeNotices : Prop :=
  ∀ (sl c base len v : Nat) (s : State), .supersedeNotice sl c base len v ∈ s.due →
    ((s.slice sl).versions.map fun e => (e.ctx, e.tile, e.ver)).Nodup → (∀ e ∈ (s.slice sl).versions, e.waiters = []) →
    (s.slice sl).quota = [] →
    let hit := fun (e : VEntry) => e.ctx = c ∧ base ≤ e.tile ∧ e.tile < base + len ∧
      1 ≤ (v + 2 ^ 32 - e.ver) % 2 ^ 32 ∧ (v + 2 ^ 32 - e.ver) % 2 ^ 32 < 2 ^ 31
    ∃ t, exec (.supersedeNotice sl c base len v) s = .next t ∧
      (∀ e ∈ (t.slice sl).versions, hit e → e.superseded = true ∧ (e.st = .sealed → e.count ≠ 0)) ∧
      (∀ e ∈ (s.slice sl).versions, ¬hit e → e ∈ (t.slice sl).versions) ∧
      (∀ e ∈ (s.slice sl).versions, hit e → e.count ≠ 0 → { e with superseded := true } ∈ (t.slice sl).versions) ∧
      ∀ b, t.thread b = s.thread b

/-- R88 to R96, R242 to R246: versions from their creation to their end. The model's choices in it are those of logs 24 and 51. -/
def Obligations.Versions : Prop :=
  Claims.Creations ∧ Claims.CreationFaults ∧ Claims.FillingAndSealing ∧ Claims.Seals ∧ Claims.ReadersTakeHolds ∧ Claims.NoticesDeliver ∧
    Claims.HoldsEnd ∧ Claims.SupersedeNotices

/-! Copies. -/

/-- R99, R248, R250: CPG, CPL and CPM: what they fault with, in order; otherwise the copy is issued: it takes its scoreboard entry, its
first piece is due, and the instruction retires. -/
def Claims.CopiesAreIssued : Prop :=
  ∀ (i : Instr) (b a d : BitVec 5) (out multi : Bool) (f n : Nat) (s : State), copyCase i = some (b, a, d, out, multi) →
    Idle s f n → (s.facet f).dirtied = [] → Ready s { core := false, handler := false, reads := [a, b, d] } →
    let x := s.thread s.turn
    let ga := x.rx a
    let la := x.rx d
    let len := (x.rx b).toNat
    ∃ t, exec i s = .next t ∧
      if ga.toNat % 4 ≠ 0 then Faults s t cALIGN ga 0
      else if la.toNat % 4 ≠ 0 then Faults s t cALIGN la 0
      else if len % 4 ≠ 0 then ∃ va ∈ [ga, la, x.rx b], Faults s t cALIGN va 0
      else if 262144 < len ∨ (s.slot f n).holdsRange la.toNat len = false then Faults s t cLSRANGE la 0
      else if 2 ^ 64 < ga.toNat + len then Faults s t cNOMAP ga 0
      else Issued s t f n ga la len out multi

/-- R104, R105, R250: a CPM of a facet that its mask's window holds opens a stream at the home slice of its address: started where the mask
names that facet alone, otherwise its merge window closes 64 ticks later. -/
def Claims.MulticastsOpenStreams : Prop :=
  ∀ (b a d : BitVec 5) (f n sl : Nat) (s : State), Idle s f n → (s.facet f).dirtied = [] →
    Ready s { core := false, handler := false, reads := [a, b, d] } →
    let x := s.slot f n
    let ga := x.th.rx a
    let la := x.th.rx d
    let len := (x.th.rx b).toNat
    ga.toNat % 4 = 0 → la.toNat % 4 = 0 → len % 4 = 0 → 0 < len → len ≤ 262144 → x.holdsRange la.toNat len = true →
    ga.toNat + len ≤ 2 ^ 64 → x.mcb.toNat ≤ f → f < x.mcb.toNat + 64 → s.whereIs ga = .here → s.home x.owner.get!.1 ga = some sl →
    (s.slice sl).mc = [] →
    let alone := (List.range 64).all fun i => !x.mcm.getLsbD i || x.mcb.toNat + i == f
    ∃ t, exec (.cpm b a d) s = .next t ∧
      (t.slice sl).mc = [{ id := s.nextId, ctx := x.owner.get!.1, base := ga, len := len, mcb := x.mcb, mcm := x.mcm, copies := [s.nextId],
                           started := alone }] ∧
      (alone = false → (s.tick + 64, .mergeWindowClose sl s.nextId) ∈ t.later)

/-- R99, R100: a piece of a copy moves up to 64 KiB: to local store the bytes that the home slice holds, or to the home slice the bytes of
local store; the copy is finished where that was the last. -/
def Claims.CopyPieces : Prop :=
  ∀ (id : Nat) (ans : Answer) (c : Copy) (sl pa n : Nat) (leaf : Word) (s : State), Moves (s.done (.copyPiece id noAnswer)) id c sl pa n leaf →
    ∃ t, exec (.copyPiece id ans) s = .next t ∧ (∀ b, t.thread b = s.thread b) ∧
      (kfind id t.copies).map (fun k => (k.done, k.finished)) = some (c.done + n, decide (c.stop ≤ c.done + n)) ∧
      (c.toGlobal = false → LocalBytes s t c.f (c.la + c.done) (readBytes s.mem pa n) ∧ t.mem = s.mem ∧
        (pa % 4 = 0 → (c.la + c.done) % 4 = 0 →
          ∀ i, 4 * i + 4 ≤ n → ((t.facet c.f).word ((c.la + c.done) / 4 + i)).taint = decide ((pa + 4 * i) / 32 ∈ s.memT))) ∧
      (c.toGlobal = true → (t.facet c.f).ls = (s.facet c.f).ls ∧
        ∀ i, i < n → t.sliceBytes sl (pa + i) 1 (leafDir leaf) = (s.facet c.f).lsBytes (c.la + c.done + i) 1)

/-- R102, R103, R248, R251: a finished copy that no older one of its slot precedes gives up its scoreboard entry and reports to its target:
the CP count, a message to its own slot, or an arrival of its bytes at a byte barrier. -/
def Claims.CopyCompletions : Prop :=
  ∀ (id : Nat) (c : Copy) (s : State), kfind id s.copies = some c → c.finished = true → c.f < 2048 → c.n < 16 →
    (∀ e ∈ s.copies, e.1 ≠ id → e.2.f ≠ c.f ∨ e.2.n ≠ c.n) → (s.facet c.f).parked = [] →
    let total := c.total.getD c.done
    ∃ t, exec (.copyCompletion id) s = .next t ∧ kfind id t.copies = none ∧ (∀ e ∈ (t.facet c.f).sb, e.op ≠ id) ∧
      (∀ b, t.thread b = s.thread b) ∧ t.mem = s.mem ∧
      (c.cpt.extractLsb' 0 2 = 0 → t.cntOf (.slot c.f c.n) = (s.cntOf (.slot c.f c.n)).subCp ∧
        (t.slot c.f c.n).late = (match c.cause with
          | some x => addLate { cause := x, pc := c.pc, addr := (c.ga + BitVec.ofNat 64 total) &&& ~~~63#64, info := BitVec.ofNat 64 total,
                                no := id, cyc := (s.facet c.f).cyc } (s.slot c.f c.n).late
          | none => (s.slot c.f c.n).late)) ∧
      (c.cpt.extractLsb' 0 2 = 1 → ∃ w, kfind id t.flights = some w ∧ w.target = s.tid c.f c.n ∧
        w.msg.pay = 0#32 ++ BitVec.ofNat 32 c.la ++ BitVec.ofNat 32 ((c.cause.map (·.toNat)).getD 0) ++ BitVec.ofNat 32 total ∧
        w.msg.tag = c.cpt.extractLsb' 8 8 ∧ .messageDelivery id noAnswer ∈ t.due) ∧
      (c.cpt.extractLsb' 0 2 = 2 →
        let la := 8 * (c.cpt.extractLsb' 16 15).toNat
        Arrived ((s.facet c.f).barrier la) ((t.facet c.f).barrier la) total)

/-- R105: the close of the merge window of a multicast starts its stream. -/
def Claims.MergeWindowsClose : Prop :=
  ∀ (sl id : Nat) (m : McStream) (s : State), .mergeWindowClose sl id ∈ s.due → (s.slice sl).mc.find? (·.id == id) = some m →
    ∃ t, exec (.mergeWindowClose sl id) s = .next t ∧ (t.slice sl).mc.find? (·.id == id) = some { m with started := true } ∧
      (∀ b, t.thread b = s.thread b) ∧ t.mem = s.mem ∧ t.copies = s.copies

/-- R99 to R106, R248 to R251: copies from their issue to their completion. The model's choices in it are those of log 51. -/
def Obligations.Copies : Prop :=
  Claims.CopiesAreIssued ∧ Claims.MulticastsOpenStreams ∧ Claims.CopyPieces ∧ Claims.CopyCompletions ∧ Claims.MergeWindowsClose

/-! Messages and handlers. -/

/-- R310, R311: MSEND and AMSG: what they fault with; otherwise the message is on its way with its payload, tag and taint, and the
instruction retires. -/
def Claims.MessagesAreSent : Prop :=
  ∀ (b a d : BitVec 5) (user : Bool) (f n : Nat) (s : State), Idle s f n →
    Ready s { core := false, reads := [a, a + 1, b] ++ (if user then [d] else []) } →
    let x := s.thread s.turn
    let word := x.rx b
    let tid := word.toNat % 2 ^ 27
    let target := if user then tid / 16 * 16 + 15 else tid
    let h := if user then x.rx d else 0
    ∃ t, exec (if user then .amsg b a d else .msend b a) s = .next t ∧
      if s.deviceKnown tid = false then Faults s t cNOMAP word 0
      else if user = false ∧ tid % 16 = 15 then Faults s t cACCESS word 0
      else if user = true ∧ h.toNat % 4 ≠ 0 then Faults s t cALIGN h 0
      else
        let m := messageOf s f n a word h
        Launched s t { who := .slot f n, ctx := m.ctx, seq := m.seq, pc := x.pc, word := word, target := target, user := user, msg := m } ∧
          (t.slot f n).cnt = (s.slot f n).cnt.addSt ∧ Retired s t [] ∧ BytesSame s t ∧ OthersSame s t

/-- R312: MRECV gives the oldest message of the slot: its payload with its taint, or tainted where entries of several senders wait and the
entry is not deterministic, its tag and a valid bit; MSRC names the sender. An empty mailbox gives 0. -/
def Claims.MessagesAreReceived : Prop :=
  ∀ (a d : BitVec 5) (f n : Nat) (s : State), s.turn = .slot f n → (∃ c q o b, (s.slot f n).job = .task c q o b) →
    Ready s { core := false, handler := false, writes := [d, d + 1, a] } →
    let x := s.slot f n
    ∃ t, exec (.mrecv a d) s = .next t ∧
      if d = a ∨ d + 1 = a then Faults s t cILLEGAL 0 0
      else (x.mbox = [] → WritesX s t a 0 false) ∧
        ∀ m rest, x.mbox = m :: rest → x.spill = [] →
          let race := !(x.owner.map fun o => s.isDet o.1 o.2).getD false && rest.any fun y => y.src != m.src
          let y := (t.slot f n).th
          y.holds d (m.pay.extractLsb' 0 64) (race || m.tnt.extractLsb' 0 2 != 0) ∧
            y.holds (d + 1) (m.pay.extractLsb' 64 64) (race || m.tnt.extractLsb' 2 2 != 0) ∧
            y.holds a (256#64 + m.tag.setWidth 64) false ∧ Retired s t [d, d + 1, a] ∧ (t.slot f n).mbox = rest ∧
            (t.slot f n).msrc = m.src ∧ (t.slot f n).msrcT = race ∧ MemorySame s t ∧ OthersSame s t

/-- R313: WAITMSG gives the number of entries of the mailbox, or parks while there is none. -/
def Claims.WaitingForMessages : Prop :=
  ∀ (d : BitVec 5) (f n : Nat) (s : State), s.turn = .slot f n → Ready s { core := false, handler := false, writes := [d] } →
    let x := s.slot f n
    ∃ t, exec (.waitmsg d) s = .next t ∧
      if x.mbox = [] then
        (t.slot f n).th = x.th ∧ (t.slot f n).park.map (fun p => (p.kind, p.fe.map (·.d))) = some (.waitmsg, some d) ∧ OthersSame s t ∧ MemorySame s t
      else WritesX s t d (BitVec.ofNat 64 x.mbox.length) false

/-- R308, R309, R311: a message that reaches its mailbox enters it, or its spill queue where the mailbox is full, at the lowest free entry in
memory (log 65); it is discarded with a late ACCESS report to its sender where the target holds
no task of the context, or is refused where mailbox and spill queue are full and comes again 64 ticks later. -/
def Claims.MessagesArrive : Prop :=
  (∀ (id : Nat) (ans : Answer) (w : Flight) (f n : Nat) (s : State), Arriving s id w f n →
    ∃ t, exec (.messageDelivery id ans) s = .next t ∧ Arrival s t id w f n) ∧
  ∀ (id : Nat) (w : Flight) (f n : Nat) (s : State), Arriving s id w f n → w.refused = true →
    ∃ t, exec (.messageResend id) s = .next t ∧ Arrival s t id w f n

/-- R314: slot 15 starts the user handler of the oldest entry of its mailbox: at its address, with the payload in x5 and x6 and the tag in
x7, every other register 0. -/
def Claims.HandlersStart : Prop :=
  ∀ (f : Nat) (m : Msg) (rest : List Msg) (s : State),
    let x := s.slot f 15
    x.job = .vacant → x.trap = none → x.mbox = m :: rest → x.spill = [] → m.op = none →
    let race := !s.isDet m.ctx m.seq && rest.any fun y => y.src != m.src
    ∃ t, exec (.handlerStart f) s = .next t ∧ (t.slot f 15).job = .handler m.ctx m.seq m.id ∧ (t.slot f 15).mbox = rest ∧
      (t.slot f 15).msrc = m.src ∧ (t.slot f 15).th.pc = m.hnd ∧ (t.slot f 15).candidate (s.facet f).cyc = true ∧
      (t.slot f 15).th.holds 5 (m.pay.extractLsb' 0 64) (race || m.tnt.extractLsb' 0 2 != 0) ∧
      (t.slot f 15).th.holds 6 (m.pay.extractLsb' 64 64) (race || m.tnt.extractLsb' 2 2 != 0) ∧
      (t.slot f 15).th.holds 7 (m.tag.setWidth 64) false ∧ (∀ r, r ∉ [5, 6, 7] → (t.slot f 15).th.rx r = 0) ∧
      (∀ b, b ≠ .slot f 15 → t.thread b = s.thread b) ∧ MemorySame s t

/-- R308 to R315: messages and the handlers that they start. The model's choices in it are those of log 65. -/
def Obligations.MessagesAndHandlers : Prop :=
  Claims.MessagesAreSent ∧ Claims.MessagesAreReceived ∧ Claims.WaitingForMessages ∧ Claims.MessagesArrive ∧ Claims.HandlersStart

/-! Remote operations. -/

/-- R252, R253: a remote operation: ALIGN and NOMAP; otherwise it is on its way to slot 15 of the owner's facet, joins its count, and its
slot waits with its registers unchanged. -/
def Claims.RemoteOperationsAreSent : Prop :=
  ∀ (i : Instr) (rs ws : List (BitVec 5)) (a : BitVec 5) (op : Thread → BuiltOp) (f n : Nat) (s : State),
    remoteCase i = some (rs, ws, a, op) → i.wf = true → Idle s f n → Ready s { core := false, handler := false, reads := rs, writes := ws } →
    let x := s.slot f n
    let word := x.th.rx a
    let o := op x.th
    let ba := word.toNat / 2 ^ 32 % 2 ^ 21
    let tid := word.toNat % 2 ^ 27
    ∃ t, exec i s = .next t ∧
      if o.aligned ba = false then Faults s t cALIGN word 0
      else if s.deviceKnown tid = false then Faults s t cNOMAP word 0
      else
        let own := x.owner.getD (0, 0)
        let m : Msg := { src := BitVec.ofNat 28 (s.tid f n), ctx := own.1, seq := own.2, op := some (o, ba) }
        Launched s t { who := .slot f n, ctx := own.1, seq := own.2, pc := x.th.pc, word := word, target := tid / 16 * 16 + 15, user := false,
                       msg := m } ∧
          (t.slot f n).cnt = o.joins x.cnt ∧ (t.slot f n).th = x.th ∧
          (t.slot f n).park.map (fun p => (p.kind, p.addr, p.req)) = some (.accept, word, some s.nextId) ∧ OthersSame s t ∧ BytesSame s t

/-- R107, R253: slot 15 performs a built-in operation in one step: the new bytes of local store, and the reply on its way to the sender. -/
def Claims.BuiltInOperations : Prop :=
  ∀ (f ba : Nat) (m : Msg) (rest : List Msg) (o : BuiltOp) (w : Flight) (s : State), Serves s f m rest o ba w → (s.facet f).lsOld = [] →
    let la := BuiltOp.first ba
    let x := s.facet f
    ∃ t, exec (.builtInOperation f) s = .next t ∧ (t.slot f 15).mbox = rest ∧
      (∀ ty d, o = .load ty d → Answered s t m.id w (.ok (x.lsValue la (ldBytes ty)) (x.lsTaint la (ldBytes ty))) ∧ (t.facet f).ls = x.ls) ∧
      (∀ n v taint, o = .store n v taint → Answered s t m.id w (.ok 0 false) ∧ LocalBytes s t f la (toBytes n v.toNat)) ∧
      (∀ n v taint, o = .fullEmpty n v taint → la % 4 = 0 → x.allAre la n true →
        Answered s t m.id w (.ok 0 false) ∧ LocalBytes s t f la (toBytes n v.toNat) ∧ (t.facet f).allAre la n false) ∧
      (∀ op ty v vt d, o = .amo op ty v vt d → op ∈ [opSwap, opAdd, opMin, opMax, opAnd, opOr, opXor] →
        let old := x.lsValue la (rmBytes ty)
        Answered s t m.id w (.ok old (x.lsTaint la (rmBytes ty))) ∧
          LocalBytes s t f la (toBytes (rmBytes ty) (remoteNext op ty old v.toNat))) ∧
      (∀ l v taint, o = .bits l v taint → 0 < l → l ≤ 32 → Answered s t m.id w (.ok 0 false) ∧
        ∀ j, (t.facet f).lsBit j = if ba ≤ j ∧ j < ba + l then v.getLsbD (j - ba) else x.lsBit j) ∧
      ∀ c taint, o = .arrive c taint → Answered s t m.id w (.ok 0 false) ∧ Arrived (x.barrier la) ((t.facet f).barrier la) c

/-- R252, R253: the reply of a remote operation reaches its sender: its instruction retires, X[d] of a load or an atomic holding the old
value; or it faults; or, where an RSTF found its word full, it waits and is sent again 64 ticks later (R108). -/
def Claims.RepliesArrive : Prop :=
  ∀ (id g k : Nat) (ans : Answer) (o : BuiltOp) (r : Reply) (w : Flight) (s : State), ReplyHere s id w o r g k →
    ∃ t, exec (.messageDelivery id ans) s = .next t ∧
      (∀ v taint ty d, r = .ok v taint → o = .load ty d → v < 2 ^ (8 * ldBytes ty) →
        Replied s t g k id o [d] ∧ (t.slot g k).th.holds d (extended (ldSigned ty) (ldBytes ty) v) taint) ∧
      (∀ v taint op ty u ut d, r = .ok v taint → o = .amo op ty u ut d → v < 2 ^ (8 * rmBytes ty) →
        Replied s t g k id o [d] ∧ (t.slot g k).th.holds d (extended (rmSigned ty) (rmBytes ty) v) taint) ∧
      (∀ v taint, r = .ok v taint → (∀ ty d, o ≠ .load ty d) → (∀ op ty u ut d, o ≠ .amo op ty u ut d) → Replied s t g k id o []) ∧
      (∀ cause, r = .fault cause → kfind id t.flights = none ∧ Halts s t g k { cause := cause, pc := w.pc, addr := w.word }) ∧
      (r = .full → (t.slot g k).th = (s.slot g k).th ∧ (t.slot g k).park.map (fun p => (p.kind, p.req)) = some (.resend, some id) ∧
        (s.tick + 64, .rstfResend g k) ∈ t.later ∧ (kfind id t.flights).isSome = true)

/-- R108, R109: a built-in operation outside the allocations of its context's tasks is answered with LSRANGE; an RSTF that finds a word
full changes nothing there and is answered so; its sender sends it again. -/
def Claims.BuiltInOperationsTurnedAway : Prop :=
  (∀ (f ba : Nat) (m : Msg) (rest : List Msg) (o : BuiltOp) (w : Flight) (s : State),
    let x := s.slot f 15
    x.job = .vacant → x.trap = none → x.mbox = m :: rest → x.spill = [] → m.op = some (o, ba) →
    (s.facet f).residentRange m.ctx (BuiltOp.first ba) (o.length ba) = false → kfind m.id s.flights = some w →
    ∃ t, exec (.builtInOperation f) s = .next t ∧ (t.facet f).ls = (s.facet f).ls ∧ Answered s t m.id w (.fault cLSRANGE)) ∧
  (∀ (f ba n : Nat) (m : Msg) (rest : List Msg) (v : Word) (taint : Bool) (w : Flight) (s : State),
    Serves s f m rest (.fullEmpty n v taint) ba w → ¬(s.facet f).allAre (BuiltOp.first ba) n true →
    ∃ t, exec (.builtInOperation f) s = .next t ∧ (t.facet f).ls = (s.facet f).ls ∧ Answered s t m.id w .full) ∧
  ∀ (f n id : Nat) (p : Park) (w : Flight) (s : State), .rstfResend f n ∈ s.due → (s.slot f n).park = some p → p.kind = .resend →
    p.req = some id → kfind id s.flights = some w → tidDevice w.target = s.dev →
    ∃ t, exec (.rstfResend f n) s = .next t ∧ .messageDelivery id noAnswer ∈ t.due ∧ (∀ b, t.thread b = s.thread b) ∧ MemorySame s t

/-- R107 to R109, R252, R253: remote operations on local store. -/
def Obligations.RemoteOperations : Prop :=
  Claims.RemoteOperationsAreSent ∧ Claims.BuiltInOperations ∧ Claims.RepliesArrive ∧ Claims.BuiltInOperationsTurnedAway

/-! Tile tasks. -/

/-- R54, R56, R59, R373: the only free slot of a prism asks for work. It takes the lowest ordinal of the upper half of the only interval of
its entry and keeps the rest of that half; where the entry has a queued continuation it takes that. -/
def Claims.SlotsTakeWork : Prop :=
  (∀ (p i n c lo hi : Nat) (e : Entry) (s : State), .askForWork p ∈ s.due → Offered s p i n c e →
    (s.prism p).conts = [] → (s.prism p).ranges = [{ c := c, seq := e.seq, lo := lo, hi := hi }] → lo < hi →
    let f := p * 8 + i
    let m := lo + (hi - lo) / 2
    ∃ t, exec (.askForWork p) s = .next t ∧ Begins s t f n c e m none ∧ (t.slot f n).rem = (if m + 1 < hi then some (m + 1, hi) else none) ∧
      (t.prism p).ranges = (if lo < m then [{ c := c, seq := e.seq, lo := lo, hi := m }] else []) ∧ t.mem = s.mem ∧
      ∀ b, b ≠ .slot f n → t.thread b = s.thread b) ∧
  ∀ (p i n c : Nat) (k : Cont) (e : Entry) (s : State), .askForWork p ∈ s.due → Offered s p i n c e →
    (s.prism p).conts = [k] → (s.prism p).contsWait = [] → k.c = c → k.seq = e.seq →
    let f := p * 8 + i
    ∃ t, exec (.askForWork p) s = .next t ∧ Begins s t f n c e k.ord (some (k.code, k.frame, k.jaddr)) ∧ (t.slot f n).rem = none ∧
      (t.prism p).conts = [] ∧ (t.prism p).ranges = (s.prism p).ranges ∧ t.mem = s.mem ∧ ∀ b, b ≠ .slot f n → t.thread b = s.thread b

/-- R52, R376: the gang that an entry waits for first is admitted where every member has a slot: all its tasks begin in the same step, and
the entry waits for its next gang. -/
def Claims.GangsAreAdmitted : Prop :=
  ∀ (c seq g : Nat) (rest : List Nat) (e : Entry) (plan : List (Nat × Nat × Nat)) (s : State), .gangAdmission c seq g ∈ s.due →
    s.entry c seq = some e → e.state = .issued → e.gangsWaiting = g :: rest → (s.done (.gangAdmission c seq g)).gangPlan c e g = some plan →
    (plan.map fun x => (x.1, x.2.1)).Nodup →
    ∃ t, exec (.gangAdmission c seq g) s = .next t ∧ (t.entry c seq).map (·.gangsWaiting) = some rest ∧
      (∀ f n o, (f, n, o) ∈ plan → (t.slot f n).job = .task c e.seq o false ∧ (t.slot f n).th.pc = e.hdr.entry &&& ~~~3#64 ∧
        (t.slot f n).ord = BitVec.ofNat 48 o ∧
        ∀ r ∈ (t.prism (prismOf f)).ranges, r.c = c → r.seq = seq → ¬(r.lo ≤ o ∧ o < r.hi)) ∧
      (∀ b, (∀ f n o, (f, n, o) ∈ plan → b ≠ .slot f n) → t.thread b = s.thread b) ∧ t.mem = s.mem

/-- R380: a change of the clock pins the prism while it holds FIXT work, and lets it go otherwise, where no slot waits for it to go on. -/
def Claims.ClockPins : Prop :=
  ∀ (p : Nat) (s : State), .clockChange p ∈ s.due → (∀ f n, (s.slot f n).next = none) →
    ∃ t, exec (.clockChange p) s = .next t ∧ t.prism p = { s.prism p with pin := s.holdsFixt p } ∧ (∀ b, t.thread b = s.thread b) ∧
      t.mem = s.mem ∧ t.facets = s.facets

/-- R306, R315: TEND ends the task of a slot that has nothing under way: the slot is vacant, and the entry counts the task; the entry's
completion is due where it was the last. In a handler TEND frees slot 15 and the message leaves its sender's ST count. While operations
are outstanding TEND waits. -/
def Claims.TasksEnd : Prop :=
  (∀ (f n c seq ord : Nat) (cont : Bool) (e : Entry) (s : State), s.turn = .slot f n → (s.slot f n).job = .task c seq ord cont →
    Quiet s f n → (s.slot f n).holds = [] → (s.slot f n).rem = none → s.entry c seq = some e → Ready s { core := false } →
    ∃ t, exec .tend s = .next t ∧ (t.slot f n).job = .vacant ∧ (t.slot f n).mbox = [] ∧ (t.slot f n).park = none ∧
      (t.entry c seq).map (fun x => (x.left, x.conts)) = some (if cont then (e.left, e.conts - 1) else (e.left - 1, e.conts)) ∧
      (e.state = .issued → e.unhanded = false → (if cont then e.left = 0 ∧ e.conts ≤ 1 else e.left ≤ 1 ∧ e.conts = 0) →
        .entryComplete c seq ∈ t.due) ∧
      t.mem = s.mem ∧ ∀ b, b ≠ .slot f n → t.thread b = s.thread b) ∧
  (∀ (f n c seq msg g k : Nat) (w : Flight) (s : State), s.turn = .slot f n → (s.slot f n).job = .handler c seq msg → Quiet s f n →
    kfind msg s.flights = some w → w.who = .slot g k → (g, k) ≠ (f, n) → Ready s { core := false } →
    ∃ t, exec .tend s = .next t ∧ (t.slot f n).job = .vacant ∧ (t.slot f n).mbox = (s.slot f n).mbox ∧ kfind msg t.flights = none ∧
      (t.slot g k).cnt = (s.slot g k).cnt.subSt ∧ t.mem = s.mem ∧ ∀ b, b ≠ .slot f n → t.thread b = s.thread b) ∧
  ∀ (f n : Nat) (s : State), s.turn = .slot f n → (s.slot f n).cnt ≠ {} → Ready s { core := false } →
    ∃ t, exec .tend s = .next t ∧ (t.slot f n).th = (s.slot f n).th ∧ (t.slot f n).job = (s.slot f n).job ∧
      (t.slot f n).park.map (·.kind) = some .tend ∧ t.stalled = some clCOUNT ∧ OthersSame s t ∧ MemorySame s t

/-- R307: YIELD retires; where its facet does not use fixed rotation, the slot is not ready again before its next own turn. -/
def Claims.YieldsGiveTheTurn : Prop :=
  ∀ (f n : Nat) (s : State), s.turn = .slot f n → Ready s { core := false, handler := false } →
    ∃ t, exec .yield s = .next t ∧ MovesPc s t ((s.thread s.turn).pc + 4) ∧
      (t.slot f n).wakeAt = if s.fixedRotation f then (s.slot f n).wakeAt else (s.facet f).cyc + 16

/-- R58, R303: SPAWN queues a continuation of its entry in the prism that holds its task's ordinal, whose record takes a free entry of the
continuation area there, or waits while the area is full; a CODE that is not a multiple of 4 faults. -/
def Claims.TasksSpawn : Prop :=
  ∀ (b a d : BitVec 5) (f n c seq ord p : Nat) (cont : Bool) (e : Entry) (s : State), s.turn = .slot f n →
    (s.slot f n).job = .task c seq ord cont → s.unfinished (.slot f n) = false → (s.prism (prismOf f)).cache = [] →
    s.entry c seq = some e → e.prismOf (s.slot f n).ord.toNat = some p → Ready s { core := false, handler := false, reads := [a, b, d] } →
    let x := s.slot f n
    let k : Cont := { c := c, seq := seq, code := x.th.rx a, frame := x.th.rx b, jaddr := x.th.rx d, ord := x.ord.toNat }
    ∃ t, exec (.spawn b a d) s = .next t ∧
      if (x.th.rx a).toNat % 4 ≠ 0 then Faults s t cALIGN (x.th.rx a) 0
      else if ((s.prism p).conts.filter (·.c == c)).length < (s.ctx c).d.contN then
        Retired s t [] ∧ (t.entry c seq).map (·.conts) = some (e.conts + 1) ∧ OthersSame s t ∧
          ∃ i, (t.prism p).conts = (s.prism p).conts ++ [{ k with at' := i }] ∧
            (∀ q ∈ (s.prism p).conts, q.c = c → q.at' ≠ i) ∧
            let d := (s.ctx c).d
            let at' := d.contB + 32 * (d.contN * p + i)
            (∀ g, g < at' ∨ at' + 32 ≤ g → readByte t.mem g = readByte s.mem g) ∧
              (s.mayTouch d.world at' = true → s.mayTouch d.world (at' + 31) = true →
                readBytes t.mem at' 32 = toBytes 8 k.code.toNat ++ toBytes 8 k.frame.toNat ++ toBytes 8 k.jaddr.toNat ++ toBytes 8 k.ord)
      else
        (t.slot f n).th = x.th ∧ (t.slot f n).park.map (·.kind) = some .spawn ∧ t.prisms = s.prisms ∧ OthersSame s t

/-- R50 to R60, R303 to R307, R373 to R380: tile tasks from their start to their end.
The model's choices in it are those of logs 25, 43 and 62. -/
def Obligations.TileTasks : Prop :=
  Claims.SlotsTakeWork ∧ Claims.GangsAreAdmitted ∧ Claims.ClockPins ∧ Claims.TasksEnd ∧ Claims.YieldsGiveTheTurn ∧ Claims.TasksSpawn

/-! The task window. -/

/-- R36, R50, R52: an entry that may issue becomes ISSUED and its range tasks are handed out, all its gangs waiting. With PLACE 0 every
ordinal is in a range task of a prism of the list, each range of T / P or T / P + 1 ordinals; otherwise each placement group is one range
task, group g of a DET entry on prism g mod P of the list. While the list is empty the window keeps them. -/
def Claims.EntriesIssue : Prop :=
  ∀ (c seq : Nat) (e : Entry) (s : State), .entryIssue c seq ∈ s.due → s.entry c seq = some e → e.state = .decoded →
    (s.ctx c).mayIssue e = true →
    let h := e.hdr
    let l := s.prismList c h.det
    let q := h.total / l.length
    let k := h.groupSize h.place
    let holds := fun (t : State) (p lo hi : Nat) => ∃ r ∈ (t.prism p).ranges, r.c = c ∧ r.seq = seq ∧ r.lo = lo ∧ r.hi = hi
    ∃ t, exec (.entryIssue c seq) s = .next t ∧ (t.entry c seq).map (fun x => (x.state, x.unhanded, x.gangsWaiting)) =
        some (.issued, decide (l = []), if l = [] then e.gangsWaiting else if h.gang = 0 then [] else List.range (h.total / h.groupSize h.gang)) ∧
      (∀ b, t.thread b = s.thread b) ∧ t.mem = s.mem ∧ t.facets = s.facets ∧ (l = [] → t.prisms = s.prisms) ∧
      (l ≠ [] → h.place = 0 → ∀ o, o < h.total → ∃ p ∈ l, ∃ lo hi, lo ≤ o ∧ o < hi ∧ (hi = lo + q ∨ hi = lo + q + 1) ∧ holds t p lo hi) ∧
      (l ≠ [] → h.place ≠ 0 → 0 < k → ∀ g, g < h.total / k → ∃ p ∈ l, holds t p (g * k) (g * k + k) ∧
        (h.det = true → l[g % l.length]? = some p))

/-- R38, R39, R114: an entry whose tasks have all ended and whose outputs lie on this device completes; where slices hold ".d" records of it,
or its tasks sent some to another device of the domain, their batches close first; and where an output is not SEALED the entry faults with
VGONE, which names the one of the lowest operand index and of that the lowest tile name. -/
def Claims.EntriesComplete : Prop :=
  ∀ (c seq : Nat) (e : Entry) (s : State), .entryComplete c seq ∈ s.due → s.entry c seq = some e → e.state = .issued → e.left = 0 →
    e.conts = 0 → e.unhanded = false → e.closing = false → e.holds = [] → s.outputDevs c e = [] →
    let waits := fun (x : Slice) => x.records.any (·.ofEntry c seq)
    let there := e.dDevs.filter s.domain.contains
    ∃ t, exec (.entryComplete c seq) s = .next t ∧ (∀ b, t.thread b = s.thread b) ∧ t.mem = s.mem ∧
      (s.unsealed c e = [] → there = [] → (∀ x ∈ s.slices, waits x.2 = false) → (t.entry c seq).map (·.state) = some .complete) ∧
      (s.unsealed c e = [] → there ≠ [] ∨ (∃ x ∈ s.slices, waits x.2 = true) →
        (t.entry c seq).map (fun x => (x.state, x.closing, x.closeDevs)) = some (.issued, true, there) ∧
          ∀ x ∈ s.slices, waits x.2 = true → .batchClose x.1 c seq ∈ t.due) ∧
      ∀ i va ver, (i, va, ver) ∈ s.unsealed c e → (∀ y ∈ s.unsealed c e, i < y.1 ∨ (i = y.1 ∧ va.toNat ≤ y.2.1.toNat)) →
        (t.entry c seq).map (fun x => (x.state, x.fault)) =
          some (.faulted, some { cause := cVGONE, addr := va, info := BitVec.ofNat 64 (ver + i * 2 ^ 32) })

/-- R40, R95: the oldest entry, when COMPLETE, leaves the window, and for each of its versioned outputs a supersede notice goes to every home
slice of the partition. -/
def Claims.EntriesRetire : Prop :=
  ∀ (c : Nat) (e : Entry) (rest : List Entry) (s : State), .entryRetire c ∈ s.due → (s.ctx c).window = e :: rest →
    ∃ t, exec (.entryRetire c) s = .next t ∧ (∀ b, t.thread b = s.thread b) ∧ t.mem = s.mem ∧
      if e.state = .complete then
        (t.ctx c).window = rest ∧
          ∀ o ∈ e.ops, o.versioned = true → o.wr = true → s.whereIs o.base = .here → ∀ sl ∈ (s.part (s.ctx c).d.part).homes,
            .supersedeNotice sl c (localVa o.base) o.len.toNat o.ver.toNat ∈ t.due
      else (t.ctx c).window = e :: rest

/-- R41, R354: a fault that a slot reported reaches its entry: the first makes it FAULTED and is its primary, a further one sets MULT. -/
def Claims.FaultsReachTheWindow : Prop :=
  (∀ (f n c seq : Nat) (r : Report) (e : Entry) (s : State), .taskFault f n ∈ s.due → (s.facet f).reports = [(n, c, seq, r)] →
    s.entry c seq = some e →
    ∃ t, exec (.taskFault f n) s = .next t ∧ (t.facet f).reports = [] ∧ (∀ b, t.thread b = s.thread b) ∧ t.mem = s.mem ∧
      (e.state = .issued → (t.entry c seq).map (fun x => (x.state, x.fault, x.mult)) = some (.faulted, some r, e.mult)) ∧
      (e.state = .faulted → e.fault.isSome = true → (t.entry c seq).map (fun x => (x.state, x.fault, x.mult)) = some (.faulted, e.fault, true))) ∧
  (∀ (f c seq : Nat) (l : List Nat) (n : Nat) (s : State), .collectionWindowClose f ∈ s.due → (s.facet f).winFpx = n :: l →
    (n :: l).Nodup → (∀ m ∈ n :: l, m < 16 ∧ (s.slot f m).owner = some (c, seq) ∧ (s.slot f m).trap.isSome = true) →
    ∃ t, exec (.collectionWindowClose f) s = .next t ∧ (t.facet f).winFpx = [] ∧ (∀ b, t.thread b = s.thread b) ∧ t.mem = s.mem ∧
      (∀ m ∈ n :: l, (t.slot f m).fpx = false ∧ ∃ x, (t.slot f m).trap = some x ∧ x.win = (m == n) ∧
        ∀ i, i < 16 → x.mask.getLsbD i = decide (i ∈ n :: l)) ∧
      ((s.slot f n).held = none → .taskFault f n ∈ t.due ∧
        (t.facet f).reports.map (fun x => (x.1, x.2.1, x.2.2.1)) = (s.facet f).reports.map (fun x => (x.1, x.2.1, x.2.2.1)) ++ [(n, c, seq)])) ∧
  ∀ (f n : Nat) (r : LateRep) (rs : List LateRep) (s : State), (s.slot f n).late = r :: rs → (s.slot f n).trap = none →
    (s.slot f n).park = none → (∃ c q o b, (s.slot f n).job = .task c q o b) →
    ∃ t, exec (.lateReport f n) s = .next t ∧ (t.slot f n).late = rs ∧
      Halts s t f n { cause := r.cause, late := true, pc := r.pc, addr := r.addr, info := r.info } ∧ t.mem = s.mem ∧
      ∀ b, b ≠ .slot f n → t.thread b = s.thread b

/-- R42 to R44: the oldest FAULTED entry, when all older ones are COMPLETE, is reported: it and every younger entry leave the window for the
replay list, which keeps of each its launch PC, the header where it had been read, and the operands; next and current of every name are as
before the reported entry was decoded, whichever entry bound it, and its fault waits for delivery. -/
def Claims.FaultsRollBack : Prop :=
  ∀ (c : Nat) (older younger : List Entry) (k : Entry) (r : Report) (s : State), .reportedEntry c ∈ s.due → (s.ctx c).phase = .none →
    (s.ctx c).window = older ++ k :: younger → (∀ o ∈ older, o.state = .complete ∧ o.seq ≠ k.seq) → k.state = .faulted → k.fault = some r →
    ∃ t, exec (.reportedEntry c) s = .next t ∧ (t.ctx c).window = older ∧ (t.ctx c).phase = .waiting r k.lpc k.seq k.mult ∧
      (t.ctx c).replay.map (fun i => (i.lpc, i.hdr, i.ops)) =
        (k :: younger).map (fun e => (e.lpc, if e.read then some e.hdr else none, e.ops)) ∧ .faultDelivery c ∈ t.due ∧
      ∀ n, n ∈ (s.ctx c).names.map Prod.fst →
        (kget {} (t.ctx c).names n).next = (kget {} k.names n).next ∧ (kget {} (t.ctx c).names n).cur = (kget {} k.names n).cur ∧
          (kget {} (t.ctx c).names n).base = (kget {} (s.ctx c).names n).base ∧ (kget {} (t.ctx c).names n).len = (kget {} (s.ctx c).names n).len

/-- R42, R323, R350: a fault that waits, with no drop on another device outstanding, is delivered at an instruction boundary of the stream's
core: its record is written at SVEC's address and the core continues at its handler; without a vector it enters the fault queue of the
service core, with its STRM interrupt, and without a service core it stays. -/
def Claims.FaultsAreDelivered : Prop :=
  (∀ (c sl pa k seq : Nat) (dir mult : Bool) (r : Report) (lpc : Word) (s : State), FaultWaits s c r lpc seq mult → (s.ctx c).svecH ≠ 0 →
    (s.done (.faultDelivery c)).recordPlace c (s.ctx c).svecR = some (sl, pa, dir) → s.streamCore c = some k →
    (s.core k).atBoundary = true → (∀ p, (s.prism p).cache = []) → pa % 64 = 0 →
    ∃ t, exec (.faultDelivery c) s = .next t ∧ (t.core k).th.pc = (s.ctx c).svecH ∧ (t.core k).th.x = (s.core k).th.x ∧
      (t.ctx c).phase = .handler ∧ IsFaultRecord (t.sliceBytes sl pa 64 dir) r lpc (s.core k).th.pc seq mult ∧
      ∀ b, b ≠ .core k → t.thread b = s.thread b) ∧
  (∀ (c seq : Nat) (mult : Bool) (r : Report) (lpc : Word) (s : State), FaultWaits s c r lpc seq mult → (s.ctx c).svecH = 0 →
    (s.ctx c).d.score = none →
    ∃ t, exec (.faultDelivery c) s = .next t ∧ (t.ctx c).phase = (s.ctx c).phase ∧ t.cores = s.cores ∧ t.facets = s.facets ∧ t.mem = s.mem) ∧
  ∀ (c k seq : Nat) (mult : Bool) (r : Report) (lpc : Word) (s : State), FaultWaits s c r lpc seq mult → (s.ctx c).svecH = 0 →
    (s.ctx c).d.score = some k → (s.core k).queueFull = false →
    let at' := (s.core k).sfqb.toNat * 4096 + 128 * (s.core k).sfqTail.toNat
    let at? := (s.streamCore c).map fun j => (s.core j).th.pc
    let ipc := at?.getD 0
    ∃ t, exec (.faultDelivery c) s = .next t ∧ (t.core k).sfqTail = (s.core k).sfqTail + 1 ∧ (t.core k).sipStrm = true ∧
      (∃ tok, (t.ctx c).phase = .service tok at?) ∧ (∀ b, t.thread b = s.thread b) ∧
      (s.mayTouch (s.core k).wld at' = true → s.mayTouch (s.core k).wld (at' + 127) = true →
        readByte t.mem at' = 2 ∧ IsFaultRecord (readBytes t.mem (at' + 64) 64) r lpc ipc seq mult)

/-- R31 to R45, R323, R354: the task window. -/
def Obligations.TaskWindow : Prop :=
  Claims.EntriesIssue ∧ Claims.EntriesComplete ∧ Claims.EntriesRetire ∧ Claims.FaultsReachTheWindow ∧ Claims.FaultsRollBack ∧
    Claims.FaultsAreDelivered

/-! Stream instructions. -/

/-- R318, R33: SLAUNCH decodes the descriptor at its address into a new youngest entry under the next window sequence number. A descriptor
that is not aligned enters FAULTED; an entry without operands whose header passes its checks enters DECODED, with all its tasks to
run, and X[d] receives its number: at level 1, where descriptor and header lie in HBM that the core may read, and at either level where
the reads of descriptor and header are answered at once with their bytes, whatever they fetch into the caches. In the fault handler
SLAUNCH faults with ILLEGAL, and for a SUP context with ACCESS (R384; the cause is log 14's). -/
def Claims.LaunchesDecode : Prop :=
  ∀ (a d : BitVec 5) (k c : Nat) (s : State), Streams s k c → Ready s { facet := false, handler := false, reads := [a], writes := [d] } →
    let x := s.ctx c
    let desc := (s.core k).th.rx a
    let enters := fun (t : State) (e : Entry) => (t.ctx c).window = x.window ++ [e] ∧ e.seq = x.nseq.toNat ∧ e.lpc = (s.core k).th.pc
    let decodes := fun (v : State) (h : Header) => ∃ t, exec (.slaunch a d) s = .next t ∧ Retired v t [d] ∧
      (t.core k).th.holds d (x.nseq.setWidth 64) false ∧ (t.ctx c).nseq = x.nseq + 1 ∧
      ∃ e, enters t e ∧ e.state = .decoded ∧ e.hdr = h ∧ e.left = h.total ∧ e.ops = []
    (x.phase = .handler → ∃ t, exec (.slaunch a d) s = .next t ∧ Faults s t cILLEGAL 0 0) ∧
    (x.phase ≠ .handler → x.d.sup = true → ∃ t, exec (.slaunch a d) s = .next t ∧ Faults s t cACCESS 0 0) ∧
    (x.phase = .none → x.d.sup = false → (∀ e ∈ x.window, e.state ≠ .faulted ∧ e.seq ≠ x.nseq.toNat) → x.window.length < 256 →
      s.framesLow c = false → s.apexUpdates c = false →
      (desc.toNat % 16 ≠ 0 → ∃ t, exec (.slaunch a d) s = .next t ∧ Retired s t [] ∧ ∃ e, enters t e ∧ e.state = .faulted ∧
        e.fault.map (fun r => (r.cause, r.dec)) = some (cALIGN, true)) ∧
      (∀ pa ph, desc.toNat % 16 = 0 → CoreReads s k desc pa 208 →
        let b := readBytes s.mem pa 208
        let hdrAt : Word := BitVec.ofNat 64 (fieldOf b 0 8)
        let h := Header.ofBytes (readBytes s.mem ph 80)
        fieldOf b 8 8 = 0 → hdrAt.toNat % 16 = 0 → CoreReads s k hdrAt ph 80 → PlainHeader s c h → decodes s h) ∧
      ∀ b b' hb u w v, desc.toNat % 16 = 0 → s.coreRead k desc 16 = .got u b → fieldOf b 8 1 = 0 → u.coreRead k desc 16 = .got w b' →
        let hdrAt : Word := BitVec.ofNat 64 (fieldOf b' 0 8)
        fieldOf b' 9 7 = 0 → hdrAt.toNat % 16 = 0 → w.coreRead k hdrAt 80 = .got v hb →
        v.turn = s.turn ∧ v.core k = s.core k ∧ v.ctx c = x ∧ v.reqs = s.reqs → PlainHeader v c (Header.ofBytes hb) →
          decodes v (Header.ofBytes hb))

/-- R319: SSYNC retires when the window is empty, SRFENCE when no entry has an ordinary operand that overlaps its range; they wait
otherwise, and fault in the fault handler. -/
def Claims.StreamFences : Prop :=
  ∀ (b a : BitVec 5) (k c : Nat) (s : State), Streams s k c →
    let x := s.ctx c
    let busy := x.phase ≠ .none ∨ ∃ e ∈ x.window, e.state = .faulted
    let base := ((s.core k).th.rx a).toNat
    let len := ((s.core k).th.rx b).toNat
    let hit := ∃ e ∈ x.window, ∃ o ∈ e.ops, o.versioned = false ∧ o.base.toNat < base + len ∧ base < o.base.toNat + o.len.toNat ∧ o.len ≠ 0
    (Ready s { facet := false, handler := false, writes := [0] } →
      (x.phase = .none → x.window = [] → ∃ t, exec .ssync s = .next t ∧ MovesPc s t ((s.core k).th.pc + 4)) ∧
      (x.phase ≠ .handler → (busy ∨ x.window ≠ []) → exec .ssync s = .next { s with stalled := some clSYNC }) ∧
      (x.phase = .handler → ∃ t, exec .ssync s = .next t ∧ Faults s t cILLEGAL 0 0)) ∧
    (Ready s { facet := false, handler := false, reads := [a, b], writes := [0] } →
      (x.phase ≠ .handler → base + len ≤ 2 ^ 64 → len = 0 ∨ (¬busy ∧ ¬hit) →
        ∃ t, exec (.srfence b a) s = .next t ∧ MovesPc s t ((s.core k).th.pc + 4)) ∧
      (x.phase ≠ .handler → base + len ≤ 2 ^ 64 → 0 < len → busy ∨ hit → exec (.srfence b a) s = .next { s with stalled := some clSYNC }) ∧
      (x.phase = .handler ∨ 2 ^ 64 < base + len → ∃ t, exec (.srfence b a) s = .next t ∧ Faults s t cILLEGAL 0 0))

/-- R320, R321: SBIND binds a logical name from 32 bytes of memory, of HBM at level 1 or of a page of its context; SNAME reads its next and
current version. Names above 1023 fault. -/
def Claims.NamesBind : Prop :=
  (∀ (b a : BitVec 5) (k c pa : Nat) (s : State), Streams s k c →
    Ready s { facet := false, handler := false, reads := [a, b], writes := [0] } →
    let x := s.ctx c
    let n := ((s.core k).th.rx a).toNat
    let at' := (s.core k).th.rx b
    x.phase = .none → (∀ e ∈ x.window, e.state ≠ .faulted ∧ ∀ o ∈ e.ops, o.versioned = false ∨ o.name ≠ n) → CoreReads s k at' pa 32 ∨ CtxReads s k c at' pa 32 →
    let word := fun (i : Nat) => ofBytes (readBytes s.mem (pa + 8 * i) 8)
    ∃ t, exec (.sbind b a) s = .next t ∧
      if 1023 < n then Faults s t cILLEGAL 0 0
      else if at'.toNat % 8 ≠ 0 then Faults s t cALIGN at' 0
      else if word 3 ≠ 0 ∨ 2 ^ 64 < word 0 + word 1 then Faults s t cILLEGAL 0 0
      else Retired s t [] ∧ BytesSame s t ∧ OthersSame s t ∧
        kget {} (t.ctx c).names n = { base := BitVec.ofNat 64 (word 0), len := BitVec.ofNat 64 (word 1), next := BitVec.ofNat 32 (word 2),
                                      cur := BitVec.ofNat 32 (word 2 / 2 ^ 32) } ∧
        ∀ m, m ≠ n → kget {} (t.ctx c).names m = kget {} x.names m) ∧
  ∀ (a d : BitVec 5) (k c : Nat) (s : State), Streams s k c → Ready s { facet := false, handler := false, reads := [a], writes := [d] } →
    let n := ((s.core k).th.rx a).toNat
    let b := kget {} (s.ctx c).names n
    ∃ t, exec (.sname a d) s = .next t ∧
      if 1023 < n then Faults s t cILLEGAL 0 0 else WritesX s t d (b.next ++ b.cur) false

/-- R322: SSTAT reads the number of entries, whether a fault is being handled, whether the replay list holds entries, and the next window
sequence number. R323: SVEC sets the fault vector and the record's address; a fault that waits is delivered next. -/
def Claims.StreamStatusAndVector : Prop :=
  (∀ (d : BitVec 5) (k c : Nat) (s : State), Streams s k c → Ready s { facet := false, handler := false, writes := [d] } →
    let x := s.ctx c
    let v := x.window.length % 512 + (if x.phase = .none then 0 else 2 ^ 9) + (if x.replay = [] then 0 else 2 ^ 10) + x.nseq.toNat * 2 ^ 32
    ∃ t, exec (.sstat d) s = .next t ∧ WritesX s t d (BitVec.ofNat 64 v) false) ∧
  ∀ (b a : BitVec 5) (k c : Nat) (s : State), Streams s k c → Ready s { facet := false, handler := false, reads := [a, b], writes := [0] } →
    let h := (s.core k).th.rx a
    let r := (s.core k).th.rx b
    ∃ t, exec (.svec b a) s = .next t ∧
      if h.toNat % 4 ≠ 0 then Faults s t cALIGN h 0
      else if r.toNat % 64 ≠ 0 then Faults s t cALIGN r 0
      else MovesPc s t ((s.core k).th.pc + 4) ∧
        t.ctx c = { s.ctx c with svecH := h, svecR := r, noRecord := (s.ctx c).noRecord && h == 0 } ∧
        ∀ q lpc seq mult, (s.ctx c).phase = .waiting q lpc seq mult → h ≠ 0 → .faultDelivery c ∈ t.due

/-- R44, R324: SRESUME and SABANDON answer a delivered fault: the stream continues at X[a] and no fault is being handled. SRESUME decodes
the replay list again in order, each entry from the header and operands it had (its versioned operands to be bound anew), SABANDON drops it.
Without a fault they fault with
ILLEGAL. -/
def Claims.FaultsAreAnswered : Prop :=
  ∀ (a : BitVec 5) (k c : Nat) (s : State), Streams s k c → Ready s { facet := false, handler := false, reads := [a], writes := [0] } →
    let x := s.ctx c
    let go := (s.core k).th.rx a
    let answered := x.phase = .handler ∨ ∃ tok ipc, x.phase = .service tok ipc
    (go.toNat % 4 = 0 → answered → ∃ t, exec (.sabandon a) s = .next t ∧ MovesPc s t go ∧ (t.ctx c).phase = .none ∧ (t.ctx c).replay = [] ∧
      (t.ctx c).window = x.window) ∧
    (∀ i, i = .sabandon a ∨ i = .sresume a → (go.toNat % 4 ≠ 0 → ∃ t, exec i s = .next t ∧ Faults s t cALIGN go 0) ∧
      (go.toNat % 4 = 0 → ¬answered → ∃ t, exec i s = .next t ∧ Faults s t cILLEGAL 0 0)) ∧
    (go.toNat % 4 = 0 → answered → (∀ i ∈ x.replay, i.hdr.isSome = true) → ∃ t, exec (.sresume a) s = .next t ∧ (t.core k).th.pc = go ∧ (t.ctx c).phase = .none ∧
        (t.ctx c).replay = [] ∧ (t.ctx c).window.map (fun e => (e.lpc, e.hdr, e.ops.map Operand.unbound)) =
          x.window.map (fun e => (e.lpc, e.hdr, e.ops.map Operand.unbound)) ++
            x.replay.map fun i => (i.lpc, i.hdr.getD {}, i.ops.map Operand.unbound))

/-- R317 to R324: the stream instructions of a control core. -/
def Obligations.StreamInstructions : Prop :=
  Claims.LaunchesDecode ∧ Claims.StreamFences ∧ Claims.NamesBind ∧ Claims.StreamStatusAndVector ∧ Claims.FaultsAreAnswered

/-! Vector instructions. -/

/-- R259, R261, R263, R264: an instruction of VOP or VFX enters its facet's sequencer and retires, where the facet holds the lanes that its
elements need, and faults with LANES otherwise. -/
def Claims.VectorOperationsEnter : Prop :=
  ∀ (i : Instr) (f n : Nat) (s : State), vecOp i = true → i.wf = true → VecReady s f n i →
    ∃ t, exec i s = .next t ∧ if Granted s f n i then Enters s t f n i none else Faults s t cLANES 0 0

/-- R268: VLDL, VSTL, VLDLS and VSTLS check alignment and allocation of all vl elements, and enter the sequencer; a fault names the first
element's address that fails (log 71). -/
def Claims.VectorLocalAccessesEnter : Prop :=
  ∀ (i : Instr) (f n w : Nat) (strided wr : Bool) (s : State), vecLocalCase i = some (strided, wr, w) → i.wf = true → VecReady s f n i →
    let x := s.slot f n
    let a := x.th.rx (vinfo i none).ra
    let b := x.th.rx (vinfo i none).rb
    ∃ t, exec i s = .next t ∧
      if Granted s f n i = false then Faults s t cLANES 0 0
      else
        let first := firstElem strided w x.vl.toNat a b
        match first (fun e => e % elemAlign w != 0),
          first (fun e => !x.holdsRange e (if strided then w / 8 else (x.vl.toNat * w + 7) / 8)) with
        | some e, _ => Faults s t cALIGN (BitVec.ofNat 64 e) 0
        | none, some e => Faults s t cLSRANGE (BitVec.ofNat 64 e) 0
        | none, none => Enters s t f n i none

/-- R228, R268: VLD and VST check alignment and are sent to their home slices; their slot waits for acceptance. A VLD or VST without
elements enters the sequencer. -/
def Claims.VectorGlobalAccessesAreSent : Prop :=
  ∀ (m wr : Bool) (a d : BitVec 5) (w : VWidth) (f n : Nat) (s : State),
    let i : Instr := if wr then .vst m a w d else .vld m a w d
    let x := s.slot f n
    let va := x.th.rx a
    let len := (x.vl.toNat * w.bits + 7) / 8
    i.wf = true → VecReady s f n i → Idle s f n → Granted s f n i = true → (∀ e ∈ piecesOf va.toNat len, s.whereIs (BitVec.ofNat 64 e.1) ≠ .nowhere) →
    ∃ t, exec i s = .next t ∧
      if x.vl ≠ 0 ∧ va.toNat % elemAlign w.bits ≠ 0 then Faults s t cALIGN va 0
      else if len = 0 then Enters s t f n i none
      else ∃ v, v.ins = i ∧ v.slot = n ∧ v.pc = x.th.pc ∧ v.vl = x.vl.toNat ∧ v.xa = va ∧
        Sends s t f n { reads := [a], writes := [], va := va, op := if wr then .vstore v len else .vload v len [],
                        join := if wr then Counts.addSt else Counts.addLd }

/-- R228, R268: a vector access within one line that its home slice accepts enters the sequencer and retires; a VLD holds the bytes read. -/
def Claims.VectorGlobalAccessesAreAccepted : Prop :=
  ∀ (id : Nat) (ans : Answer) (r : Req) (sl pa f n k : Nat) (leaf : Word) (v : VIns) (wr : Bool) (s : State),
    AtHome (s.done (.acceptance id noAnswer)) id r sl pa leaf → r.who = .slot f n → v.slot = n → v.xa = r.va →
    r.op = (if wr then .vstore v k else .vload v k []) → 0 < k → r.va.toNat % 512 + k ≤ 512 → (s.slot f n).loopLeft = 0 →
    ∃ t, exec (.acceptance id ans) s = .next t ∧ RetiresAs s t r.who [] ∧ BytesSame s t ∧
      (t.facet f).seqQ = (s.facet f).seqQ ++ [{ body := [{ v with req := some id, id := id }], slot := n }] ∧
      ∃ q, t.req id = some q ∧ q.stage = .returning ∧
        if wr then q.op = .vstore v k
        else ∃ got, q.op = .vload v k got ∧ got.map (·.1) = readBytes s.mem pa k

/-- R261, R269 to R276: the start of an elementwise instruction takes its active elements' results, which land after its latency: each
active element of the destination receives its value, every other element keeps its own; the exceptions are those of the active
elements. R16, R176, R270: each word takes the taint of the elements it is written from. -/
def Claims.ElementResults : Prop :=
  ∀ (f : Nat) (v : VIns) (c : ElemCase) (s : State), elemCase v.ins = some c → v.ins.wf = true → Alone s f v → v.vl ≤ 256 →
    let src := fun (r w e : Nat) => ((s.facet f).vreg v.slot r).elem w e
    let P := fun (e : Nat) => if activeElem s f v c.m e then c.gives src v (elemRounding s f v c.m e) e else none
    ∃ t r, exec (.sequencerStart f) s = .next t ∧ Starts s t f v r ∧ r.Elements (vkey v.slot c.d) c.w (fun e => (P e).map (·.1)) ∧
      r.Tainted (vkey v.slot c.d) c.w v.vl (fun e => (P e).map fun _ => elemTaint s f v e) (c.w == 1) ∧
      ∀ j, j < 5 → r.flags.getLsbD j = (List.range v.vl).any fun e => ((P e).map fun x => x.2.getLsbD j).getD false

/-- R273: VQNT divides the active elements of each block by the scale of the block and rounds them to the target; the scales go to the next
register. -/
def Claims.QuantisedElements : Prop :=
  ∀ (f : Nat) (v : VIns) (m : Bool) (q : Fmt) (a d : BitVec 5) (blk : Nat) (s : State),
    (blk = 32 ∧ v.ins = .vqnt32 m q a d) ∨ (blk = 128 ∧ v.ins = .vqnt128 m q a d) ∨ (blk = 256 ∧ v.ins = .vqnt256 m q a d) →
    v.ins.wf = true → Alone s f v → v.vl ≤ 256 →
    let src := fun (e : Nat) => decodeFloat .f32 (((s.facet f).vreg v.slot a.toNat).elem 32 e)
    let active := activeElem s f v m
    let exp := fun (j : Nat) => scaleExp (((List.range v.vl).filter fun e => active e && e / blk == j).map src) q
    ∃ t r, exec (.sequencerStart f) s = .next t ∧ Starts s t f v r ∧ ∀ old,
      (∀ e, q.width * e + q.width ≤ 8192 → (r.after (vkey v.slot d.toNat) old).elem q.width e =
        if active e then (deliverAny q (elemRounding s f v m e) ((src e).scaleDown (exp (e / blk)))).1 else old.elem q.width e) ∧
      ∀ j, 32 * j + 32 ≤ 8192 → (r.after (vkey v.slot (d.toNat + 1)) old).elem 32 j =
        if (List.range v.vl).any (fun e => active e && e / blk == j) then scaleEnc q (exp j) else old.elem 32 j

/-- R276: VINS replaces the element that X[b] numbers by X[a], and VEXT gives the element that X[b] numbers to X[d], where it is below vl. -/
def Claims.ElementInsertAndExtract : Prop :=
  (∀ (f : Nat) (v : VIns) (m : Bool) (b a : BitVec 5) (w : VIWidth) (d : BitVec 5) (s : State), v.ins = .vins m b a w d → Alone s f v → v.vl ≤ 256 →
    ∃ t r, exec (.sequencerStart f) s = .next t ∧ Starts s t f v r ∧
      r.Elements (vkey v.slot d.toNat) (iBits w) fun e =>
        if e = v.xb.toNat ∧ e < v.vl then some (v.xa.toNat % 2 ^ iBits w) else none) ∧
  ∀ (f : Nat) (v : VIns) (m : Bool) (b a : BitVec 5) (w : VIWidth) (d : BitVec 5) (s : State), v.ins = .vext m b a w d → Alone s f v →
    ∃ t r, exec (.sequencerStart f) s = .next t ∧ Starts s t f v r ∧ r.writes = [] ∧
      r.scalar.map (fun x => (x.1, x.2.1)) =
        some (d, BitVec.ofNat 64 (if v.xb.toNat < v.vl then ((s.facet f).vreg v.slot a.toNat).elem (iBits w) v.xb.toNat else 0))

/-- R277: the reductions of integers give element 0 the sum, the largest or the smallest of the active elements, and VSCAN each active
element the sum of those up to it. -/
def Claims.IntegerReductions : Prop :=
  ∀ (f : Nat) (v : VIns) (m : Bool) (b : Fmt) (a d : BitVec 5) (w : VWidth) (s : State),
    v.ins ∈ [Instr.vrsum m b a w d, .vrmax m b a w d, .vrmin m b a w d, .vscan m b a w d] → v.ins.wf = true → b.isFloat = false →
    Alone s f v → 0 < v.vl → v.vl ≤ 256 →
    let src := fun (e : Nat) => ((s.facet f).vreg v.slot a.toNat).elem b.width e
    let act := (List.range v.vl).filter (activeElem s f v m)
    ∃ t r, exec (.sequencerStart f) s = .next t ∧ Starts s t f v r ∧ (∀ u ∈ r.writes, u.reg = vkey v.slot d.toNat) ∧
      (∀ old e, b.width * e + b.width ≤ 8192 → let new := (r.after (vkey v.slot d.toNat) old).elem b.width e
        (v.ins = .vrsum m b a w d → new = if e = 0 then (act.map src).sum % 2 ^ b.width else old.elem b.width e) ∧
        (v.ins = .vrmax m b a w d ∨ v.ins = .vrmin m b a w d → e ≠ 0 → new = old.elem b.width e) ∧
        (v.ins = .vrmax m b a w d → e = 0 → act ≠ [] → ∃ j ∈ act, new = src j ∧ ∀ k ∈ act, decodeInt b (src k) ≤ decodeInt b (src j)) ∧
        (v.ins = .vrmin m b a w d → e = 0 → act ≠ [] → ∃ j ∈ act, new = src j ∧ ∀ k ∈ act, decodeInt b (src j) ≤ decodeInt b (src k)) ∧
        (v.ins = .vscan m b a w d → new =
          if activeElem s f v m e then ((act.filter (· ≤ e)).map src).sum % 2 ^ b.width else old.elem b.width e))

/-- R173, R277: on floats VRSUM gives element 0 the sum of the tree of R173, VRMAX and VRMIN the largest or smallest active element that is
not a NaN, with −0 below +0, or the canonical NaN, or the infinity that no element exceeds where none is active, with NV where an active
element is a signalling NaN; VSCAN gives each active element the one before it plus its own, rounded. -/
def Claims.FloatReductions : Prop :=
  ∀ (f : Nat) (v : VIns) (m : Bool) (b : Fmt) (a d : BitVec 5) (w : VWidth) (s : State),
    v.ins ∈ [Instr.vrsum m b a w d, .vrmax m b a w d, .vrmin m b a w d, .vscan m b a w d] → v.ins.wf = true → b.isFloat = true →
    Alone s f v → 0 < v.vl → v.vl ≤ 256 →
    let src := fun (e : Nat) => ((s.facet f).vreg v.slot a.toNat).elem b.width e
    let act := (List.range v.vl).filter (activeElem s f v m)
    let good := act.filter fun e => !(decodeFloat b (src e)).isNan
    ∃ t r, exec (.sequencerStart f) s = .next t ∧ Starts s t f v r ∧ (∀ u ∈ r.writes, u.reg = vkey v.slot d.toNat) ∧
      (v.ins = .vrmax m b a w d ∨ v.ins = .vrmin m b a w d → r.flags = if act.any fun e => (decodeFloat b (src e)).isSnan then xNV else 0) ∧
      ∀ old, let new := (r.after (vkey v.slot d.toNat) old).elem b.width
        (v.ins ≠ .vscan m b a w d → ∀ e, 0 < e → b.width * e + b.width ≤ 8192 → new e = old.elem b.width e) ∧
        (∀ k, v.ins = .vrsum m b a w d → v.vl ≤ 2 ^ k → (k = 0 ∨ 2 ^ (k - 1) < v.vl) → new 0 =
          (treeSum b (elemRounding s f v m 0) k ((List.range (2 ^ k)).map fun e => if activeElem s f v m e then some (src e) else none)).getD 0) ∧
        (∀ max, v.ins = (if max then .vrmax m b a w d else .vrmin m b a w d) →
          (act = [] → decodeFloat b (new 0) = .inf max) ∧ (act ≠ [] → good = [] → new 0 = canonNan b) ∧
          (good ≠ [] → ∃ j ∈ good, new 0 = src j ∧ ∀ k ∈ good,
            floatAtLeast (decodeFloat b (src (if max then j else k))) (decodeFloat b (src (if max then k else j))) = true)) ∧
        (v.ins = .vscan m b a w d → ∀ e, b.width * e + b.width ≤ 8192 → new e =
          if activeElem s f v m e then
            (match (act.filter (· < e)).getLast? with
              | none => passed b (src e)
              | some p => addedAs b (elemRounding s f v m e) (new p) (src e))
          else old.elem b.width e)

/-- R176: the result of a reduction carries the taint of every active element, element e of a scan that of those up to it. -/
def Claims.ReductionTaint : Prop :=
  ∀ (f : Nat) (v : VIns) (m : Bool) (b : Fmt) (a d : BitVec 5) (w : VWidth) (s : State),
    v.ins ∈ [Instr.vrsum m b a w d, .vrmax m b a w d, .vrmin m b a w d, .vscan m b a w d] → v.ins.wf = true →
    Alone s f v → 0 < v.vl → v.vl ≤ 256 →
    let act := (List.range v.vl).filter (activeElem s f v m)
    let any := fun (l : List Nat) => l.any fun e => ((s.facet f).vreg v.slot a.toNat).tainted b.width e
    ∃ t r, exec (.sequencerStart f) s = .next t ∧ Starts s t f v r ∧
      r.Tainted (vkey v.slot d.toNat) b.width v.vl
        (fun e => if v.ins = .vscan m b a w d then (if activeElem s f v m e then some (any (act.filter (· ≤ e))) else none)
          else if e = 0 then some (any act) else none) false

/-- R268: a local load takes the bits of each active element from local store; a local store of whole bytes writes those of each active
element that no other overlaps, and no other byte. -/
def Claims.VectorLocalAccessesStart : Prop :=
  ∀ (f : Nat) (v : VIns) (m strided wr : Bool) (a b d : BitVec 5) (w : Nat) (s : State), Alone s f v → v.vl ≤ 256 →
    (∃ k : VWidth, strided = false ∧ w = k.bits ∧ v.ins = if wr then .vstl m a k d else .vldl m a k d) ∨
      (∃ k : VIWidth, strided = true ∧ w = iBits k ∧ v.ins = if wr then .vstls m b a k d else .vldls m b a k d) →
    let place := elemBit strided w v.xa v.xb
    let active := activeElem s f v m
    ∃ t r, exec (.sequencerStart f) s = .next t ∧ Starts s t f v r ∧
      (wr = false → (t.facet f).ls = (s.facet f).ls ∧ r.Elements (vkey v.slot d.toNat) w fun e =>
        if active e then some (natOf w fun j => (s.facet f).lsBit (place e + j)) else none) ∧
      (wr = true → w % 8 = 0 → r.writes = [] ∧
        (∀ e, active e = true → (∀ g, active g = true → g ≠ e → place g + w ≤ place e ∨ place e + w ≤ place g) →
          ∀ j, j < w → (t.facet f).lsBit (place e + j) = (((s.facet f).vreg v.slot d.toNat).elem w e).testBit j) ∧
        ∀ j, (∀ e, active e = true → j < place e ∨ place e + w ≤ j) → (t.facet f).lsBit j = (s.facet f).lsBit j)

/-- R156, R160, R256, R261: the results of an instruction in flight reach its registers when its latency has passed, where no other slot
writes in the same cycle: the granted lanes of vector registers, the scalar destination, and the sticky flags; where a flag's trap was
enabled at its issue its slot faults with FPX at the instruction and no register changes. -/
def Claims.VectorResultsLand : Prop :=
  ∀ (f : Nat) (r : SeqRes) (s : State), (s.facet f).inflight = [r] → r.lands ≤ (s.facet f).cyc → r.fills = [] → r.drains = [] → r.req = none →
    (∃ c q o b, (s.slot f r.slot).job = .task c q o b) → (s.facet f).wNow = [] →
    let new := fun (t : State) (key : Nat) => kget {} (t.facet f).v key
    let old := fun (key : Nat) => kget {} (s.facet f).v key
    let h := (s.facet f).grant
    ∃ t, exec (.sequencerResult f r.id) s = .next t ∧ (t.facet f).inflight = [] ∧ t.mem = s.mem ∧
      (∀ b, b ≠ .slot f r.slot → t.thread b = s.thread b) ∧ (t.slot f r.slot).th.rnd = (s.slot f r.slot).th.rnd ||| (r.flags.setWidth 32 <<< 8) ∧
      if r.traps &&& r.flags.extractLsb' 0 3 = 0 then
        (∀ key, (∀ i, (new t key).bits.getLsbD i = if i < 32 * h then (r.after key (old key)).bits.getLsbD i else (old key).bits.getLsbD i) ∧
          ∀ l, l < h → (new t key).taint.getLsbD l = (r.after key (old key)).taint.getLsbD l) ∧
          (t.slot f r.slot).th.pc = (s.slot f r.slot).th.pc ∧
          (r.scalar = none → (t.slot f r.slot).th.x = (s.slot f r.slot).th.x) ∧
          ∀ d x taint, r.scalar = some (d, x, taint) → (t.slot f r.slot).th.holds d x taint ∧
            (s.slot f r.slot).th.keepsX (t.slot f r.slot).th [d] ∧ (d ≠ 0 → (t.slot f r.slot).th.pend.getLsbD d.toNat = !r.last)
      else (t.facet f).v = (s.facet f).v ∧
        Halts s t f r.slot { cause := cFPX, pc := r.pc, info := BitVec.ofNat 64 r.rep }

/-- R259 to R263, R268 to R277: vector instructions from their issue to their results. -/
def Obligations.VectorOperations : Prop :=
  Claims.VectorOperationsEnter ∧ Claims.ElementResults ∧ Claims.QuantisedElements ∧ Claims.ElementInsertAndExtract ∧
    Claims.IntegerReductions ∧ Claims.FloatReductions ∧ Claims.ReductionTaint ∧ Claims.VectorResultsLand

/-- R228, R268: vector loads and stores. The model's choices in it are those of logs 19, 51 and 71. -/
def Obligations.VectorMemory : Prop :=
  Claims.VectorLocalAccessesEnter ∧ Claims.VectorGlobalAccessesAreSent ∧ Claims.VectorGlobalAccessesAreAccepted ∧
    Claims.VectorLocalAccessesStart

/-! Lanes, lengths, loops, streams and merges. -/

/-- R256, R257, R264: VCLAIM and VYIELD change the facet's lanes and give the new grant; they wait for the sequencer to empty. A claim gets
what it asks for, or what is free; no other facet of the prism has an unmet claim. -/
def Claims.LaneGrants : Prop :=
  ∀ (a d : BitVec 5) (f n : Nat) (s : State), s.turn = .slot f n → Ready s { core := false, handler := false, reads := [a], writes := [d] } →
    (∀ g, prismOf g = prismOf f → (s.facet g).unmet = 0) →
    let x := s.facet f
    let asked := (min ((s.slot f n).th.rx a).toNat 256 + 7) / 8 * 8
    let got := if x.kept then min asked 32 else if asked ≤ x.grant then asked else x.grant + min (asked - x.grant) (s.lanesFree (prismOf f) + x.reserved)
    (∃ t, exec (.vclaim a d) s = .next t ∧
      if x.seqQ = [] ∧ x.inflight = [] then
        (t.facet f).grant = got ∧ (t.slot f n).th.holds d (BitVec.ofNat 64 got) false ∧ Retired s t [d] ∧ MemorySame s t ∧ OthersSame s t
      else t = { s with stalled := some clVSEQ }) ∧
    ∃ t, exec (.vyield a d) s = .next t ∧
      if x.seqQ = [] ∧ x.inflight = [] then
        (t.facet f).grant = min x.grant asked ∧ (t.slot f n).th.holds d (BitVec.ofNat 64 (min x.grant asked)) false ∧ Retired s t [d] ∧
          MemorySame s t ∧ OthersSame s t
      else t = { s with stalled := some clVSEQ }

/-- R264: VSETVL sets vl to the least of X[a], 256 and the elements of its width that the lanes hold, and gives it. -/
def Claims.VectorLengths : Prop :=
  ∀ (w : VWidth) (a d : BitVec 5) (f n : Nat) (s : State), s.turn = .slot f n →
    Ready s { core := false, handler := false, reads := [a], writes := [d] } →
    let v := min (min ((s.slot f n).th.rx a).toNat 256) (32 * (s.facet f).grant / w.bits)
    ∃ t, exec (.vsetvl w a d) s = .next t ∧ (t.slot f n).vl = BitVec.ofNat 9 v ∧ (t.slot f n).th.holds d (BitVec.ofNat 64 v) false ∧
      Retired s t [d] ∧ MemorySame s t ∧ OthersSame s t

/-- R265: VLOOP with a count of 0 goes past its body; otherwise the next n + 1 instructions of the slot enter the body, which the sequencer
runs count times once the last has entered. -/
def Claims.VectorLoops : Prop :=
  (∀ (k : BitVec 4) (a : BitVec 5) (f n : Nat) (s : State), s.turn = .slot f n →
    Ready s { core := false, handler := false, reads := [a] } → s.seqUsed f + k.toNat + 1 ≤ 16 → (s.slot f n).loop = 0 →
    let c := ((s.slot f n).th.rx a).toNat % 2 ^ 32
    ∃ t, exec (.vloop k a) s = .next t ∧
      if c = 0 then MovesPc s t ((s.slot f n).th.pc + 4 + BitVec.ofNat 64 (4 * (k.toNat + 1)))
      else Retired s t [] ∧ (t.slot f n).loopLeft = k.toNat + 1 ∧
        (t.facet f).seqQ = (s.facet f).seqQ ++ [{ body := [], slot := n, count := c, filling := true }] ∧ MemorySame s t ∧ OthersSame s t) ∧
  ∀ (i : Instr) (f n k c : Nat) (body : List VIns) (s : State), vecOp i = true → i.wf = true →
    VecReady (s.setSlot f n { s.slot f n with loopLeft := 0 }) f n i → (s.slot f n).loopLeft = k + 1 → s.fpHeld (.slot f n) = false →
    (s.facet f).seqQ = [{ body := body, slot := n, count := c, filling := true }] → (∀ v ∈ body, v.slot = n) → Granted s f n i = true →
    ∃ t v, exec i s = .next t ∧ v.ins = i ∧ v.slot = n ∧
      (t.facet f).seqQ = [{ body := body ++ [v], slot := n, count := c, filling := decide (0 < k) }] ∧ (t.slot f n).loopLeft = k ∧ Retired s t []

/-- R266, R267: VBIND checks its descriptor and enters the sequencer with it, VUNBIND enters the sequencer; their start binds and unbinds the
stream. VSTAT reads the streams that are bound, their direction and whether they have ended. -/
def Claims.StreamBindings : Prop :=
  (∀ (y : Bool) (k : BitVec 2) (a : BitVec 5) (f n : Nat) (s : State), s.turn = .slot f n → (∃ c q o b, (s.slot f n).job = .task c q o b) →
    Ready s { core := false, handler := false, reads := [a] } → s.seqUsed f < 16 → (s.facet f).sb = [] → (s.slot f n).loopLeft = 0 →
    let x := s.slot f n
    let va := x.th.rx a
    let word := fun (o k : Nat) => ofBytes ((s.facet f).lsBytes (va.toNat + o) k)
    let counts := (List.range 4).map fun i => word (8 + 2 * i) 2
    ∃ t, exec (.vbind y k a) s = .next t ∧
      (va.toNat % 8 ≠ 0 → Faults s t cALIGN va 0) ∧
      (va.toNat % 8 = 0 → x.holdsRange va.toNat 32 = false → Faults s t cLSRANGE va 0) ∧
      (va.toNat % 8 = 0 → x.holdsRange va.toNat 32 = true → 0 ∈ counts → Faults s t cILLEGAL 0 0) ∧
      -- 32-bit elements without strides
      (va.toNat % 8 = 0 → x.holdsRange va.toNat 32 = true → word 4 1 = 0 → 0 ∉ counts → word 16 16 = 0 → word 0 4 % 4 = 0 →
        x.lb ≤ word 0 4 → word 0 4 + 4 ≤ x.lb + x.lsize →
        ∃ v st, (t.facet f).seqQ = (s.facet f).seqQ ++ [{ body := [v], slot := n }] ∧ v.ins = .vbind y k a ∧ v.slot = n ∧ v.desc = some st ∧
          st.drain = y ∧ st.base = word 0 4 ∧ st.esz = .w32 ∧ st.n = counts ∧ st.s = [0, 0, 0, 0] ∧ st.slot = n ∧ Retired s t [])) ∧
  (∀ (k : BitVec 2) (f n : Nat) (s : State), s.turn = .slot f n → Ready s { core := false, handler := false } → s.seqUsed f < 16 →
    (s.slot f n).loopLeft = 0 →
    ∃ t v, exec (.vunbind k) s = .next t ∧ (t.facet f).seqQ = (s.facet f).seqQ ++ [{ body := [v], slot := n }] ∧ v.ins = .vunbind k ∧ v.slot = n ∧
      Retired s t [] ∧ MemorySame s t ∧ OthersSame s t) ∧
  (∀ (f n : Nat) (v : VIns) (s : State), (s.facet f).seqQ = [{ body := [v], slot := n }] → (s.facet f).inflight = [] →
    (s.facet f).seqFree ≤ (s.facet f).cyc →
    ∃ t, exec (.sequencerStart f) s = .next t ∧
      (∀ y k a st, v.ins = .vbind y k a → v.desc = some st → kfind k.toNat (s.facet f).streams = none →
        (t.facet f).seqQ = [] ∧ kfind k.toNat (t.facet f).streams = some st ∧ .streamTransfer f k.toNat ∈ t.due) ∧
      ∀ k st, v.ins = .vunbind k → kfind k.toNat (s.facet f).streams = some st →
        if st.drain = true ∧ st.buf ≠ [] then t = s.done (.sequencerStart f)
        else (t.facet f).seqQ = [] ∧ kfind k.toNat (t.facet f).streams = none) ∧
  ∀ (d : BitVec 5) (f n : Nat) (s : State), s.turn = .slot f n → Ready s { core := false, handler := false, writes := [d] } →
    ((s.facet f).streams.map Prod.fst).Nodup → (∀ e ∈ (s.facet f).streams, e.1 < 4) →
    ∃ t, exec (.vstat d) s = .next t ∧
      if (s.facet f).seqQ = [] ∧ (s.facet f).inflight = [] then
        ∃ w, WritesX s t d w false ∧ w.toNat < 4096 ∧ ∀ k, k < 4 →
          w.getLsbD k = ((kfind k (s.facet f).streams).map (·.ended)).getD false ∧
          w.getLsbD (4 + k) = (kfind k (s.facet f).streams).isSome ∧
          w.getLsbD (8 + k) = ((kfind k (s.facet f).streams).map (·.drain)).getD false
      else t = { s with stalled := some clVSEQ }

/-- R267: the transfer unit of a fill stream fetches its next element from local store; that of a drain stream writes its oldest element
there. -/
def Claims.StreamTransfers : Prop :=
  ∀ (f k : Nat) (st : Stream) (s : State), kfind k (s.facet f).streams = some st → s.streamMoves f k st = true →
    (s.facet f).parked = [] →
    let w := st.esz.bits / 8
    ∃ t, exec (.streamTransfer f k) s = .next t ∧ (∀ b, t.thread b = s.thread b) ∧ t.mem = s.mem ∧
      (st.drain = false → (t.facet f).ls = (s.facet f).ls ∧
        let a := (st.address st.fetched).toNat
        let x : Nat × BitVec 64 × Bool := (st.fetched, BitVec.ofNat 64 (ofBytes ((s.facet f).lsBytes a w)), (s.facet f).lsTaint a w)
        kfind k (t.facet f).streams = some { st with fetched := st.fetched + 1, buf := st.buf ++ [x] }) ∧
      ∀ e v taint rest, st.drain = true → st.buf = (e, v, taint) :: rest →
        (∃ u, kfind k (t.facet f).streams = some u ∧ u.buf = rest ∧ { u with buf := st.buf, owed := st.owed } = st) ∧
          LocalBytes s t f (st.address e).toNat (toBytes w v.toNat)

/-- R278, R279: VPMRG contributes its maxima and sums to the merge of its name and parks; the last contribution makes the merge complete
32 + 4 × participants cycles later (R261; counted in ticks, log 74). -/
def Claims.MergesGather : Prop :=
  ∀ (b a d : BitVec 5) (f n c seq ord : Nat) (cont : Bool) (s : State), s.turn = .slot f n → (s.slot f n).job = .task c seq ord cont →
    (s.facet f).streams = [] → (s.facet f).seqQ = [] → (s.facet f).inflight = [] → s.merges = [] →
    Ready s { core := false, handler := false, reads := [b] } →
    let x := s.slot f n
    let mask := x.th.rx b
    let named := x.mcb.toNat ≤ f ∧ f < x.mcb.toNat + 64 ∧ mask.getLsbD (f - x.mcb.toNat) = true
    ∃ t, exec (.vpmrg b a d) s = .next t ∧
      (¬named → Faults s t cILLEGAL 0 0) ∧ (named → (s.facet f).grant < x.vl.toNat → Faults s t cLANES 0 0) ∧
      (named → x.vl.toNat ≤ (s.facet f).grant →
        (t.slot f n).th = x.th ∧ (t.slot f n).park.map (·.kind) = some .vpmrg ∧ OthersSame s t ∧
          (∃ m p, t.merges = [(s.nextId, m)] ∧ m.parts = [p] ∧ m.ctx = c ∧ m.seq = seq ∧ m.mcb = x.mcb ∧ m.mask = mask ∧ m.k = x.pmc ∧
            p.f = f ∧ p.n = n ∧ p.vl = x.vl.toNat ∧ p.m = (s.facet f).vreg n a.toNat ∧ p.s = (s.facet f).vreg n (a.toNat + 1) ∧ p.d = d) ∧
          ((∀ i, i < 64 → mask.getLsbD i = true → x.mcb.toNat + i = f) → (s.tick + 36, .mergeComplete s.nextId) ∈ t.later))

/-- R278, R279: a complete merge of two facets: each participant's VPMRG retires with the larger maximum of each element in V[d] and the sum,
rescaled to it and rounded after each operation under its own saturation, in V[d + 1]. -/
def Claims.MergesComplete : Prop :=
  ∀ (id : Nat) (m : Merge) (p q : Contrib) (s : State), .mergeComplete id ∈ s.due → kfind id s.merges = some m → m.parts = [p, q] → m.members = [p.f, q.f] → p.f < q.f →
    p.vl = q.vl → p.vl ≤ 256 → p.vl ≤ (s.facet p.f).grant → q.vl ≤ (s.facet q.f).grant → p.d.toNat + 1 < 16 → q.d.toNat + 1 < 16 →
    p.n < 15 → q.n < 15 →
    (∃ c o b, (s.slot p.f p.n).job = .task c m.seq o b) → (∃ c o b, (s.slot q.f q.n).job = .task c m.seq o b) →
    rndTraps (s.slot p.f p.n).th.rnd = 0 → rndTraps (s.slot q.f q.n).th.rnd = 0 →
    let val := fun (r : VReg) (e : Nat) => decodeFloat .f32 (r.elem 32 e)
    let nan := fun (e : Nat) => (val p.m e).isNan || (val q.m e).isNan
    let big := fun (e : Nat) => if nan e then canonNan .f32 else if fLess (val p.m e) (val q.m e) then q.m.elem 32 e else p.m.elem 32 e
    ∃ t, exec (.mergeComplete id) s = .next t ∧ kfind id t.merges = none ∧ t.mem = s.mem ∧
      (∀ r, r = p ∨ r = q → (t.slot r.f r.n).th.pc = (s.slot r.f r.n).th.pc + 4 ∧ (t.slot r.f r.n).park = none ∧
        (t.slot r.f r.n).pmc = (s.slot r.f r.n).pmc + 1 ∧
        ∀ e, e < r.vl → (fEqual (val p.m e) (val q.m e) = false →
          ((t.facet r.f).vreg r.n r.d.toNat).elem 32 e = big e ∧
            (nan e = false → let sat := rndSat (s.slot r.f r.n).th.rnd
              ((t.facet r.f).vreg r.n (r.d.toNat + 1)).elem 32 e =
                sumSingle sat (sumSingle sat 0 (mergeTerm sat (val p.m e) (p.s.elem 32 e) (big e)))
                  (mergeTerm sat (val q.m e) (q.s.elem 32 e) (big e)))) ∧
          (nan e = true → ((t.facet r.f).vreg r.n (r.d.toNat + 1)).elem 32 e = canonNan .f32))

/-- R256, R257, R264 to R267: lanes, vector length, loops and streams. -/
def Obligations.VectorControl : Prop :=
  Claims.LaneGrants ∧ Claims.VectorLengths ∧ Claims.VectorLoops ∧ Claims.StreamBindings ∧ Claims.StreamTransfers

/-- R278, R279: pair-merges. The model's choices in it are those of logs 21 and 74. -/
def Obligations.PairMerges : Prop :=
  Claims.MergesGather ∧ Claims.MergesComplete

/-! Matrix queues and accumulators. -/

/-- R289 to R291, R294: MXMUL and MXMULZ check alignment and then allocation of their operands in local store and enter their queue; in mode
SR rctr advances by 64 × K where A is chained and its class rounds. A fault names the address of an operand's data or scales (log 71). -/
def Claims.MultiplicationsEnter : Prop :=
  ∀ (z chained : Bool) (b a : BitVec 5) (q : Bool) (c : BitVec 3) (g : MFmt) (f n : Nat) (s : State),
    let i : Instr := if z then .mxmulz chained b a q c g else .mxmul chained b a q c g
    let x := s.slot f n
    let da := if chained then 0 else x.th.rx a
    let db := x.th.rx b
    let size := vectorBytes g.cls
    let scaled := g.cls ≠ .w ∧ g.cls ≠ .h
    let scales := fun (d : Word) (k : Nat) => scaled → x.holdsRange (dScale d) k = true
    let aligned := (chained = false → blockAligned da g size ∧ (scaled → dScale da % 64 = 0)) ∧ blockAligned db g size ∧ (scaled → dScale db % 64 = 0)
    let held := (chained = false → blockHeld x da size ∧ scales da (if g.cls = .e then 256 else 64)) ∧ blockHeld x db size ∧
      scales db (if g.cls = .e then 4 else 64)
    i.wf = true → MxReady s f n true (if chained then [b] else [a, b]) q →
    (aligned → held → ∃ t, exec i s = .next t ∧ MxEnters s t f n q i da db (if chained ∧ g.cls ≠ .w then 64 * mDepth g.cls else 0)) ∧
      ∀ cause, (cause = cALIGN ∧ ¬ aligned ∨ cause = cLSRANGE ∧ aligned ∧ ¬ held) →
        ∃ t a, exec i s = .next t ∧ a ∈ [dData da, dScale da, dData db, dScale db] ∧ Faults s t cause (BitVec.ofNat 64 a) 0

/-- R288 to R291, R296, R297: MXLD and MXST check alignment and then allocation of their image, and a scaled MXST of its scales; in mode SR an
MXST advances rctr by 4,096. A fault names the address of the image or of the scales (log 71). -/
def Claims.ImageTransfersEnter : Prop :=
  ∀ (st scaled : Bool) (a : BitVec 5) (q : Bool) (c : BitVec 3) (g : MFmt) (f n : Nat) (s : State),
    let i : Instr := if st then .mxst scaled a q c g else .mxld a q c g
    let x := s.slot f n
    let d := x.th.rx a
    let size := 8 * (mFmt g).width
    let aligned := blockAligned d g size ∧ (st = true → scaled = true → dScale d % 64 = 0)
    let held := blockHeld x d size ∧ (st = true → scaled = true → x.holdsRange (dScale d) (if g.cls = .e then 256 else 64) = true)
    i.wf = true → MxReady s f n st [a] q →
    (aligned → held → ∃ t, exec i s = .next t ∧ MxEnters s t f n q i d 0 (if st then 4096 else 0)) ∧
      ∀ cause, (cause = cALIGN ∧ ¬ aligned ∨ cause = cLSRANGE ∧ aligned ∧ ¬ held) →
        ∃ t a, exec i s = .next t ∧ a ∈ [dData d, dScale d] ∧ Faults s t cause (BitVec.ofNat 64 a) 0

/-- R280, R289 to R291: the instructions without a descriptor enter their queue; an instruction that finds its queue full, or MX at its
limit, stalls its slot. -/
def Claims.OtherEntriesEnter : Prop :=
  (∀ (i : Instr) (q : Bool) (f n : Nat) (s : State), (∃ c, i = .mxzero q c) ∨ (∃ j c, i = .mxadd j q c) ∨ (∃ j c, i = .mxtr j q c) ∨ i = .mxrel q →
    MxReady s f n false [] q → ∃ t, exec i s = .next t ∧ MxEnters s t f n q i 0 0 0 ∧ (i = .mxrel q → .matrixCompletion f q ∈ t.due)) ∧
  ∀ (i : Instr) (q : Bool) (f n : Nat) (s : State), (∃ c, i = .mxzero q c) ∨ (∃ j c, i = .mxadd j q c) ∨ (∃ j c, i = .mxtr j q c) →
    s.turn = .slot f n → Ready s { core := false, handler := false } → 16 ≤ ((s.facet f).mq q).entries.length ∨ 63 ≤ (s.slot f n).cnt.mx →
    exec i s = .next { s with stalled := some clQFULL }

/-- R299: MXFENCE retires where no operation of a queue it names is incomplete, the message of a copy and the elements of a drain among
them, and waits otherwise. R156: it shows the exceptions of the matrix operations of the queues it names in rnd. -/
def Claims.MatrixFences : Prop :=
  ∀ (m : BitVec 4) (f n : Nat) (s : State), s.turn = .slot f n → Ready s { core := false, handler := false } → (s.slot f n).park = none →
    let x := s.facet f
    let clear := (m.getLsbD 0 = true → x.mq0.entries = []) ∧ (m.getLsbD 1 = true → x.mq1.entries = []) ∧
      (m.getLsbD 2 = true → (∀ k ∈ s.copies, ¬ (k.2.f = f ∧ k.2.n = n)) ∧ ∀ w ∈ s.flights, w.2.copy = some (f, n) → w.2.entered = true) ∧
      (m.getLsbD 3 = true → (∀ i ∈ x.seqQ, i.body = []) ∧ x.inflight = [] ∧ ∀ u ∈ x.streams, u.2.owed = [])
    let y := s.slot f n
    let shown : Exc := (if m.getLsbD 0 then y.mxf0 else 0) ||| (if m.getLsbD 1 then y.mxf1 else 0)
    ∃ t, exec (.mxfence m) s = .next t ∧
      (clear → let z := t.slot f n
        y.th.keepsX z.th [] ∧ z.th.p = y.th.p ∧ y.th.signals z.th shown 0 ∧ z.th.pc = y.th.pc + 4 ∧ Framed s t ∧
          z.mxf0 = (if m.getLsbD 0 then 0 else y.mxf0) ∧ z.mxf1 = (if m.getLsbD 1 then 0 else y.mxf1)) ∧
      (¬ clear → (t.slot f n).th = (s.slot f n).th ∧ (t.slot f n).park.map (·.kind) = some .mxfence ∧ t.stalled = some clCOUNT)

/-- R281: the queue of a prism that has waited longest, ties broken by facet and queue, is bound to the lowest free engine for the context of
its first entry, its accumulators +0 and untainted. -/
def Claims.QueuesAreBound : Prop :=
  ∀ (f w e : Nat) (q : Bool) (s : State), ((s.facet f).mq q).waiting = some w →
    (∀ g r u, prismOf g = prismOf f → ((s.facet g).mq r).waiting = some u → w < u ∨ w = u ∧ (f < g ∨ f = g ∧ (q = false ∨ r = true))) →
    e < 4 → (∀ g r b, prismOf g = prismOf f → ((s.facet g).mq r).bind = some b → b.engine ≠ e) →
    (∀ k, k < e → ∃ g r b, prismOf g = prismOf f ∧ ((s.facet g).mq r).bind = some b ∧ b.engine = k) →
    ∃ t b, exec (.queueBinding (prismOf f)) s = .next t ∧ ((t.facet f).mq q).bind = some b ∧ b.engine = e ∧
      (∀ x l, ((s.facet f).mq q).entries = x :: l → b.ctx = x.ctx) ∧ (∀ k r c, r < 64 → c < 64 → b.elem k r c = (0, false)) ∧
      ((t.facet f).mq q).waiting = none ∧ ((t.facet f).mq q).boundAt = (s.facet f).cyc ∧
      ((t.facet f).mq q).entries = ((s.facet f).mq q).entries ∧
      (∀ g r, ¬ (g = f ∧ r = q) → (t.facet g).mq r = (s.facet g).mq r) ∧ MemorySame s t ∧ ∀ a, t.thread a = s.thread a

/-- R134, R286, R287, R300: an entry begins its reads 4 cycles after its enqueue and after its queue's binding, when every earlier entry
computes and stores none of its operands, the port is not in use and no copy holds it up; it holds the operands as local store has them
then. -/
def Claims.ReadsBegin : Prop :=
  ∀ (f : Nat) (q : Bool) (e : MxEntry) (before rest : List MxEntry) (b : Binding) (s : State),
    let m := (s.facet f).mq q
    let x := s.facet f
    m.entries = before ++ e :: rest → (∀ y ∈ before, y.stage = .computing ∧ y.id ≠ e.id) → e.stage = .queued → (mxKind e.ins).1 ≠ .rel →
    m.bind = some b → b.ctx = e.ctx → x.sb = [] → (∀ y ∈ (x.mq !q).entries, y.stage = .queued) →
    (e.enq + 4 ≤ x.cyc → m.boundAt + 4 ≤ x.cyc → (∀ y ∈ before, ∀ k a r c g, y.ins ≠ .mxst k a r c g) →
      ∃ t u, exec (.matrixReadsBegin f q) s = .next t ∧
      ((t.facet f).mq q).entries = before ++ u :: rest ∧ u.stage = .reading ∧ u.readAt = x.cyc ∧ u.ins = e.ins ∧ u.id = e.id ∧
      (∀ (z : Bool) b a c g, e.ins = (if z then .mxmulz false b a q c g else .mxmul false b a q c g) →
        u.aBytes = packedBlock x e.da (vectorBytes e.fa.cls) ∧
        (e.fa.cls = .e → u.aScale = x.lsBytes (dScale e.da) 256) ∧ (e.fa.cls = .q6 ∨ e.fa.cls = .q4 → u.aScale = x.lsBytes (dScale e.da) 64)) ∧
      (∀ (z h : Bool) b a c g, e.ins = (if z then .mxmulz h b a q c g else .mxmul h b a q c g) →
        u.bBytes = packedBlock x e.db (vectorBytes e.fb.cls) ∧
        (e.fb.cls = .e → u.bScale = x.lsBytes (dScale e.db) 4) ∧ (e.fb.cls = .q6 ∨ e.fb.cls = .q4 → u.bScale = x.lsBytes (dScale e.db) 64)) ∧
      (∀ a c g, e.ins = .mxld a q c g → u.aBytes = packedBlock x e.da (8 * (mFmt e.fa).width)) ∧
      (readCycles e.ins e.fa e.fb = 0 → .matrixComputeBegin f q ∈ t.due) ∧ (t.facet f).ls = x.ls ∧ MemorySame s t) ∧
    (x.cyc < e.enq + 4 ∨ x.cyc < m.boundAt + 4 ∨
        (∃ y ∈ before, ∃ w ∈ y.writeRanges, ∃ r ∈ e.readRanges, overlaps w.1 w.2 r.1 r.2 = true) →
      exec (.matrixReadsBegin f q) s = .next (s.done (.matrixReadsBegin f q)))

/-- R300: the head of a queue begins to compute when its reads have taken their cycles and, where its A is chained, 16 cycles after the entry
before it completed. -/
def Claims.ComputeBegins : Prop :=
  ∀ (f : Nat) (q : Bool) (e : MxEntry) (rest : List MxEntry) (s : State), ((s.facet f).mq q).entries = e :: rest → e.stage = .reading →
    let cyc := (s.facet f).cyc
    let ready := e.readAt + readCycles e.ins e.fa e.fb ≤ cyc ∧ (isChained e.ins = true → ((s.facet f).mq q).lastDone + 16 ≤ cyc)
    (ready → ∃ t, exec (.matrixComputeBegin f q) s = .next t ∧
      ((t.facet f).mq q).entries = { e with stage := .computing, compAt := cyc } :: rest ∧ .matrixReadsBegin f q ∈ t.due ∧ MemorySame s t) ∧
    (¬ ready → exec (.matrixComputeBegin f q) s = .next (s.done (.matrixComputeBegin f q)))

/-- R280, R281, R284 to R291, R299, R300: entries of the matrix queues from issue to the begin of their computing.
The model's choices in it are those of logs 46, 51, 54 and 71. -/
def Obligations.MatrixQueues : Prop :=
  Claims.MultiplicationsEnter ∧ Claims.ImageTransfersEnter ∧ Claims.OtherEntriesEnter ∧ Claims.MatrixFences ∧ Claims.QueuesAreBound ∧
    Claims.ReadsBegin ∧ Claims.ComputeBegins

/-- R171 to R173, R293 to R295: MXMUL and MXMULZ give each of 64 × 64 outputs its sum, with the taint of its old value, its row and its column;
the exceptions are those of all roundings. -/
def Claims.MatrixProducts : Prop :=
  ∀ (f : Nat) (q z chained : Bool) (b a : BitVec 5) (c : BitVec 3) (g : MFmt) (e : MxEntry) (rest : List MxEntry) (u : Binding) (s : State),
    e.ins = (if z then .mxmulz chained b a q c g else .mxmul chained b a q c g) → mSameClass e.fa e.fb = true → MxHead s f q e rest u →
    let flag := fun (l : List Bool) (i : Nat) => (l[i]?).getD false
    let rowA := fun r k => if chained then chainedElem e u a r k else (vectorElem e.fa e.aBytes r k, 0)
    let scaleA := fun r => if chained then chainedScale e u a r else scaleOf e.fa e.aScale r
    let taintA := fun r => if chained then chainedTaint e u a r else flag e.aTaint r || flag e.asTaint r
    let colB := fun k => if e.fb.cls = .e then 0 else k
    let old := fun r k => if z then (0, false) else u.elem c.toNat r k
    let out := fun r k => outputOf e.fa.cls (old r k).1 (fun j => (rowA r j).1) (fun j => vectorElem e.fb e.bBytes k j) (scaleA r) (scaleOf e.fb e.bScale (colB k))
    ∃ t fl, exec (.matrixCompletion f q) s = .next t ∧ MxLeaves s t f q e rest fl ∧
      AccBecomes t f q u c.toNat (fun r k => ((out r k).1, (old r k).2 || taintA r || flag e.bTaint k || flag e.bsTaint (colB k))) ∧
      (∀ j, j < 5 → (fl.getLsbD j = true ↔ (∃ r k, r < 64 ∧ k < 64 ∧ (out r k).2.getLsbD j = true) ∨
        ∃ r k, r < 64 ∧ k < mDepth e.fa.cls ∧ (rowA r k).2.getLsbD j = true)) ∧ (t.facet f).ls = (s.facet f).ls

/-- R296: MXZERO, MXLD, MXADD and MXTR. -/
def Claims.AccumulatorOperations : Prop :=
  ∀ (f : Nat) (q : Bool) (c : BitVec 3) (e : MxEntry) (rest : List MxEntry) (u : Binding) (s : State), MxHead s f q e rest u →
    let d := c.toNat
    ∀ (P : Nat → Nat → (Nat × Bool) × Exc),
      (e.ins = .mxzero q c ∧ P = fun _ _ => ((0, false), 0)) ∨
      (∃ a g, e.ins = .mxld a q c g ∧ P = fun r k =>
        let w := (mFmt e.fa).width
        let x := convert (mFmt e.fa) .f32 rne (streamBits e.aBytes (64 * w * r + w * k) w)
        ((x.1, (e.aTaint[64 * r + k]?).getD false), x.2)) ∨
      (∃ j : BitVec 3, e.ins = .mxadd j q c ∧ P = fun r k =>
        let x := roundSingle (fAdd false (decodeFloat .f32 (u.elem d r k).1) (decodeFloat .f32 (u.elem j.toNat r k).1))
        ((x.1, (u.elem d r k).2 || (u.elem j.toNat r k).2), x.2)) ∨
      (∃ j : BitVec 3, e.ins = .mxtr j q c ∧ P = fun r k => (u.elem j.toNat k r, 0)) →
    ∃ t fl, exec (.matrixCompletion f q) s = .next t ∧ MxLeaves s t f q e rest fl ∧ AccBecomes t f q u d (fun r k => (P r k).1) ∧
      FlagsOf fl (fun r k => (P r k).2) ∧ (t.facet f).ls = (s.facet f).ls

/-- R288, R296, R297: MXST writes the rows of its image and, where it is scaled, the scale of each row, with their taint; every other byte and
every full-empty bit is as before. -/
def Claims.ImageStores : Prop :=
  ∀ (f : Nat) (q scaled : Bool) (a : BitVec 5) (c : BitVec 3) (g : MFmt) (e : MxEntry) (rest : List MxEntry) (u : Binding) (s : State),
    e.ins = .mxst scaled a q c g → MxHead s f q e rest u →
    let w := (mFmt e.fa).width
    let n := if e.fa.cls = .e then 4 else 1
    let place := fun r => dData e.da + r * dPitch e.da (8 * w)
    let row := fun r => (List.range 64).map fun k => decodeFloat .f32 (u.elem c.toNat r k).1
    let exp := fun r => scaleExp (row r) (mFmt e.fa)
    let enc := fun r k =>
      let rnd : Rounding := { mode := e.rm, sat := e.sat, draw := draw e.key e.ctr (64 * r + k) }
      let v := (u.elem c.toNat r k).1
      if scaled then deliverAny (mFmt e.fa) rnd ((decodeFloat .f32 v).scaleDown (exp r)) else convert .f32 (mFmt e.fa) rnd v
    let inScales := fun (b : Nat) => scaled = true ∧ dScale e.da ≤ b ∧ b < dScale e.da + 64 * n
    (scaled = true → e.fa.cls ≠ .w ∧ e.fa.cls ≠ .h ∧ dScale e.da % 64 = 0) → blockAligned e.da e.fa (8 * w) →
    ∃ t fl, exec (.matrixCompletion f q) s = .next t ∧ MxLeaves s t f q e rest fl ∧ ((t.facet f).mq q).bind = some u ∧
      (∀ r k j, r < 64 → k < 64 → j < w → ¬ inScales ((8 * place r + w * k + j) / 8) →
        (t.facet f).lsBit (8 * place r + w * k + j) = (enc r k).1.testBit j) ∧
      (∀ r i, r < 64 → i < 2 * w → ¬ inScales (place r + 4 * i) → ((t.facet f).word (place r / 4 + i)).taint =
        (List.range 64).any fun k => (u.elem c.toNat r k).2 && decide (32 * i < w * k + w) && decide (w * k < 32 * i + 32)) ∧
      (scaled = true → ∀ r, r < 64 → ofBytes ((t.facet f).lsBytes (dScale e.da + n * r) n) = scaleEnc (mFmt e.fa) (exp r)) ∧
      (∀ b, ¬ inScales b → (∀ r, r < 64 → b < place r ∨ place r + 8 * w ≤ b) → (t.facet f).lsByte b = (s.facet f).lsByte b) ∧
      (∀ i, ((t.facet f).word i).empty = ((s.facet f).word i).empty) ∧ FlagsOf fl (fun r k => (enc r k).2)

/-- R282, R298: MXREL at the head of its queue ends the binding and leaves; the queue waits again where its next entry is no MXREL. -/
def Claims.ReleasesEndBindings : Prop :=
  ∀ (f : Nat) (q : Bool) (e : MxEntry) (rest : List MxEntry) (s : State), ((s.facet f).mq q).entries = e :: rest → e.ins = .mxrel q →
    (s.slot f e.slot).owner = some (e.ctx, e.seq) → (s.facet f).parked = [] →
    ∃ t, exec (.matrixCompletion f q) s = .next t ∧ MxLeaves s t f q e rest 0 ∧ ((t.facet f).mq q).bind = none ∧
      ∀ h l, rest = h :: l → ((mxKind h.ins).1 ≠ .rel →
        ((t.facet f).mq q).waiting ≠ none ∧ .queueBinding (prismOf f) ∈ t.due) ∧ (h.ins = .mxrel q → .matrixCompletion f q ∈ t.due)

/-- R172: the scale exponent of a row is the least k with every magnitude at most F × 2^k, clamped; 127 where the row holds an infinity, and 0
where it holds a NaN and none, or only zeros. -/
def Claims.RowScales : Prop :=
  ∀ (q : Fmt) (l : List Nat), twiceLargest q ≠ 0 →
    let vs := l.map (decodeFloat .f32)
    let k := scaleExp vs q
    let inf := ∃ n, FVal.inf n ∈ vs
    let nan := ∃ v ∈ vs, FVal.isNan v = true
    let zeros := ∀ v ∈ vs, ∃ n, v = FVal.zero n
    (inf → k = 127) ∧ (¬ inf → nan ∨ zeros → k = 0) ∧
      (¬ inf → ¬ nan → ¬ zeros → -126 ≤ k ∧ k ≤ 127 ∧ (k = 127 ∨ ∀ v ∈ vs, fitsScale (twiceLargest q) k v) ∧
        (k = -126 ∨ ∃ v ∈ vs, ¬ fitsScale (twiceLargest q) (k - 1) v))

/-- R171 to R173, R282, R293 to R298: what the entries of a matrix queue do when they complete. The model's choices in it are those of log 58. -/
def Obligations.MatrixResults : Prop :=
  Claims.MatrixProducts ∧ Claims.AccumulatorOperations ∧ Claims.ImageStores ∧ Claims.ReleasesEndBindings ∧ Claims.RowScales

/-! Registers of the supervisor. -/

/-- R367, R368, R383: a write of CTXT that sets V makes the context valid with the fields of its descriptor where every check passes, and
leaves V 0 otherwise; a context that is valid already keeps its descriptor then. -/
def Claims.ContextsBecomeValid : Prop :=
  ∀ (k c : Nat) (v : Word) (s : State), s.supervises k = true → c < 64 → v.getLsbD 0 = true → s.ctxOutside k c = false →
    let a := fieldAt v 6 38 * 64
    let x := s.ctx c
    let u := fun (o n : Nat) => ofBytes (readBytes s.mem (a + o) n)
    ∃ t, exec (.ctxtSetV k c v) s = .next t ∧ OnlyContext s t c ∧
      (DescriptorPasses s k c a → let y := t.ctx c
        y.live = true ∧ y.desc = v.extractLsb' 6 38 ∧ y.d.part = u 0 1 ∧ y.d.weight = max 1 (u 1 1) ∧ y.d.lra = u 8 8 ∧ y.d.contB = u 0x10 8 ∧
          y.d.contN = u 0x18 4 ∧ y.d.splB = u 0x20 8 ∧ y.d.splZ = u 0x28 8 ∧ y.d.ovfB = u 0x30 8 ∧ y.d.ovfS = u 0x38 8 ∧ y.d.root = u 0x40 8 ∧
          y.d.asn = u 0x48 2 ∧ y.d.score = (if 2 ^ 7 ≤ u 0x4A 1 then some (u 0x4A 1 % 32) else none) ∧ y.d.sup = (u 0x4B 1 % 2 == 1) ∧
          y.d.redok = (u 0x4B 1 / 2 % 2 == 1) ∧ y.d.world = (s.core k).wld ∧ y.window = x.window ∧ y.names = x.names) ∧
      (¬ DescriptorPasses s k c a → t.ctx c = if x.live then x else { x with desc := v.extractLsb' 6 38 })

/-- R367: a write of CTXT that clears V has no effect on a context in use, and otherwise returns its window and rename table to their state at
creation. -/
def Claims.ContextsBecomeInvalid : Prop :=
  ∀ (k c : Nat) (v : Word) (s : State), s.supervises k = true → c < 64 → v.getLsbD 0 = false → s.ctxOutside k c = false →
    let x := s.ctx c
    ∃ t, exec (.ctxtClearV k c v) s = .next t ∧ OnlyContext s t c ∧
      (x.live = true → ContextInUse s c → t.ctx c = x) ∧
      (x.live = true → ¬ ContextInUse s c → t.ctx c = { desc := v.extractLsb' 6 38, dbg := x.dbg }) ∧
      (x.live = false → t.ctx c = { x with desc := v.extractLsb' 6 38 })

/-- R371: a notify write stores TAIL and sets PEND in the queue's control block, writes nothing else, and notifies the core of a mapped
queue; with QCBA 0 it is discarded. -/
def Claims.NotifyWrites : Prop :=
  ∀ (q : Nat) (v : BitVec 32) (s : State), q < 64 →
    let m := s.qmapOf q
    let a := fieldAt m 20 38 * 64
    let w := (s.ctx (fieldAt m 1 6)).d.world
    (a = 0 → exec (.notify q v) s = .next s) ∧
    (a ≠ 0 → (∀ i, i < 5 → s.mayTouch w (a + i) = true) → ∃ t, exec (.notify q v) s = .next t ∧ ofBytes (readBytes t.mem a 4) = v.toNat ∧
      readByte t.mem (a + 4) = readByte s.mem (a + 4) ||| 1 ∧ (∀ b, b < a ∨ a + 4 < b → readByte t.mem b = readByte s.mem b) ∧
      t.qmap = s.qmap ∧ t.facets = s.facets ∧
      if m.getLsbD 0 && (s.ctx (fieldAt m 1 6)).live then NotifiesCore s t (fieldAt m 8 5) q
      else t.nqpend = s.nqpend ∧ t.cores = s.cores)

/-- R370, R371: a write of QMAP stores V, CTX, CORE and QCBA and leaves PART; one that makes the queue mapped and finds PEND set, where
the regions let its context's world read it (R402), notifies its core. -/
def Claims.QueueMaps : Prop :=
  ∀ (k q : Nat) (v : Word) (s : State), s.supervises k = true → q < 64 → s.queueOf k q = true →
    let i : Instr := if v.getLsbD 0 then .qmapSetV k q v else .qmapClearV k q v
    ∃ t, exec i s = .next t ∧ let m := t.qmapOf q
      m.getLsbD 0 = v.getLsbD 0 ∧ fieldAt m 1 6 = fieldAt v 1 6 ∧ fieldAt m 8 5 = fieldAt v 8 5 ∧ fieldAt m 20 38 = fieldAt v 20 38 ∧
      fieldAt m 16 4 = fieldAt (s.qmapOf q) 16 4 ∧ (∀ j, j ≠ q → t.qmapOf j = s.qmapOf j) ∧ t.mem = s.mem ∧ t.facets = s.facets ∧
      if v.getLsbD 0 && (s.ctx (fieldAt v 1 6)).live && fieldAt v 20 38 != 0 &&
          s.mayTouch (s.ctx (fieldAt v 1 6)).d.world (fieldAt v 20 38 * 64 + 4) && (readByte s.mem (fieldAt v 20 38 * 64 + 4)).getLsbD 0 then
        NotifiesCore s t (fieldAt v 8 5) q
      else t.nqpend = s.nqpend ∧ t.cores = s.cores

/-- R437: HINT raises the MSI-X vector of a queue of the core's partition, and ignores a number of 64 or more. -/
def Claims.Hints : Prop :=
  ∀ (k q : Nat) (s : State), s.supervises k = true →
    (64 ≤ q → exec (.hint k q) s = .next s) ∧ (q < 64 → s.queueOf k q = true → exec (.hint k q) s = .next { s with msix := s.msix ++ [q] })

/-- R362 to R364, R370, R372, R378, R392, R396, R437: what a write of each register of the physical space does, by its address. -/
def Claims.RegisterAddresses : Prop :=
  ∀ (k p : Nat) (v : Word) (s : State), s.supervises k = true → s.partOfCore k = some p → k < 32 →
    let wr := fun a => Instr.registerWrite k (0xFF000000000 + a) v
    (∀ c, c < 64 → s.ctxOutside k c = false →
      SameStep s (wr (0x100800 + 8 * c)) (if v.getLsbD 0 then .ctxtSetV k c v else .ctxtClearV k c v)) ∧
    (∀ q, q < 64 → s.queueOf k q = true → SameStep s (wr (0x100000 + 8 * q)) (if v.getLsbD 0 then .qmapSetV k q v else .qmapClearV k q v)) ∧
    (∀ j, j < 32 → s.partOfCore j = some p →
      exec (wr (0x100400 + 8 * j)) s = .next { s with nqpend := kset j (kget 0 s.nqpend j &&& ~~~v) s.nqpend }) ∧
    (∀ r, r < 256 → s.partOfPrism r = some p →
      let detl := fun (x : Prism) => { x with detl := BitVec.ofNat 9 (min (fieldAt v 16 9) 256 / 8 * 8) }
      let u := s.modPrism r detl
      exec (wr (0x1000000 + 0x1000 * r)) s = (match fieldAt v 8 2 with
        | 1 => exec (.drain r) u
        | 2 => exec (.prismReturn r) u
        | 3 => exec (.remove r) u
        | _ => .next u)) ∧
    (∀ r f n, r < 256 → f < 8 → n < 15 → s.partOfPrism r = some p →
      ∃ t, exec (wr (0x1000000 + 0x1000 * r + 0x100 + 8 * (16 * f + n))) s = .next t ∧
        let y := kget 0 (t.prism r).sown (16 * f + n)
        y.toNat = fieldAt v 8 6 * 256 + (if v.toNat % 4 = 3 then 2 else v.toNat % 4) ∧
        ∀ j, j ≠ 16 * f + n → kget 0 (t.prism r).sown j = kget 0 (s.prism r).sown j) ∧
    (∀ sl, sl < 512 → s.partOfSlice sl = some p →
      let base := 0x2000000 + 0x100 * sl
      SameStep s (wr base) (.scfgWrite sl v) ∧
      exec (wr (base + 0x20)) s = .next (s.modSlice sl fun x => { x with mgva := v.extractLsb' 16 48 }) ∧
      exec (wr (base + 0x28)) s = .next (s.modSlice sl fun x => { x with mgpa := v.extractLsb' 16 48 }) ∧
      (fieldAt v 8 2 = 1 → SameStep s (wr (base + 0x30)) (.movePage sl (fieldAt v 0 6))) ∧
      (fieldAt v 8 2 = 2 → SameStep s (wr (base + 0x30)) (.moveFrameArea sl)) ∧
      (fieldAt v 8 2 = 3 → SameStep s (wr (base + 0x30)) (.transferHome sl (fieldAt v 16 9))) ∧
      ((s.slice sl).versions = [] → (s.slice sl).quota = [] → (s.slice sl).mig = .none →
        exec (wr (base + 8)) s = .next (s.modSlice sl fun x => { x with sfrb := v.extractLsb' 16 28 }) ∧
        exec (wr (base + 0x10)) s = .next (s.modSlice sl fun x => { x with sfrs := v.extractLsb' 16 28 }))) ∧
    (exec (wr (0x3000000 + 0x100 * k)) s = .next (s.modCore k fun x => { x with tiva := v.extractLsb' 16 48 }) ∧
      (fieldAt v 16 2 = 0 → SameStep s (wr (0x3000008 + 0x100 * k)) (.invalidatePage k (fieldAt v 0 6) (fieldAt v 18 2))) ∧
      (fieldAt v 16 2 = 1 → SameStep s (wr (0x3000008 + 0x100 * k)) (.invalidateContext k (fieldAt v 0 6))) ∧
      (fieldAt v 16 2 = 2 → SameStep s (wr (0x3000008 + 0x100 * k)) (.invalidatePartition k)) ∧
      (fieldAt v 16 2 = 3 → exec (wr (0x3000008 + 0x100 * k)) s = .next s) ∧
      exec (wr (0x3000010 + 0x100 * k)) s = .next (s.modCore k fun x => { x with tiErr := x.tiErr && !v.getLsbD 1 })) ∧
    SameStep s (wr 0x4000000) (.hint k v.toNat)

/-- R363: a register outside the partition of the core, or the invalidation block of another core, is not written. -/
def Claims.RegistersOutOfReach : Prop :=
  ∀ (k p pa : Nat) (v : Word) (s : State), s.supervises k = true → s.partOfCore k = some p → 0xFF000000000 ≤ pa →
    let o := pa - 0xFF000000000
    (∃ c, c < 64 ∧ o = 0x100800 + 8 * c ∧ (s.ctx c).live = true ∧ (s.ctx c).d.part ≠ p) ∨
      (∃ q, q < 64 ∧ o = 0x100000 + 8 * q ∧ fieldAt (s.qmapOf q) 16 4 ≠ p) ∨
      (∃ r, r < 256 ∧ o = 0x1000000 + 0x1000 * r ∧ s.partOfPrism r ≠ some p) ∨
      (∃ sl, sl < 512 ∧ o = 0x2000000 + 0x100 * sl ∧ s.partOfSlice sl ≠ some p) ∨ (∃ j, j < 32 ∧ j ≠ k ∧ o = 0x3000000 + 0x100 * j) →
    exec (.registerWrite k pa v) s = .next s

/-- R381, R382: DRAIN, the end of a drain, and RETURN, which does nothing while the prism's calibration is being updated (R450). -/
def Claims.PrismStates : Prop :=
  (∀ (p : Nat) (s : State), ∃ t, exec (.drain p) s = .next t ∧ (∀ j, j ≠ p → t.prism j = s.prism j) ∧ t.facets = s.facets ∧
    if (s.prism p).state = .active then t.prism p = { s.prism p with state := .draining } ∧ .drainIdle p ∈ t.due else t = s) ∧
  (∀ (p : Nat) (s : State),
    let empty := (s.prism p).ranges = [] ∧ (s.prism p).conts = [] ∧ (s.prism p).contsWait = [] ∧
      ∀ i, i < 8 → let x := s.facet (8 * p + i)
        (∀ n ∈ x.slots, (∀ c g q b, n.2.job ≠ .task c g q b) ∧ (n.2.job = .vacant → n.2.next = none)) ∧ x.mq0.bind = none ∧
          x.mq1.bind = none ∧ x.grant = 0
    ∃ t, exec (.drainIdle p) s = .next t ∧ (∀ j, j ≠ p → t.prism j = s.prism j) ∧ t.facets = s.facets ∧
      ((s.prism p).state = .draining → empty → t.prism p = { s.prism p with state := .idle }) ∧
      ((s.prism p).state ≠ .draining ∨ ¬ empty → t.prism p = s.prism p)) ∧
  (∀ (p : Nat) (s : State), s.updates 3 p = true → exec (.prismReturn p) s = .next s) ∧
  ∀ (p : Nat) (s : State), s.updates 3 p = false → (∀ x ∈ s.ctxs, ∀ e ∈ x.2.window, e.unhanded = false) →
    ∃ t, exec (.prismReturn p) s = .next t ∧ (∀ j, j ≠ p → t.prism j = s.prism j) ∧ t.facets = s.facets ∧
      t.prism p = match (s.prism p).state with
        | .draining | .idle => { s.prism p with state := .active }
        | .offline => if (s.prism p).serviceable then { s.prism p with state := .idle } else s.prism p
        | .active => s.prism p

/-- R381: REMOVE takes a prism offline; an entry that is issued with a range task there faults with POISON and the prism's number, and the
saved states of its facets are gone. -/
def Claims.Removals : Prop :=
  ∀ (p c seq : Nat) (e : Entry) (s : State), (∀ i, i < 8 → (∀ n ∈ (s.facet (8 * p + i)).slots, n.2.job = .vacant) ∧ (s.facet (8 * p + i)).savedSlots = []) →
    (s.prism p).conts = [] → (s.prism p).contsWait = [] → (∃ r ∈ (s.prism p).ranges, r.c = c ∧ r.seq = seq) →
    (∀ r ∈ (s.prism p).ranges, r.c = c ∧ r.seq = seq) → s.entry c seq = some e → e.state = .issued →
    ∃ t, exec (.remove p) s = .next t ∧ (t.prism p).state = .offline ∧ (∀ i, i < 8 → (t.facet (8 * p + i)).stash = none) ∧
      ∃ u, t.entry c seq = some u ∧ u.state = .faulted ∧ ∃ r, u.fault = some r ∧ r.cause = cPOISON ∧ r.addr = 0 ∧ r.info = BitVec.ofNat 64 p

/-- R378: SCFG stores FLOW, and TPOOL up to 16; a move of the frame area keeps TPOOL. -/
def Claims.SliceConfiguration : Prop :=
  ∀ (sl : Nat) (v : Word) (s : State), (s.slice sl).cache = [] → (s.slice sl).quota = [] →
    ∃ t, exec (.scfgWrite sl v) s = .next t ∧ (∀ j, j ≠ sl → t.slice j = s.slice j) ∧ t.mem = s.mem ∧
      t.slice sl = { s.slice sl with
        flow := v.extractLsb' 16 16,
        tpool := if (s.slice sl).movesArea then (s.slice sl).tpool else BitVec.ofNat 5 (min (v.toNat % 32) 16) }

/-- R362 to R372, R378, R381, R383, R437: what supervisor registers do. The model's choices in it are those of log 30. -/
def Obligations.SupervisorRegisters : Prop :=
  Claims.ContextsBecomeValid ∧ Claims.ContextsBecomeInvalid ∧ Claims.NotifyWrites ∧ Claims.QueueMaps ∧ Claims.Hints ∧
    Claims.RegisterAddresses ∧ Claims.RegistersOutOfReach ∧ Claims.PrismStates ∧ Claims.Removals ∧ Claims.SliceConfiguration

/-- R392: a page, context or partition invalidation drops the translation entries in its reach at every slice of the partition; it is refused
with ERR while another is in progress or for a context of another partition. -/
def Claims.InvalidationsBegin : Prop :=
  ∀ (k p c size : Nat) (s : State), s.supervises k = true → s.partOfCore k = some p →
    let x := s.core k
    let asn := (s.ctx c).d.asn
    let bytes := if size = 0 then 2 ^ 16 else if size = 1 then 2 ^ 21 else 2 ^ 33
    let lo := x.tiva.toNat * 2 ^ 16 % 2 ^ 52 / bytes * bytes
    let refused := { s with cores := kset k { x with tiErr := true } s.cores }
    let mine := (s.ctx c).live = true ∧ (s.ctx c).d.part = p
    (x.tiWork = none → mine → (∃ t, exec (.invalidatePage k c size) s = .next t ∧ Invalidates s t k p (InReach asn lo bytes)) ∧
      ∃ t, exec (.invalidateContext k c) s = .next t ∧ Invalidates s t k p (fun e => e.asn = asn)) ∧
    (x.tiWork = none → ∃ t, exec (.invalidatePartition k) s = .next t ∧
      Invalidates s t k p (fun e => ∃ y ∈ s.ctxs, y.2.live = true ∧ y.2.d.part = p ∧ y.2.d.asn = e.asn)) ∧
    (x.tiWork ≠ none ∨ ¬ mine → exec (.invalidatePage k c size) s = .next refused ∧ exec (.invalidateContext k c) s = .next refused) ∧
    (x.tiWork ≠ none → exec (.invalidatePartition k) s = .next refused)

/-- R392: once every prism of the partition has given up its lines in scope, and no ".d" update in scope waits for its batch, BUSY clears;
lines out of scope stay. -/
def Claims.InvalidationsEnd : Prop :=
  ∀ (k p asn : Nat) (s : State), .invalidationDone k ∈ s.due → s.partOfCore k = some p → (s.core k).tiWork = some (.context asn) → s.reqs = [] →
    (∀ x ∈ s.slices, ∀ r ∈ x.2.records, (s.ctx r.c).d.asn ≠ asn) →
    (∀ r l, l ∈ (s.prism r).cache → l.2.dirty = 0 ∧ l.2.upd = none) →
    ∃ t, exec (.invalidationDone k) s = .next t ∧ (t.core k).tiWork = none ∧ t.mem = s.mem ∧
      ∀ r, (r ∈ (s.part p).prisms → ∀ l, l ∈ (t.prism r).cache ↔ l ∈ (s.prism r).cache ∧ l.1 / 2 ^ 55 ≠ asn) ∧
        (r ∉ (s.part p).prisms → t.prism r = s.prism r)

/-- R396, R450: the first check that fails refuses a command with its code, and the command has no effect; an update of the slice's memory
controller refuses it as a running command does. That OP 3 makes the check of ERR 4 of
MGPA is the model's reading (log 70). -/
def Claims.MigrationsRefused : Prop :=
  ∀ (sl c sub : Nat) (s : State),
    let x := s.slice sl
    let y := s.slice sub
    let va := BitVec.ofNat 64 (x.mgva.toNat * 65536)
    let no := fun (i : Instr) (code st : Nat) => ∃ t, exec i s = .next t ∧ MigAnswers s t sl code st
    let busy := x.mgst = 1 ∨ s.updates 1 sl = true
    let was := if x.mgst = 1 then 1 else 3
    (busy → no (.movePage sl c) 1 was ∧ no (.moveFrameArea sl) 1 was ∧ no (.transferHome sl sub) 1 was) ∧
    (¬ busy → s.whereIs va ≠ .here ∨ s.home c va ≠ some sl → no (.movePage sl c) 2 3) ∧
    (¬ busy → s.whereIs va = .here → s.home c va = some sl →
      (∀ w, s.walk sl c (localVa va) = .leaf w 65536 → leafVer w = true) → no (.movePage sl c) 3 3) ∧
    (∀ w a, ¬ busy → s.whereIs va = .here → s.home c va = some sl → s.walk sl c (localVa va) = .leaf w 65536 → leafVer w = false →
      walkEntry s (localVa va) levels (s.ctx c).d.root = some a →
      (s.destOk sl (s.ctx c).d.world 65536 = false → no (.movePage sl c) 4 3) ∧
      (s.destOk sl (s.ctx c).d.world 65536 = true →
        ∃ t, exec (.movePage sl c) s = .next t ∧ MigStarts s t sl (.page c (localVa va) (x.mgpa.toNat * 65536) a))) ∧
    (¬ busy → s.destOk sl x.world (max 65536 x.areaBytes) = false → no (.moveFrameArea sl) 4 3) ∧
    (¬ busy → s.destOk sl x.world (max 65536 x.areaBytes) = true → x.sfrs = 0 → no (.moveFrameArea sl) 5 3) ∧
    (¬ busy → s.destOk sl x.world x.areaBytes = true → x.sfrs ≠ 0 →
      ∃ t, exec (.moveFrameArea sl) s = .next t ∧ MigStarts s t sl (.area (x.mgpa.toNat * 65536))) ∧
    (¬ busy → s.destOk sl x.world 65536 = false → no (.transferHome sl sub) 4 3) ∧
    (¬ busy → s.destOk sl x.world 65536 = true →
      (sub = sl ∨ s.partOfSlice sl ≠ s.partOfSlice sub → no (.transferHome sl sub) 5 3) ∧
      (sub ≠ sl → s.partOfSlice sl = s.partOfSlice sub →
        (8192 < x.versions.length + y.versions.length ∨ 4096 < x.parkq.length + y.parkq.length → no (.transferHome sl sub) 6 3) ∧
        (x.versions = [] → y.versions.length ≤ 8192 → x.parkq.length + y.parkq.length ≤ 4096 →
          ∃ t, exec (.transferHome sl sub) s = .next t ∧ MigStarts s t sl (.home sub))))

/-- R397: a page move copies the frame with its poison to the new one, puts the new frame into the leaf, drops the translation and is done;
every other byte is as before. -/
def Claims.PagesMove : Prop :=
  ∀ (sl c va dst a : Nat) (s : State), memoryWf s.mem = true → .migrationCopyDone sl ∈ s.due → (s.slice sl).mig = .page c va dst a → s.reqs = [] →
    (s.slice sl).cache = [] → (s.slice sl).parkq = [] →
    let src := fieldAt (s.hbm64 a) 16 28 * 65536
    dst % 65536 = 0 → dst < 2 ^ 44 → dst ≠ src → a + 8 ≤ dst ∨ dst + 65536 ≤ a →
    s.mayTouch (s.slice sl).world a = true → s.mayTouch (s.slice sl).world (a + 7) = true →
    ∃ t, exec (.migrationCopyDone sl) s = .next t ∧ (∀ i, i < 65536 → readByte t.mem (dst + i) = readByte s.mem (src + i)) ∧
      t.hbm64 a = BitVec.ofNat 64 (s.hbm64 a).toNat - BitVec.ofNat 64 src + BitVec.ofNat 64 dst ∧
      (∀ b, (b < dst ∨ dst + 65536 ≤ b) → (b < a ∨ a + 8 ≤ b) → readByte t.mem b = readByte s.mem b) ∧
      (∀ i, i < 1024 → (dst / 64 + i ∈ t.memP ↔ src / 64 + i ∈ s.memP)) ∧
      (∀ e ∈ (t.slice sl).tlb, ¬ (e.asn = (s.ctx c).d.asn ∧ e.base ≤ va ∧ va < e.base + e.size)) ∧
      (t.slice sl).mgst = 2 ∧ (t.slice sl).mig = .none

/-- R399, R400: a move of the frame area changes SFRB (the frames' bytes are the versions' own, log 11); a transfer of a home, where the
substitute has the room that the command found, gives it every version and ".d" record and puts it into every slice list. -/
def Claims.AreasAndHomesMove : Prop :=
  (∀ (sl dst : Nat) (s : State), .migrationCopyDone sl ∈ s.due → (s.slice sl).mig = .area dst → (s.slice sl).parkq = [] →
    ∃ t, exec (.migrationCopyDone sl) s = .next t ∧ t.mem = s.mem ∧
      t.slice sl = { s.slice sl with sfrb := BitVec.ofNat 28 (dst / 65536), mig := .none, mgst := 2, paused := false } ∧
      ∀ j, j ≠ sl → t.slice j = s.slice j) ∧
  ∀ (sl sub : Nat) (s : State), .migrationCopyDone sl ∈ s.due → (s.slice sl).mig = .home sub → s.reqs = [] → sub ≠ sl →
    (s.slice sl).cache = [] → (s.slice sl).parkq = [] → (s.slice sl).quota = [] → (s.slice sub).quota = [] →
    (s.slice sub).versions.length + (s.slice sl).versions.length ≤ 8192 → (placeAll (s.slice sub) (s.slice sl).versions).isSome = true →
    (s.slice sub).parkq.length ≤ 4096 → (s.slice sub).hold.length + (s.slice sl).hold.length ≤ 16 →
    ∃ t, exec (.migrationCopyDone sl) s = .next t ∧ (t.slice sl).versions = [] ∧ (t.slice sl).redirect = some sub ∧ (t.slice sl).mgst = 2 ∧
      (t.slice sl).tlb = [] ∧ (t.slice sl).hold = [] ∧ (t.slice sub).hold.Perm ((s.slice sub).hold ++ (s.slice sl).hold) ∧
      (∃ l, (t.slice sub).versions = (s.slice sub).versions ++ l ∧ l.length = (s.slice sl).versions.length ∧
        ∀ (i : Nat) (e u : VEntry), (s.slice sl).versions[i]? = some e → l[i]? = some u → u = { e with pool := u.pool }) ∧
      t.mem = s.mem ∧ ∀ p, (t.part p).homes = (s.part p).homes.map fun n => if n = sl then sub else n

/-- R392, R396, R397, R399, R400: invalidation and migration. The model's choices in it are those of logs 31 and 70. -/
def Obligations.InvalidationAndMigration : Prop :=
  Claims.InvalidationsBegin ∧ Claims.InvalidationsEnd ∧ Claims.MigrationsRefused ∧ Claims.PagesMove ∧ Claims.AreasAndHomesMove

/-! Answers of a service core. -/

/-- R344, R347: a timer that has run out ends the WAITI of a core that has its interrupt enabled, whatever IE. -/
def Claims.TimersEndWaits : Prop :=
  ∀ (k : Nat) (s : State), (s.core k).run = .running → (s.core k).park.map (·.kind) = some .waitCnt → (s.core k).stimer ≠ 0 →
    (s.core k).stimer.toNat ≤ (s.core k).cyc → (s.core k).sie.getLsbD 0 = true →
    ∃ t, exec (.timer k) s = .next t ∧ RetiresAs s t (.core k) [] ∧ (t.core k).park = none ∧ (t.core k).level = (s.core k).level ∧ MemorySame s t

/-- R356: a parked request that found the fault queue full is posted again: it enters the ring of its context's service core with a token,
or, while the ring is full, asks once more 64 ticks later. -/
def Claims.MissesArePostedAgain : Prop :=
  ∀ (id k : Nat) (r : Req) (s : State), .faultQueueRepost id ∈ s.due → s.req id = some r → r.stage = .missing none →
    (s.ctx r.ctx).d.score = some k → (∀ e ∈ s.reqs, ∀ q, e.2.stage ≠ .missing (some q)) →
    let at' := (s.core k).sfqb.toNat * 4096 + 128 * (s.core k).sfqTail.toNat
    ∃ t, exec (.faultQueueRepost id) s = .next t ∧ (∀ b, t.thread b = s.thread b) ∧
      if (s.core k).queueFull = true then
        (t.req id).map (·.stage) = some (.missing none) ∧ (s.tick + 64, .faultQueueRepost id) ∈ t.later ∧ t.mem = s.mem ∧ t.cores = s.cores
      else ∃ tok, (t.req id).map (·.stage) = some (.missing (some tok)) ∧ tok < 2 ^ 32 ∧ (t.core k).sfqTail = (s.core k).sfqTail + 1 ∧
        (s.mayTouch (s.core k).wld at' = true → s.mayTouch (s.core k).wld (at' + 127) = true →
          let b := readBytes t.mem at' 128
          fieldOf b 0 1 = 1 ∧ fieldOf b 2 1 = r.ctx % 256 ∧ fieldOf b 4 4 = tok ∧ fieldOf b 8 8 = r.va.toNat)

/-- R357: VERDICT 0 sends the parked request of a page again to its slice; VERDICT 1 and 2 end it with NOMAP and ACCESS, precise at its
instruction where a tile task's load was not yet accepted. -/
def Claims.VerdictsOnMisses : Prop :=
  ∀ (k tok id sl f n : Nat) (r : Req) (d : BitVec 5) (ty : LdTyp) (s : State), MissParked s tok id r sl → r.who = .slot f n → r.op = .load d ty →
    (s.facet f).parked = [] → (∃ c q o b, (s.slot f n).job = .task c q o b) →
    (.sfrplyRetry k tok ∈ s.due → ∃ t, exec (.sfrplyRetry k tok) s = .next t ∧ t.req id = some { r with stage := .sent } ∧
      .acceptance id noAnswer ∈ t.due ∧ (t.slice sl).parkq = [] ∧ (∀ b, t.thread b = s.thread b) ∧ t.facets = s.facets ∧ BytesSame s t) ∧
    (.sfrplyNomap k tok ∈ s.due → ∃ t, exec (.sfrplyNomap k tok) s = .next t ∧ t.req id = none ∧
      Halts s t f n { cause := cNOMAP, pc := r.pc, addr := r.va }) ∧
    (.sfrplyAccess k tok ∈ s.due → ∃ t, exec (.sfrplyAccess k tok) s = .next t ∧ t.req id = none ∧
      Halts s t f n { cause := cACCESS, pc := r.pc, addr := r.va })

/-- R357, R324: the verdict on a stream fault is kept with the address at which the stream goes on, 0 as SRESUME and 1 and 2 as SABANDON;
at the next boundary of the stream the core continues there and no fault is being handled. Where no core runs the stream then, it continues
there when a core next enters it (log 27). -/
def Claims.VerdictsOnStreamFaults : Prop :=
  (∀ (k tok c : Nat) (ipc : Option Word) (s : State), FaultNamed s tok c ipc →
    let ok := fun (i : Instr) (resume : Bool) => i ∈ s.due → ∃ t, exec i s = .next t ∧ (t.ctx c).phase = .answered resume ipc ∧
      .faultDelivery c ∈ t.due ∧ (∀ b, t.thread b = s.thread b) ∧ t.mem = s.mem ∧ t.facets = s.facets
    ok (.sfrplyRetry k tok) true ∧ ok (.sfrplyNomap k tok) false ∧ ok (.sfrplyAccess k tok) false) ∧
  (∀ (c : Nat) (resume : Bool) (ipc : Word) (s : State), .faultDelivery c ∈ s.due → (s.ctx c).phase = .answered resume (some ipc) →
    s.reqs = [] → (resume = false ∨ (s.ctx c).replay = []) →
    let settled := fun (t : State) => (t.ctx c).phase = .none ∧ (t.ctx c).replay = [] ∧ (t.ctx c).window = (s.ctx c).window ∧ t.mem = s.mem
    (∀ k, s.streamCore c = some k → (s.core k).atBoundary = true → ∃ t, exec (.faultDelivery c) s = .next t ∧ settled t ∧
      (t.core k).th.pc = ipc ∧ (t.core k).th.x = (s.core k).th.x) ∧
    (s.streamCore c = none → ∃ t, exec (.faultDelivery c) s = .next t ∧ settled t ∧ (t.ctx c).goAt = some ipc ∧
      ∀ b, t.thread b = s.thread b)) ∧
  ∀ (k : Nat) (go : Word) (s : State), s.turn = .core k → (s.core k).level = 1 → Ready s {} → (s.core k).pl = false →
    (s.ctx (s.core k).sctx.toNat).goAt = some go →
    ∃ t, exec .tret s = .next t ∧ (t.core k).level = 0 ∧ (t.core k).th.pc = go ∧ (t.ctx (s.core k).sctx.toNat).goAt = none

/-- R344, R347, R356, R357: the timer, and what a service core's answers do. -/
def Obligations.ServiceAnswers : Prop :=
  Claims.TimersEndWaits ∧ Claims.MissesArePostedAgain ∧ Claims.VerdictsOnMisses ∧ Claims.VerdictsOnStreamFaults

/-! Pre-emption. -/

/-- R358: a save of a facet of the core's partition that holds no saved state begins: the facet drains, and its drain's end is due. Another
is refused: STATUS 3, and SIP.PRE. -/
def Claims.SavesBegin : Prop :=
  ∀ (k f save : Nat) (s : State), .spreSave k f save ∈ s.due →
    let ours := s.facetOf k f = true ∧ (s.facet f).stash = none ∧ (s.facet f).save = .idle
    ∃ t, exec (.spreSave k f save) s = .next t ∧
      (ours → (t.facet f).save = .draining ∧ (t.facet f).saveArea = save ∧ (t.facet f).saveCore = k ∧ (t.facet f).stash.isSome = true ∧
        (t.facet f).diverting = true ∧ .saveDrainEnd f ∈ t.due) ∧
      (¬ ours → t.facets = s.facets ∧ (t.core k).sipPre = true ∧ (t.core k).th = (s.core k).th ∧
        (AreaOk s f save → readBytes t.mem save 4 = toBytes 4 3))

/-- R358: a slice that still parks a VGET or VRETAIN of a draining facet removes it: the request stands in the request list. -/
def Claims.WithdrawalsAreAnswered : Prop :=
  ∀ (id f n : Nat) (r : Req) (u : Stash) (s : State), .withdrawalAnswer id true ∈ s.due → s.req id = some r → r.who = .slot f n →
    (∃ v la lb lsize, r.op = .vget v la lb lsize) ∨ (∃ v, r.op = .vretain v) → r.stage = .onVersion → (s.facet f).save = .draining →
    s.whereIs r.va = .here → (s.facet f).stash = some u → (∀ x ∈ s.slices, x.2.versions = []) →
    ∃ t, exec (.withdrawalAnswer id true) s = .next t ∧ t.req id = none ∧ (t.facet f).stash = some { u with reqs := kset id r u.reqs } ∧
      (t.slot f n).cnt = (s.slot f n).cnt ∧ (∀ b, t.thread b = s.thread b) ∧ t.mem = s.mem

/-- R358, R359: a drained facet is saved: each task stands in the saved state and its slot is vacant, the grant is 0, STATUS is 2 and SIP.PRE
raised; the slot's record in the area holds its scalar registers and its pc. -/
def Claims.SavesEnd : Prop :=
  ∀ (f : Nat) (u : Stash) (s : State), .saveDrainEnd f ∈ s.due → (s.facet f).save = .draining → (s.facet f).stash = some u → Drained s f →
    let x := s.facet f
    ∃ t, exec (.saveDrainEnd f) s = .next t ∧ (t.facet f).save = .idle ∧ (t.facet f).grant = 0 ∧ (t.core x.saveCore).sipPre = true ∧
      (∀ n c q o b, n < 15 → (s.slot f n).job = .task c q o b → let y := kget {} (t.facet f).savedSlots n
        (t.slot f n).job = .vacant ∧ y.job = .task c q o b ∧ y.th.x = (s.slot f n).th.x ∧ y.th.pc = (s.slot f n).th.pc ∧ y.cnt = (s.slot f n).cnt ∧ y.holds = (s.slot f n).holds) ∧
      (AreaOk s f x.saveArea → readBytes t.mem x.saveArea 4 = toBytes 4 2 ∧
        ∀ n c q o b, n < 15 → (s.slot f n).job = .task c q o b →
          let rec' := x.saveArea + 0x400 + 1024 * n
          readBytes t.mem (rec' + 0x100) 8 = toBytes 8 (s.slot f n).th.pc.toNat ∧
            ∀ r : BitVec 5, r ≠ 0 → readBytes t.mem (rec' + 8 * (r.toNat - 1)) 8 = toBytes 8 ((s.slot f n).th.rx r).toNat)

/-- R360: a resume of the facet that was saved there restores a slot whose record is VALID and whose entry is unretired, with the registers
that its record holds and the grant that the area's header holds, STATUS 5 and SIP.PRE. A resume without a saved state, of a facet that holds
a task, of one that the area does not name, or of one outside the core's partition (log 37), is refused with STATUS 3. -/
def Claims.Resumes : Prop :=
  (∀ (k f a n c seq o : Nat) (b : Bool) (sl : Slot) (u : Stash) (s : State), .spreResume k f a ∈ s.due → s.facetOf k f = true →
    (s.facet f).save = .idle → (s.facet f).stash = some u → u.slots = [(n, sl)] → u.kept = false → u.mq0 = [] → u.mq1 = [] → u.reqs = [] →
    u.refused = [] → n < 15 → (s.facet f).holdsTask = false → (s.facet f).divMsgs = [] → AreaOk s f a →
    s.areaReadable (s.prism (prismOf f)).world a = true → ofBytes (readBytes s.mem (a + 4) 2) = f →
    let g := min 256 (ofBytes (readBytes s.mem (a + 8) 2) / 8 * 8)
    g ≤ s.lanesFree (prismOf f) + (s.facet f).reserved → ofBytes (readBytes s.mem (a + 0x0A) 1) % 4 = 0 →
    sl.job = .task c seq o b → (s.entry c seq).isSome = true → ofBytes (readBytes s.mem (a + 0x400 + 1024 * n + 0xFE) 1) % 2 = 1 →
    let rec' := a + 0x400 + 1024 * n
    ∃ t, exec (.spreResume k f a) s = .next t ∧ (t.facet f).save = .idle ∧ (t.facet f).stash = none ∧ (t.facet f).diverting = false ∧
      (t.facet f).grant = g ∧ (t.core k).sipPre = true ∧ readBytes t.mem a 4 = toBytes 4 5 ∧ (t.slot f n).job = .task c seq o b ∧
      (t.slot f n).th.pc = BitVec.ofNat 64 (ofBytes (readBytes s.mem (rec' + 0x100) 8)) &&& ~~~3#64 ∧
      ∀ r : BitVec 5, r ≠ 0 → (t.slot f n).th.rx r = BitVec.ofNat 64 (ofBytes (readBytes s.mem (rec' + 8 * (r.toNat - 1)) 8))) ∧
  ∀ (k f a : Nat) (s : State), .spreResume k f a ∈ s.due → (s.facet f).save = .idle → (s.facet f).stash = none ∨ (s.facet f).holdsTask = true ∨
    ofBytes (readBytes s.mem (a + 4) 2) ≠ f ∨ s.facetOf k f = false →
    ∃ t, exec (.spreResume k f a) s = .next t ∧ t.facets = s.facets ∧ (t.core k).sipPre = true ∧
      (AreaOk s f a → readBytes t.mem a 4 = toBytes 4 3)

/-- R358 to R360: the save and the resume of a facet. The model's choices in it are those of logs 37 and 62. -/
def Obligations.FacetsAreSavedAndResumed : Prop :=
  Claims.SavesBegin ∧ Claims.WithdrawalsAreAnswered ∧ Claims.SavesEnd ∧ Claims.Resumes

/-! Halting, holding and stepping. -/

/-- R405, R416, R420: HALT asks a running slot to halt: it stops at its next boundary, and one that is parked abandons its instruction and
halts with cause BKPT, or with STEP where its group's hold has met it in a step; slot 15 without a handler halts too, and serves no more
messages. Of another slot that does not run the outcome is NOTHALTED. -/
def Claims.HaltRequests : Prop :=
  ∀ (f n : Nat) (s : State), InReachOf s f n →
    let x := s.slot f n
    ∃ t, exec (.halt f n) s = .next t ∧ t.mem = s.mem ∧ (∀ b, t.thread b = s.thread b) ∧
      (x.job ≠ .vacant → x.trap = none → x.park = none → Outcome t 0 ∧ t.slot f n = { x with sdc := { x.sdc with haltReq := some 0xFF } }) ∧
      (∀ p, x.job ≠ .vacant → x.trap = none → x.park = some p → p.req = none → p.kind ≠ .sc →
        Outcome t 0 ∧ Halts s t f n (HaltRecord x)) ∧
      (n = 15 → x.job = .vacant → x.trap = none → x.park = none → Outcome t 0 ∧ Halts s t f n (HaltRecord x)) ∧
      (x.job = .vacant ∧ n ≠ 15 ∨ x.trap.isSome = true → Outcome t apNOTHALTED ∧ t.slot f n = x)

/-- R405, R409: REL sends the report that a halted slot holds, one of an open collection window with the close of the window; without one
the outcome is NOTHALTED. -/
def Claims.HeldReportsAreReleased : Prop :=
  ∀ (f n : Nat) (s : State), InReachOf s f n →
    let x := s.slot f n
    ∃ t, exec (.rel f n) s = .next t ∧ t.mem = s.mem ∧
      (∀ r c seq o b, x.held = some r → x.job = .task c seq o b → Outcome t 0 ∧ (t.slot f n).held = none ∧ (t.slot f n).trap = x.trap ∧
        (∀ b, t.thread b = s.thread b) ∧
        if (s.facet f).winFpx.contains n then t.due = s.due ∧ (t.facet f).reports = (s.facet f).reports ∧ (t.facet f).winFpx = (s.facet f).winFpx
        else (t.facet f).reports = (s.facet f).reports ++ [(n, c, seq, r)] ∧ .taskFault f n ∈ t.due) ∧
      (x.held = none → Outcome t apNOTHALTED ∧ t.facets = s.facets)

/-- R405, R409, R414, R415, R419: RUN lets a halted slot go on at its pc with its report discarded and its SKIP kept, STEP for one
instruction; of a slot that a save holds halted the step waits for the resume (R361). Of a slot that is not halted the outcome is
NOTHALTED. -/
def Claims.RunsAndSteps : Prop :=
  ∀ (f n : Nat) (s : State), InReachOf s f n →
    let x := s.slot f n
    let go := fun (t : State) => Outcome t 0 ∧ (t.slot f n).trap = none ∧ (t.slot f n).held = none ∧ (t.slot f n).job = x.job ∧
      (t.slot f n).sdc.skip = x.sdc.skip ∧ (t.slot f n).sdc.held = false ∧ (t.slot f n).sdc.haltReq = none ∧ t.mem = s.mem ∧
      ∀ b, t.thread b = s.thread b
    (∃ t, exec (.run f n) s = .next t ∧ (x.trap.isSome = true → go t ∧ (t.slot f n).sdc.stepping = x.sdc.stepping) ∧
      (x.trap = none → Outcome t apNOTHALTED ∧ t.slot f n = x)) ∧
    ∃ t, exec (.step f n) s = .next t ∧ (x.trap.isSome = true → go t ∧ (t.slot f n).sdc.stepping = some false) ∧
      (∀ u y, x.trap = none → x.job = .vacant → (s.facet f).stash = some u → u.slots = [(n, y)] → y.trap.isSome = true →
        Outcome t 0 ∧ (t.facet f).savedSlots = [(n, { y with sdc := { y.sdc with wish := some true } })]) ∧
      (x.trap = none → x.job ≠ .vacant → Outcome t apNOTHALTED ∧ t.slot f n = x)

/-- R418, R420: HSET marks every member of a group held and asks the running ones to halt, which one that is parked does at once; HCLR lets
the halted members go on that are still marked, and the others run on; both keep the groups in HSTAT. -/
def Claims.HoldGroups : Prop :=
  ∀ (c f n : Nat) (g : BitVec 16) (s : State), c < 64 → s.reachable c = true → s.members c g = [(f, n)] →
    (s.slot f n).job ≠ .vacant →
    let x := s.slot f n
    (∃ t, exec (.hset c g) s = .next t ∧ Outcome t 0 ∧ (t.ctx c).dbg.hstat = (s.ctx c).dbg.hstat ||| g ∧
      (x.trap = none → x.park = none → t.slot f n = { x with sdc := { x.sdc with held := true, haltReq := some 0xFF } }) ∧
      (∀ p, x.trap = none → x.park = some p → p.req = none → p.kind ≠ .sc →
        (t.slot f n).sdc.held = true ∧ Halts s t f n (HaltRecord { x with sdc := { x.sdc with held := true } })) ∧
      (x.trap.isSome = true → t.slot f n = { x with sdc := { x.sdc with held := true } }) ∧ t.mem = s.mem ∧ ∀ b, t.thread b = s.thread b) ∧
    ∃ t, exec (.hclr c g) s = .next t ∧ Outcome t 0 ∧ (t.ctx c).dbg.hstat = (s.ctx c).dbg.hstat &&& ~~~g ∧ (t.slot f n).sdc.held = false ∧
      (x.trap.isSome = true → x.sdc.held = true → (t.slot f n).trap = none) ∧ (x.sdc.held = false → t.slot f n = x) ∧
      (x.trap = none → x.sdc.held = true → x.sdc.haltReq = some 0xFF → (t.slot f n).trap = none ∧ (t.slot f n).sdc.haltReq = none) ∧
      t.mem = s.mem ∧ ∀ b, t.thread b = s.thread b

/-- R408: a detach clears ATT and the hold groups, lets what the debugger halted go on and sends what it claimed. -/
def Claims.Detaches : Prop :=
  ∀ (c f n : Nat) (s : State), c < 64 → s.reachable c = true → (s.ctx c).dbg.att = true → s.slotsOf c = [(f, n)] →
    (∃ q o b, (s.slot f n).job = .task c q o b) →
    let x := s.slot f n
    ∃ t, exec (.detach c) s = .next t ∧ Outcome t 0 ∧ (t.ctx c).dbg.att = false ∧ (t.ctx c).dbg.hstat = 0 ∧ (t.slot f n).sdc.held = false ∧
      (∀ y, x.trap = some y → y.cause = cBKPT ∨ y.cause = cWATCH ∨ y.cause = cSTEP → (t.slot f n).trap = none) ∧
      (∀ y r q o b, x.trap = some y → y.cause ≠ cBKPT → y.cause ≠ cWATCH → y.cause ≠ cSTEP → x.held = some r → x.job = .task c q o b →
        (t.slot f n).trap = some y ∧ (t.slot f n).held = none ∧ ((s.facet f).winFpx.contains n = false → .taskFault f n ∈ t.due)) ∧
      t.mem = s.mem ∧ ∀ b, t.thread b = s.thread b

/-- R411: a slot whose pc the only matching enabled breakpoint names halts before its instruction, with cause BKPT, the address and the
breakpoint's number. -/
def Claims.BreakpointsHalt : Prop :=
  ∀ (f n c i : Nat) (w : Word) (s : State), (∃ q o b, (s.slot f n).job = .task c q o b) → (s.slot f n).candidate (s.facet f).cyc = true →
    (s.facet f).save ≠ .draining → (s.slot f n).late = [] → (s.ctx c).dbg.att = true → (s.slot f n).sdc.skip = false →
    (s.slot f n).sdc.stepping ≠ some true → i < 8 → kfind i (s.ctx c).dbg.ibc = some w → w.getLsbD 0 = true → fieldAt w 1 2 < 2 →
    w.getLsbD 3 = false → fieldAt w 32 16 ≤ 1 → fieldAt (kget 0 (s.ctx c).dbg.iba i) 2 62 = fieldAt (s.slot f n).th.pc 2 62 →
    (∀ j, j ≠ i → (kget 0 (s.ctx c).dbg.ibc j).getLsbD 0 = false) →
    ∃ t, exec (.breakpointMatch f n) s = .next t ∧ t.mem = s.mem ∧
      Halts s t f n { cause := cBKPT, dbg := true, pc := (s.slot f n).th.pc, addr := (s.slot f n).th.pc, info := BitVec.ofNat 64 i }

/-- R413: a slot whose instruction touches a byte that a watchpoint of its context watches halts before the access, with cause WATCH, the
address of the byte and the watchpoint's number. -/
def Claims.WatchpointsHalt : Prop :=
  ∀ (f n c j a : Nat) (s : State), (∃ q o b, (s.slot f n).job = .task c q o b) → (s.slot f n).candidate (s.facet f).cyc = true →
    (s.facet f).save ≠ .draining → (s.slot f n).late = [] → (s.slot f n).sdc.skip = false → j < 4 → s.watches c j a = true →
    ∃ t, exec (.watchpointMatch f n j a) s = .next t ∧ t.mem = s.mem ∧
      Halts s t f n { cause := cWATCH, dbg := true, pc := (s.slot f n).th.pc, addr := BitVec.ofNat 64 a, info := BitVec.ofNat 64 j }

/-- R405, R408 to R419: what a debugger does to slots. The model's choices in it are those of logs 22 and 38. -/
def Obligations.DebugHaltsAndSteps : Prop :=
  Claims.HaltRequests ∧ Claims.HeldReportsAreReleased ∧ Claims.RunsAndSteps ∧ Claims.HoldGroups ∧ Claims.Detaches ∧ Claims.BreakpointsHalt ∧
    Claims.WatchpointsHalt

/-! The debug aperture. -/

/-- R424: the memory port reads 8 bytes of a context's memory at its home slice and writes them there; a misaligned address is BADADDR, a
missing translation NOMAP, a refusing page ACCESS, a poisoned granule POISON, and then nothing is written and a read gives 0. -/
def Claims.MemoryPort : Prop :=
  ∀ (c sl : Nat) (s : State), c < 64 → s.reachable c = true → s.home c s.dmva = some sl → s.whereIs s.dmva = .here → (s.slice sl).cache = [] →
    (∀ q j, (s.prismLine q j).upd = none) →
    let place := fun (acc : Access) => (s.findAt sl c s.dmva acc).1
    (∃ t, exec (.memoryPortRead c) s = .next t ∧ t.mem = s.mem ∧ t.dmctx.toNat = c ∧ t.dmwr = false ∧ (∀ b, t.thread b = s.thread b) ∧
      (s.dmva.toNat % 8 ≠ 0 → Outcome t apBADADDR ∧ t.dmdata = 0) ∧
      (s.dmva.toNat % 8 = 0 → place .read = .miss ∨ place .read = .fail cNOMAP → Outcome t apNOMAP ∧ t.dmdata = 0) ∧
      (s.dmva.toNat % 8 = 0 → place .read = .fail cACCESS → Outcome t apACCESS ∧ t.dmdata = 0) ∧
      ∀ pa leaf, s.dmva.toNat % 8 = 0 → place .read = .at pa leaf → pa % 8 = 0 →
        if pa / 64 ∈ s.memP then Outcome t apPOISON ∧ t.dmdata = 0
        else Outcome t 0 ∧ t.dmdata = BitVec.ofNat 64 (ofBytes (readBytes s.mem pa 8)) ∧ t.dmTaint = decide (pa / 32 ∈ s.memT)) ∧
    ∃ t, exec (.memoryPortWrite c) s = .next t ∧ t.dmctx.toNat = c ∧ t.dmwr = true ∧ t.dmdata = s.dmdata ∧ (∀ b, t.thread b = s.thread b) ∧
      (s.dmva.toNat % 8 ≠ 0 → Outcome t apBADADDR ∧ t.slices = s.slices) ∧
      (s.dmva.toNat % 8 = 0 → place .write = .miss ∨ place .write = .fail cNOMAP → Outcome t apNOMAP ∧ t.slices = s.slices) ∧
      (s.dmva.toNat % 8 = 0 → place .write = .fail cACCESS → Outcome t apACCESS ∧ t.slices = s.slices) ∧
      ∀ pa leaf, s.dmva.toNat % 8 = 0 → place .write = .at pa leaf → pa % 8 = 0 →
        if pa / 64 ∈ s.memP then Outcome t apPOISON ∧ t.slices = s.slices
        else Outcome t 0 ∧ t.sliceBytes sl pa 8 (leafDir leaf) = toBytes 8 s.dmdata.toNat

/-- R427: CLR zeroes every counter of the facet's slots and its histogram, and nothing else. -/
def Claims.StallCountersClear : Prop :=
  ∀ (f : Nat) (s : State), InReachOf s f 0 →
    ∃ t, exec (.clr f) s = .next t ∧ Outcome t 0 ∧ (∀ b, kget 0 (t.facet f).hist b = 0) ∧ (∀ n k, kget 0 (t.slot f n).stalls k = 0) ∧
      (∀ n, { t.slot f n with stalls := (s.slot f n).stalls } = s.slot f n) ∧ (∀ g, g ≠ f → t.facet g = s.facet g) ∧ t.mem = s.mem

/-- R404, R405, R423: an 8-byte access through the aperture: an address that no register occupies is BADADDR, one out of reach DENIED; a read
gives the register. A general register of a slot is written where the slot is halted, and NOTHALTED otherwise; the address and the
data port are written at any time. An access of another size, and any before the bring-up is complete, does nothing and reads 0. -/
def Claims.ApertureAccesses : Prop :=
  ∀ (a : BitVec 40) (v : Word) (s : State),
    let d := debugAt a.toNat
    (∀ acc, s.power ≠ .up ∨ acc.size ≠ 8 → exec (.apertureAccess acc a v) s = .next { s with apData := 0 }) ∧
    (s.power = .up →
      (∀ wr, s.debugReg d = none → exec (.apertureAccess ⟨wr, 8⟩ a v) s = .next ({ s with apData := 0 }.apst apBADADDR)) ∧
      (∀ wr r, s.debugReg d = some r → s.debugReach d = false → exec (.apertureAccess ⟨wr, 8⟩ a v) s = .next ({ s with apData := 0 }.apst apDENIED)) ∧
      (∀ r, s.debugReg d = some r → s.debugReach d = true → exec (.apertureAccess ⟨false, 8⟩ a v) s = .next ({ s with apData := r }.apst 0)) ∧
      (∀ f n (r : BitVec 5), f < 2048 → n < 16 → a.toNat = 0x4000 * (16 * f + n) + 0x100 + 8 * r.toNat → s.reachesPrism (prismOf f) = true →
        ∃ t, exec (.apertureAccess ⟨true, 8⟩ a v) s = .next t ∧ t.mem = s.mem ∧
          if (s.slot f n).trap = none then Outcome t apNOTHALTED ∧ t.slot f n = s.slot f n
          else Outcome t 0 ∧ (t.slot f n).th.holds r v false ∧ (s.slot f n).th.keepsX (t.slot f n).th [r] ∧
            (t.slot f n).th.pc = (s.slot f n).th.pc ∧ ∀ b, b ≠ .slot f n → t.thread b = s.thread b) ∧
      (a.toNat = 0x300000010 → exec (.apertureAccess ⟨true, 8⟩ a v) s = .next { s.apst 0 with dmva := v }) ∧
      (a.toNat = 0x300000018 → exec (.apertureAccess ⟨true, 8⟩ a v) s = .next { s.apst 0 with dmdata := v }))

/-- R404: an update of the test port performs the operation in its data register, a read's result standing there afterwards, with the
effects that the same access has over the other transport. -/
def Claims.TestPortUpdates : Prop :=
  ∀ (v : BitVec 112) (s : State), s.power = .up →
    let a := v.extractLsb' 0 40
    let x := v.extractLsb' 40 64
    let put := { s with testPort := v &&& 0x3FFFFFFFFFFFFFFFFFFFFFFFFFF#112 }
    (v.extractLsb' 104 2 = 1 → ∃ t u, exec (.testPortUpdate v) s = .next t ∧ exec (.apertureAccess ⟨false, 8⟩ a x) put = .next u ∧
      t.testPort.extractLsb' 40 64 = u.apData ∧ t.testPort.extractLsb' 0 40 = a ∧ { t with testPort := u.testPort } = u) ∧
    (v.extractLsb' 104 2 = 2 → exec (.testPortUpdate v) s = exec (.apertureAccess ⟨true, 8⟩ a x) put) ∧
    (v.extractLsb' 104 2 = 0 ∨ v.extractLsb' 104 2 = 3 → exec (.testPortUpdate v) s = .next put)

/-- R405, R406: an access that finds no free cycle ends with TIMEOUT, reads as zero and has no effect; one of the memory port that is under
way to another device comes to nothing. -/
def Claims.ApertureTimeouts : Prop :=
  ∀ s : State, ∃ t, exec .apertureTimeout s = .next t ∧ Outcome t apTIMEOUT ∧ t.apErr = true ∧ t.apData = 0 ∧
    t.reqs = s.reqs.filter (fun kr => !kr.2.op.isPort) ∧
    { t with apLast := s.apLast, apErr := s.apErr, apData := s.apData, reqs := s.reqs } = s

/-- R404 to R406, R423, R424, R427: the debug aperture, its memory port and the test port. The model's choices in it are those of log 39. -/
def Obligations.DebugAperture : Prop :=
  Claims.MemoryPort ∧ Claims.StallCountersClear ∧ Claims.ApertureAccesses ∧ Claims.TestPortUpdates ∧ Claims.ApertureTimeouts

/-! Triggers and the time base. -/

/-- R431 to R433: the software event, the compare tick and the trigger pin make the start of every idle enabled channel due that names the
event, and the stop of every running one; nothing else changes. -/
def Claims.EventsReachChannels : Prop :=
  ∀ (k : Nat) (s : State),
    let fires := fun (name : BitVec 16) (t : State) =>
      (∀ j c, (j, c) ∈ s.chans → (c.en = true → c.run = false → c.startev = name → .channelStart j ∈ t.due) ∧
        (c.run = true → c.stopev = name → .channelStop j ∈ t.due)) ∧
      (∀ i, i ∈ t.due → (∀ j, i ≠ .channelStart j ∧ i ≠ .channelStop j) → i ∈ s.due) ∧ t.chans = s.chans ∧ t.mem = s.mem ∧ t.facets = s.facets
    (∃ t, exec .testPortTrigger s = .next t ∧ fires (eventName 1 0) t) ∧
    (k < 32 → s.reachesChan k = true → ∃ t, exec (.tsw k) s = .next t ∧ Outcome t 0 ∧ fires (eventName 5 k) t) ∧
    (k < 32 → s.reachesChan k = false → exec (.tsw k) s = .next (s.apst apDENIED)) ∧
    (.timeBaseCompare k ∈ s.due → ∃ t, exec (.timeBaseCompare k) s = .next t ∧ fires (eventName 6 k) t)

/-- R430, R433, R443: an idle enabled channel starts in the tick of its start event, unless it was running in that tick: RUN, TBEG, its
actions 64 ticks after it, and its start forwarded by every working port whose WFWD names it; a running one stops in the tick of its stop
event: TEND, its actions 64 ticks after it, and EN cleared where ONCE is set. -/
def Claims.ChannelsStartAndStop : Prop :=
  ∀ (k : Nat) (c : Chan) (s : State), kfind k s.chans = some c →
    (.channelStart k ∈ s.due → c.en = true → c.run = false → (∀ w ∈ c.past, ¬ (w.1 ≤ s.eventTick c.startev ∧ s.eventTick c.startev ≤ w.2)) →
      ∃ t, exec (.channelStart k) s = .next t ∧ kfind k t.chans = some { c with run := true, tbeg := BitVec.ofNat 64 (s.eventTick c.startev) } ∧
      (∀ p, p < 16 → (kget 0 s.wfwd p).getLsbD k = true → (kget {} s.ports p).trained = true → (p, k, s.eventTick c.startev) ∈ t.trgs) ∧
      t.actions = s.actions ++ [(s.eventTick c.startev + 64, k, true, false)] ∧ t.mem = s.mem ∧ ∀ b, t.thread b = s.thread b) ∧
    (.channelStop k ∈ s.due → c.run = true → ∃ t p, exec (.channelStop k) s = .next t ∧
      kfind k t.chans = some { c with run := false, tend := BitVec.ofNat 64 (s.eventTick c.stopev), en := c.en && !c.once, past := p } ∧
      (c.tbeg.toNat, s.eventTick c.stopev) ∈ p ∧
      t.actions = s.actions ++ [(s.eventTick c.stopev + 64, k, false, false)] ∧ t.mem = s.mem ∧ ∀ b, t.thread b = s.thread b) ∧
    ((c.run = true ∨ c.en = false) → .channelStart k ∈ s.due → exec (.channelStart k) s = .next (s.done (.channelStart k))) ∧
    (c.run = false → .channelStop k ∈ s.due → exec (.channelStop k) s = .next (s.done (.channelStop k)))

/-- R442: the master ignores SYN; another device moves its count towards T, never backwards and by at most 8 ticks. -/
def Claims.TimeFollowsTheMaster : Prop :=
  ∀ (u : Nat) (s : State), ∃ t, exec (.syn u) s = .next t ∧
    if s.master = true then t = s
    else s.tick ≤ t.tick ∧ t.tick ≤ s.tick + 8 ∧ (u ≤ s.tick → t = s) ∧ (s.tick ≤ u → u ≤ s.tick + 8 → t.tick = u)

/-- R443: a forwarded start occurs at tick T + 4,096 here: before that tick it is kept until then, and one that comes late starts its channel
at once and is marked late. -/
def Claims.ForwardedTriggers : Prop :=
  ∀ (ch u : Nat) (s : State), .trg ch u ∉ s.due →
    (s.tick < u + 4096 → exec (.trg ch u) s = .next { s with later := s.later ++ [(u + 4096, .trg ch u)] }) ∧
    ∀ k c, u + 4096 ≤ s.tick → s.chans = [(k, c)] → c.startev = eventName 7 ch → c.stopev = 0 → c.en = true → c.run = false → c.hold = false →
      c.snps = true → c.past = [] → k < 32 → ch < 32 → s.actions = [] →
      ∃ t, exec (.trg ch u) s = .next t ∧ kfind k t.chans = some { c with run := true, tbeg := BitVec.ofNat 64 s.tick } ∧ t.snap.v = true ∧
        t.snap.seq = s.snap.seq + 1 ∧ t.snap.ch = BitVec.ofNat 8 k ∧ t.snap.late = decide (u + 4096 < s.tick) ∧
        t.snap.ts = BitVec.ofNat 64 s.tick ∧ t.mem = s.mem ∧ ∀ b, t.thread b = s.thread b

/-- R430 to R434, R442, R443: triggers, channels and the domain's time base. The model's choices in it are those of log 40. -/
def Obligations.TriggersAndTime : Prop :=
  Claims.EventsReachChannels ∧ Claims.ChannelsStartAndStop ∧ Claims.TimeFollowsTheMaster ∧ Claims.ForwardedTriggers

/-! The monitor. -/

/-- R364, R365, R448: PART of a secure core gives a free prism to a partition, and takes an idle or offline one from it; another caller, a
prism that is owned and the removal of an active or draining one are refused. -/
def Claims.PartitionsChange : Prop :=
  ∀ (k : Nat) (s : State), Calls s k (.part (.core k)) →
    let p := callArg s k 1
    let i := callArg s k 3
    p < 16 → callArg s k 2 = 0 → i < 256 →
    ∃ t, exec (.part (.core k)) s = .next t ∧ t.mem = s.mem ∧ t.facets = s.facets ∧
      ((s.core k).wld = true → callArg s k 4 ≠ 0 → s.partOfPrism i = none →
        Replies s t k 0 0 ∧ t.part p = { s.part p with prisms := sadd i (s.part p).prisms } ∧ ∀ q, q ≠ p → t.part q = s.part q) ∧
      ((s.core k).wld = true → callArg s k 4 ≠ 0 → (s.partOfPrism i).isSome = true → (∃ v, Replies s t k (BitVec.allOnes 64) v) ∧ t.parts = s.parts) ∧
      ((s.core k).wld = true → callArg s k 4 = 0 → s.partOfPrism i = some p → (s.prism i).state = .idle ∨ (s.prism i).state = .offline →
        Replies s t k 0 0 ∧ t.part p = { s.part p with prisms := sdel i (s.part p).prisms } ∧ ∀ q, q ≠ p → t.part q = s.part q) ∧
      ((s.core k).wld = true → callArg s k 4 = 0 → s.partOfPrism i = some p → (s.prism i).state = .active ∨ (s.prism i).state = .draining →
        (∃ v, Replies s t k (BitVec.allOnes 64) v) ∧ t.parts = s.parts) ∧
      ((s.core k).wld = false → callArg s k 4 ≠ 0 → (∃ v, Replies s t k (BitVec.allOnes 64) v) ∧ t.parts = s.parts)

/-- R401, R448: REGION of a secure core sets an entry of the region table; another core's is refused. -/
def Claims.RegionsAreSet : Prop :=
  ∀ (k : Nat) (s : State), Calls s k (.region (.core k)) →
    let i := callArg s k 1
    ∃ t, exec (.region (.core k)) s = .next t ∧ t.mem = s.mem ∧
      ((s.core k).wld = true → i < 32 → Replies s t k 0 0 ∧
        (∃ w l, kfind i t.regions = some (w, l) ∧ fieldAt w 16 28 = callArg s k 2 / 65536 % 2 ^ 28 ∧ fieldAt l 16 28 = callArg s k 3 / 65536 % 2 ^ 28 ∧
          w.getLsbD 62 = (callArg s k 4 != 0) ∧ w.getLsbD 63 = (callArg s k 5 != 0)) ∧
        ∀ j, j ≠ i → kfind j t.regions = kfind j s.regions) ∧
      ((s.core k).wld = false ∨ 32 ≤ i → (∃ v, Replies s t k (BitVec.allOnes 64) v) ∧ t.regions = s.regions)

/-- R449, R448 (log 16): ATTEST writes a report of 1,024 bytes where its caller may, and no other byte; the bytes are free values that depend
on what the report is to hold, signed, and on the certificate. -/
def Claims.AttestationReports : Prop :=
  ∀ (k : Nat) (s : State), Calls s k (.attest (.core k)) →
    let may := fun (a n : Nat) => ∀ u ∈ unitsOf 65536 a n, s.mayTouch (s.core k).wld u.1 = true
    let r := callArg s k 2
    ∃ t, exec (.attest (.core k)) s = .next t ∧
      (may (callArg s k 1) 64 → may r 1024 → Replies s t k 0 0 ∧ (∀ a, a < r ∨ r + 1024 ≤ a → readByte t.mem a = readByte s.mem a) ∧
        (s.mayTouch (s.core k).wld (r + 1023) = true →
          let held := s.attested (readBytes s.mem (callArg s k 1) 64)
          readBytes t.mem r 1024 = (List.range 1024).map (Config.reportByte held (Config.identitySign held ++ Config.identityCertificate)))) ∧
      (¬ (may (callArg s k 1) 64 ∧ may r 1024) → (∃ v, Replies s t k (BitVec.allOnes 64) v) ∧ t.mem = s.mem)

/-- R446, R450 (log 41): UPDATE of a secure core with an image that verifies for the block's kind, the block not being busy, begins: the call
stays the one in progress, requests to a slice's page park, a port leaves the routes. Its next step measures the image, keeps its SVN and
logs the update. Another caller is refused, which is logged, and nothing else changes. -/
def Claims.FirmwareUpdates : Prop :=
  ∀ (k : Nat) (s : State), Calls s k (.update (.core k)) →
    let kind := callArg s k 1
    let i := callArg s k 2
    let a := callArg s k 3
    let n := 512 + ofBytes (readBytes s.mem (a + 12) 4)
    let may := fun (m : Nat) => ∀ u ∈ unitsOf 65536 a m, s.mayTouch (s.core k).wld u.1 = true
    ∃ t, exec (.update (.core k)) s = .next t ∧ t.mem = s.mem ∧
      (∀ svn digest, s.update = none → (s.core k).wld = true → i < blocks kind → may 512 → may n → s.blockBusy kind i = false →
        verifyImage (readBytes s.mem a n) = some (kind, svn, digest) →
        Calls t k (.update (.core k)) ∧ t.update = some { kind := kind, index := i, svn := svn, digest := digest } ∧ t.meas = s.meas ∧
          (kind = 1 → (t.slice i).paused = true) ∧ (kind = 4 → (kget {} t.ports i).trained = false)) ∧
      (∀ u, s.update = some u → Replies s t k 0 0 ∧ t.update = none ∧ kfind u.kind t.svn = some u.svn ∧ Logged t evUpdateDone ∧
        kget 0 t.meas u.kind = Config.sha512 (toBytes 64 (kget 0 s.meas u.kind).toNat ++ u.digest ++ toBytes 4 u.svn) ∧
        (u.kind = 1 → (t.slice u.index).paused = false) ∧ (u.kind = 4 → .portTrained u.index ∈ t.due)) ∧
      (s.update = none → (s.core k).wld = false →
        (∃ v, Replies s t k (BitVec.allOnes 64) v) ∧ t.meas = s.meas ∧ t.svn = s.svn ∧ Logged t evUpdateRefused)

/-- R448: SERVICE, LINK and APCFG of a secure core: a prism or a stack in or out of service, a port trained or retired with the time master,
the aperture's reach. They refuse another core. -/
def Claims.ServiceLinkAndAperture : Prop :=
  ∀ (k : Nat) (s : State),
    let refused := fun (i : Instr) => (s.core k).wld = false → Calls s k i → ∃ t, exec i s = .next t ∧ (∃ v, Replies s t k (BitVec.allOnes 64) v) ∧
      t.prisms = s.prisms ∧ t.ports = s.ports ∧ t.apParts = s.apParts
    (refused (.service (.core k)) ∧ refused (.link (.core k)) ∧ refused (.apcfg (.core k))) ∧
    ((s.core k).wld = true → Calls s k (.service (.core k)) → callArg s k 1 = 0 → callArg s k 2 < 256 →
      ∃ t, exec (.service (.core k)) s = .next t ∧ Replies s t k 0 0 ∧
        t.prism (callArg s k 2) = { s.prism (callArg s k 2) with serviceable := callArg s k 3 != 0 } ∧
        ∀ p, p ≠ callArg s k 2 → t.prism p = s.prism p) ∧
    ((s.core k).wld = true → Calls s k (.service (.core k)) → callArg s k 1 = 1 → callArg s k 2 < 12 → callArg s k 3 ≠ 0 ∨ s.stackCovered (callArg s k 2) = false →
      ∃ t, exec (.service (.core k)) s = .next t ∧ Replies s t k 0 0 ∧ t.prisms = s.prisms ∧
        (callArg s k 2 ∈ t.stacksIn ↔ callArg s k 3 ≠ 0)) ∧
    ((s.core k).wld = true → Calls s k (.link (.core k)) → callArg s k 1 < 16 →
      ∃ t, exec (.link (.core k)) s = .next t ∧ Replies s t k 0 0 ∧ t.master = (callArg s k 3 != 0) ∧
        (callArg s k 2 ≠ 0 → .portTrained (callArg s k 1) ∈ t.due ∧ t.ports = s.ports) ∧
        (callArg s k 2 = 0 → (kget {} t.ports (callArg s k 1)).trained = false)) ∧
    ((s.core k).wld = true → Calls s k (.apcfg (.core k)) →
      ∃ t, exec (.apcfg (.core k)) s = .next t ∧ Replies s t k 0 0 ∧ t.apParts = BitVec.ofNat 16 (callArg s k 1) ∧ t.apSec = (callArg s k 2 != 0))

/-- R446, R447, R448 (log 15): EXTEND takes a digest of 64 bytes into a measurement register from 7 to 15, and refuses another; LOG answers
an entry that exists and refuses one that does not. -/
def Claims.MeasurementsAndLog : Prop :=
  ∀ (k : Nat) (s : State),
    (Calls s k (.extend (.core k)) →
      let j := callArg s k 1
      let a := callArg s k 2
      ∃ t, exec (.extend (.core k)) s = .next t ∧ t.mem = s.mem ∧
        (7 ≤ j → j < 16 → (∀ u ∈ unitsOf 65536 a 64, s.mayTouch (s.core k).wld u.1 = true) → Replies s t k 0 0 ∧
          kget 0 t.meas j = Config.sha512 (toBytes 64 (kget 0 s.meas j).toNat ++ readBytes s.mem a 64 ++ toBytes 4 0) ∧
          ∀ i, i ≠ j → kget 0 t.meas i = kget 0 s.meas i) ∧
        (j < 7 ∨ 16 ≤ j → (∃ v, Replies s t k (BitVec.allOnes 64) v) ∧ t.meas = s.meas)) ∧
    (Calls s k (.log (.core k)) → ∃ t v, exec (.log (.core k)) s = .next t ∧ t.log = s.log ∧ t.mem = s.mem ∧
      Replies s t k (if callArg s k 1 < s.log.length then 0 else BitVec.allOnes 64) v) ∧
    ∀ e, s.oldestCall = some (.log .host) → s.hmBusy = true → s.log[ofBytes (readBytes s.hmData 0 8)]? = some e →
      ∃ t, exec (.log .host) s = .next t ∧ t.hmBusy = false ∧ t.hmDone = true ∧ t.hmRes = 0 ∧
        readBytes t.hmData 0 8 = toBytes 8 e.tick.toNat ∧ readBytes t.hmData 8 2 = toBytes 2 e.code.toNat

/-- R435: a function-level reset returns the function's registers to their reset values and leaves the rest of the device running. -/
def Claims.FunctionLevelResets : Prop :=
  ∀ s : State, ∃ t, exec .functionLevelReset s = .next t ∧ t.hmRes = 0 ∧ t.hmEvt = false ∧ t.hmDone = false ∧ t.hmBusy = false ∧
    { t with hmRes := s.hmRes, hmEvt := s.hmEvt, hmDone := s.hmDone, hmBusy := s.hmBusy, msix := s.msix } = s

/-- R444: power-on keeps what is in HBM. Where the five images verify, the dies join, HBM comes up and the partitions share nothing, the device
is up, and the first core of each partition starts at level 1 at its pc; otherwise the bring-up stops at a step, which the host reads
in RES. -/
def Claims.PowerOns : Prop :=
  ∀ (cfg : BootCfg) (s : State),
    let verified := ∀ k, k < 5 → ∃ j b svn digest, cfg.images.find? (·.1 == k) = some (j, b) ∧ verifyImage b = some (k, svn, digest)
    let good := verified ∧ cfg.dieJoins = true ∧ cfg.hbmUp = true ∧ partsOk cfg.parts = true
    ∃ t, exec (.powerOn cfg) s = .next t ∧ t.mem = s.mem ∧ t.memP = s.memP ∧ t.sched = s.sched ∧
      (good → t.power = .up ∧ t.dev = cfg.dev ∧ ∀ p c, (p, c) ∈ cfg.parts → (t.core c.first).run = .running ∧ (t.core c.first).level = 1 ∧
        (t.core c.first).th.pc = c.pc &&& ~~~3#64) ∧
      (¬ good → ∃ i, 1 ≤ i ∧ i ≤ 4 ∧ t.power = .stopped i ∧ t.hmRes = BitVec.ofNat 32 i ∧ ∀ k, (t.core k).run = .notStarted)

/-- R364, R401, R435, R444, R446 to R450: the calls that the monitor serves, the function-level reset and power-on.
The model's choices in it are those of logs 15, 16, 41 and 62. -/
def Obligations.MonitorCallsAreServed : Prop :=
  Claims.PartitionsChange ∧ Claims.RegionsAreSet ∧ Claims.AttestationReports ∧ Claims.FirmwareUpdates ∧ Claims.ServiceLinkAndAperture ∧
    Claims.MeasurementsAndLog ∧ Claims.FunctionLevelResets ∧ Claims.PowerOns

/-! Links and errors. -/

/-- R439, R440: a flit that is retried is counted at its port, whose path fails where it has been sent 16 times again; a path that fails
leaves its port untrained until it is trained again. -/
def Claims.PortEvents : Prop :=
  ∀ (i : Nat) (s : State), i < 16 →
    let p := kget {} s.ports i
    let port := fun (e : Instr) (q : Port) => ∃ t, exec e s = .next t ∧ kget {} t.ports i = q ∧ (∀ j, j ≠ i → kget {} t.ports j = kget {} s.ports j) ∧
      t.mem = s.mem ∧ t.reqs = s.reqs ∧ ∀ b, t.thread b = s.thread b
    port (.flitRetry i) (if p.retried < 16 then { p with retried := p.retried + 1 } else { p with trained := false, retried := 0 }) ∧
      port (.pathFailure i) { p with trained := false, retried := 0 } ∧ port (.portTrained i) { p with trained := true, retried := 0 }

/-- R98, R245, R441: a peer that no working port reaches is lost: it leaves the domain, a load of a slot that was under way to it retires
with its destination marked, a VGET retires and reports VGONE late, versions that it held are gone, and the loss is logged. A peer that a
port still reaches is not lost. -/
def Claims.PeersAreLost : Prop :=
  ∀ (dev : Nat) (s : State), dev ∈ s.domain → dev ≠ s.dev → dev < 0xFFF →
    let reached := ∃ i, i < 16 ∧ (kget 0 s.routes dev).getLsbD i = true ∧ (kget {} s.ports i).trained = true
    (reached → exec (.peerLost dev) s = .next s) ∧
    (¬ reached → ∃ t, exec (.peerLost dev) s = .next t ∧ dev ∉ t.domain ∧ Logged t evPeerLost ∧
      (∀ sl x e, s.slices = [(sl, x)] → x.versions = [e] → e.waiters = [] → x.quota = [] → s.reqs = [] → dev ∈ e.peers → (t.slice sl).versions = []) ∧
      ∀ id r f n, s.reqs = [(id, r)] → s.slices = [] → s.copies = [] → s.flights = [] → s.ctxs = [] → r.who = .slot f n → r.stage = .sent →
        fieldAt r.va 52 12 = dev → (s.facet f).parked = [] → (s.slot f n).sdc.stepping = none →
        (∀ d ty, r.op = .load d ty → d ≠ 0 →
          t.req id = none ∧ (t.slot f n).th.pc = (s.slot f n).th.pc + 4 ∧ (t.slot f n).th.marked [d] = some { pc := r.pc, addr := r.va }) ∧
        ∀ ver la lb lsize, r.op = .vget ver la lb lsize → r.again = false →
          t.req id = none ∧ (t.slot f n).th.pc = (s.slot f n).th.pc + 4 ∧
            ∃ l ∈ (t.slot f n).late, l.cause = cVGONE ∧ l.pc = r.pc ∧ l.addr = r.va)

/-- R438: the first die join that fails is logged and the device goes on; the second stops every context, each unretired entry with
POISON. -/
def Claims.DieJoinFailures : Prop :=
  ∀ (j : Nat) (s : State), j < 4 → j ∉ s.joinsFailed →
    ∃ t, exec (.ucieJoinFailure j) s = .next t ∧ j ∈ t.joinsFailed ∧ t.mem = s.mem ∧ (∀ b, t.thread b = s.thread b) ∧
      (s.joinsFailed = [] → t.ctxs = s.ctxs ∧ Logged t evJoinFailed) ∧
      ∀ c x e, s.joinsFailed ≠ [] → s.ctxs = [(c, x)] → x.window = [e] → e.state ≠ .faulted →
        Logged t evFatal ∧ ∃ u r, t.entry c e.seq = some u ∧ u.state = .faulted ∧ u.fault = some r ∧ r.cause = cPOISON

/-- R451: an uncorrectable error of HBM poisons the 64-byte granule and is counted at its stack's controller and logged; one of a granule of a
cache line poisons it there; a correctable one is only counted. -/
def Claims.EccErrors : Prop :=
  (∀ (pa : Nat) (s : State), pa < 12 * 2 ^ 40 →
    let b := 2564 + pa / 2 ^ 40
    let e := kget (0, 0) s.errs b
    (∃ t, exec (.uncorrectableError (.hbm pa)) s = .next t ∧ (∀ g, g ∈ t.memP ↔ g = pa / 64 ∨ g ∈ s.memP) ∧ t.mem = s.mem ∧
      kget (0, 0) t.errs b = (e.1, e.2 + 1) ∧ Logged t evUncorrectable ∧ ∀ b, t.thread b = s.thread b) ∧
    ∃ t, exec (.correctableError (.hbm pa)) s = .next t ∧ kget (0, 0) t.errs b = (e.1 + 1, e.2) ∧ { t with errs := s.errs } = s) ∧
  (∀ (sl pa : Nat) (l : Line) (s : State), kfind (pa / 512) (s.slice sl).cache = some l →
    ∃ t, exec (.uncorrectableError (.sliceData sl pa)) s = .next t ∧ t.mem = s.mem ∧
      ∃ u, kfind (pa / 512) (t.slice sl).cache = some u ∧ u.data = l.data ∧
        ∀ i, i < 16 → u.poison.getLsbD i = (l.poison.getLsbD i || decide (i / 2 = pa % 512 / 64))) ∧
  ∀ (f n c seq o r : Nat) (b : Bool) (e : Entry) (s : State), (s.facet f).slots = [(n, s.slot f n)] → (s.slot f n).job = .task c seq o b →
    s.entry c seq = some e → e.state = .issued →
    ∃ t, exec (.uncorrectableError (.scalar f n r)) s = .next t ∧ (∀ a, t.thread a = s.thread a) ∧ Logged t evUncorrectable ∧
      ∃ u y, t.entry c seq = some u ∧ u.state = .faulted ∧ u.fault = some y ∧ y.cause = cPOISON

/-- R453: at 95 °C and above the prisms of a die that hold no FIXT work run one step slower, below at full speed; at 105 °C a die whose
elastic prisms are all at the last step has its active elastic prisms drained. A shutdown ends the device's steps. -/
def Claims.HeatAndShutdown : Prop :=
  (∀ (die temp p : Nat) (s : State), die < 4 → p / 64 = die →
    let hot := 105 ≤ temp ∧ ∀ q, q / 64 = die → (s.prism q).pin = true ∨ (s.prism q).throttle = 15
    ∃ t, exec (.throttling die temp) s = .next t ∧ t.mem = s.mem ∧ t.facets = s.facets ∧ (∀ q, q / 64 ≠ die → t.prism q = s.prism q) ∧
      (temp < 95 → t.prism p = if (s.prism p).pin then s.prism p else { s.prism p with throttle := 0 }) ∧
      (95 ≤ temp → ¬ hot → t.prism p = if (s.prism p).pin then s.prism p else { s.prism p with throttle := min 15 ((s.prism p).throttle + 1) }) ∧
      (hot → (s.prism p).state = .active → (s.prism p).pin = false →
        t.prism p = { s.prism p with state := .draining } ∧ .drainIdle p ∈ t.due)) ∧
  ∀ (die : Nat) (s : State), die < 4 → ∃ t, exec (.shutdown die) s = .next t ∧ t.power = .shutDown ∧ t.mem = s.mem

/-- R98, R438 to R441, R451, R453: links, lost peers, die joins, errors and heat. The model's choices in it are those of logs 17 and 42. -/
def Obligations.LinksAndErrors : Prop :=
  Claims.PortEvents ∧ Claims.PeersAreLost ∧ Claims.DieJoinFailures ∧ Claims.EccErrors ∧ Claims.HeatAndShutdown
end

