-- ==== Sys2Proof/Laws/Memory.lean ====
section
/-! SUPPORT. Laws of sparse maps and of the byte memory: what a read after a store gives, and that every operation keeps the canonical
form. -/

namespace Sys2Proof.Machine

variable {α : Type}

/-! Reading after storing. -/

@[simp] theorem kfind_kset_self (k : Nat) (v : α) (m : KMap α) : kfind k (kset k v m) = some v := by
  induction m with
  | nil => simp [kset, kfind]
  | cons h m ih =>
    obtain ⟨j, w⟩ := h
    simp only [kset]
    split
    · simp [kfind]
    · split <;> simp_all [kfind]

theorem kfind_kset_ne {j k : Nat} (h : j ≠ k) (v : α) (m : KMap α) : kfind j (kset k v m) = kfind j m := by
  induction m with
  | nil => simp [kset, kfind, h.symm]
  | cons c m ih =>
    obtain ⟨i, w⟩ := c
    simp only [kset]
    split
    · subst_vars; simp [kfind, h.symm]
    · split
      · simp [kfind, h.symm]
      · simp [kfind, ih]

@[simp] theorem kfind_kdel_self (k : Nat) (m : KMap α) : kfind k (kdel k m) = none := by
  induction m with
  | nil => rfl
  | cons c m ih =>
    obtain ⟨i, w⟩ := c
    simp only [kdel]
    split <;> simp_all [kfind]

theorem kfind_kdel_ne {j k : Nat} (h : j ≠ k) (m : KMap α) : kfind j (kdel k m) = kfind j m := by
  induction m with
  | nil => rfl
  | cons c m ih =>
    obtain ⟨i, w⟩ := c
    simp only [kdel]
    split
    · subst_vars; simp [kfind, h.symm, ih]
    · simp [kfind, ih]

@[simp] theorem kget_kset_self (d : α) (k : Nat) (v : α) (m : KMap α) : kget d (kset k v m) k = v := by simp [kget]

theorem kget_kset_ne (d : α) {j k : Nat} (h : j ≠ k) (v : α) (m : KMap α) : kget d (kset k v m) j = kget d m j := by
  simp [kget, kfind_kset_ne h]

theorem kget_kset (d : α) (j k : Nat) (v : α) (m : KMap α) : kget d (kset k v m) j = if j = k then v else kget d m j := by
  by_cases h : j = k
  · subst h; simp
  · simp [h, kget_kset_ne d h]

theorem readByte_writeByte (a j : Nat) (b : Byte) (m : KMap Byte) :
    readByte (writeByte a b m) j = if j = a then b else readByte m j := by
  unfold readByte writeByte kput
  split
  · by_cases h : j = a
    · subst h; simp_all [kget]
    · simp [h, kget, kfind_kdel_ne h]
  · exact kget_kset 0 j a b m

theorem readByte_writeBytes (l : List Byte) : ∀ (a j : Nat) (m : KMap Byte),
    readByte (writeBytes a l m) j = if a ≤ j ∧ j < a + l.length then l.getD (j - a) 0 else readByte m j := by
  induction l with
  | nil => intro a j m; simp [writeBytes]
  | cons b l ih =>
    intro a j m
    rw [writeBytes, ih, readByte_writeByte]
    simp only [List.length_cons]
    by_cases h : j = a
    · subst h; simp
    · by_cases h' : a + 1 ≤ j ∧ j < a + 1 + l.length
      · obtain ⟨i, rfl⟩ : ∃ i, j = a + 1 + i := ⟨j - (a + 1), by omega⟩
        have e : a + 1 + i - a = i + 1 := by omega
        have e' : a + 1 + i - (a + 1) = i := by omega
        rw [if_pos h', if_pos ⟨by omega, by omega⟩, e, e', List.getD_cons_succ]
      · rw [if_neg h', if_neg h, if_neg (by omega)]

/-! The canonical form. -/

theorem krising_mono {m : KMap α} {lo lo' : Nat} (h : lo' ≤ lo) (hm : krising lo m = true) : krising lo' m = true := by
  cases m with
  | nil => rfl
  | cons c m => simp only [krising, Bool.and_eq_true, decide_eq_true_eq] at *; exact ⟨by omega, hm.2⟩

theorem krising_kset {k : Nat} (v : α) : ∀ {m : KMap α} {lo : Nat}, krising lo m = true → lo ≤ k → krising lo (kset k v m) = true
  | [], lo, _, h => by simp [kset, krising, h]
  | (j, w) :: m, lo, hm, h => by
    simp only [krising, Bool.and_eq_true, decide_eq_true_eq] at hm
    simp only [kset]
    split
    · subst_vars; simp [krising, hm.2, h]
    · split
      · simp only [krising, Bool.and_eq_true, decide_eq_true_eq]; exact ⟨h, by omega, hm.2⟩
      · simp only [krising, Bool.and_eq_true, decide_eq_true_eq]; exact ⟨hm.1, krising_kset v hm.2 (by omega)⟩

theorem krising_kdel (k : Nat) : ∀ {m : KMap α} {lo : Nat}, krising lo m = true → krising lo (kdel k m) = true
  | [], _, _ => rfl
  | (j, w) :: m, lo, hm => by
    simp only [krising, Bool.and_eq_true, decide_eq_true_eq] at hm
    simp only [kdel]
    split
    · exact krising_kdel k (krising_mono (by omega) hm.2)
    · simp only [krising, Bool.and_eq_true, decide_eq_true_eq]; exact ⟨hm.1, krising_kdel k hm.2⟩

theorem krising_filter (p : Nat × α → Bool) : ∀ {m : KMap α} {lo : Nat}, krising lo m = true → krising lo (m.filter p) = true
  | [], _, _ => rfl
  | (j, w) :: m, lo, hm => by
    simp only [krising, Bool.and_eq_true, decide_eq_true_eq] at hm
    simp only [List.filter_cons]
    split
    · simp only [krising, Bool.and_eq_true, decide_eq_true_eq]; exact ⟨hm.1, krising_filter p hm.2⟩
    · exact krising_filter p (krising_mono (by omega) hm.2)

theorem all_kset (p : Nat × α → Bool) {k : Nat} {v : α} (hv : p (k, v) = true) : ∀ {m : KMap α}, m.all p = true → (kset k v m).all p = true
  | [], _ => by simp [kset, hv]
  | (j, w) :: m, hm => by
    simp only [List.all_cons, Bool.and_eq_true] at hm
    simp only [kset]
    split
    · simp [hv, hm.2]
    · split
      · simp [hv, hm.1, hm.2]
      · simp only [List.all_cons, Bool.and_eq_true]; exact ⟨hm.1, all_kset p hv hm.2⟩

theorem all_kdel (p : Nat × α → Bool) (k : Nat) : ∀ {m : KMap α}, m.all p = true → (kdel k m).all p = true
  | [], _ => rfl
  | (j, w) :: m, hm => by
    simp only [List.all_cons, Bool.and_eq_true] at hm
    simp only [kdel]
    split
    · exact all_kdel p k hm.2
    · simp only [List.all_cons, Bool.and_eq_true]; exact ⟨hm.1, all_kdel p k hm.2⟩

theorem memoryWf_writeByte (a : Nat) (b : Byte) {m : KMap Byte} (h : memoryWf m = true) : memoryWf (writeByte a b m) = true := by
  simp only [memoryWf, Bool.and_eq_true] at *
  unfold writeByte kput
  split
  · exact ⟨krising_kdel a h.1, all_kdel _ a h.2⟩
  · rename_i hb
    exact ⟨krising_kset b h.1 (Nat.zero_le a), all_kset _ (by simpa using hb) h.2⟩

theorem memoryWf_writeBytes (l : List Byte) : ∀ (a : Nat) {m : KMap Byte}, memoryWf m = true → memoryWf (writeBytes a l m) = true := by
  induction l with
  | nil => exact fun _ _ h => h
  | cons b l ih => exact fun a _ h => ih (a + 1) (memoryWf_writeByte a b h)

theorem memoryWf_filter (p : Nat × Byte → Bool) {m : KMap Byte} (h : memoryWf m = true) : memoryWf (m.filter p) = true := by
  simp only [memoryWf, Bool.and_eq_true, List.all_eq_true] at *
  exact ⟨krising_filter p h.1, fun c hc => h.2 c (List.mem_of_mem_filter hc)⟩

/-- A fold of single stores keeps the canonical form. -/
theorem memoryWf_foldl {β : Type} (f : KMap Byte → β → KMap Byte) (hf : ∀ m b, memoryWf m = true → memoryWf (f m b) = true) (l : List β) :
    ∀ {m : KMap Byte}, memoryWf m = true → memoryWf (l.foldl f m) = true := by
  induction l with
  | nil => exact fun h => h
  | cons b l ih => exact fun h => ih (hf _ b h)

theorem memoryWf_moveBytes (src dst n : Nat) {m : KMap Byte} (h : memoryWf m = true) : memoryWf (moveBytes m src dst n) = true :=
  memoryWf_foldl _ (fun _ c hm => memoryWf_writeByte _ c.2 hm) _ (memoryWf_filter _ h)

theorem memoryWf_hbmWrite (s : State) (pa : Nat) (b : List Byte) (h : memoryWf s.mem = true) : memoryWf (s.hbmWrite pa b).mem = true :=
  memoryWf_writeBytes b pa h

theorem memoryWf_hbmMerge (s : State) (ln : Nat) (data : BitVec 4096) (m : BitVec 512) (taint poison : BitVec 16) (h : memoryWf s.mem = true) :
    memoryWf (s.hbmMerge ln data m taint poison).mem = true := by
  unfold State.hbmMerge
  generalize List.range 512 = l
  refine memoryWf_foldl _ (fun _ i hm => ?_) l h
  split
  · exact memoryWf_writeByte _ _ hm
  · exact hm

end Sys2Proof.Machine
end

