-- ==== Sys2Proof/Laws/State.lean ====
section
/-! SUPPORT. Laws of the state's updates: reading one part of the machine after another was replaced. -/

namespace Sys2Proof.Machine

/-! Each field after each update. -/

@[simp] theorem State.setCore_prisms (s : State) (k : Nat) (v : Core) : (s.setCore k v).prisms = s.prisms := rfl
@[simp] theorem State.setCore_facets (s : State) (k : Nat) (v : Core) : (s.setCore k v).facets = s.facets := rfl
@[simp] theorem State.setCore_slices (s : State) (k : Nat) (v : Core) : (s.setCore k v).slices = s.slices := rfl
@[simp] theorem State.setCore_ctxs (s : State) (k : Nat) (v : Core) : (s.setCore k v).ctxs = s.ctxs := rfl
@[simp] theorem State.setCore_parts (s : State) (k : Nat) (v : Core) : (s.setCore k v).parts = s.parts := rfl
@[simp] theorem State.setCore_mem (s : State) (k : Nat) (v : Core) : (s.setCore k v).mem = s.mem := rfl
@[simp] theorem State.setCore_memT (s : State) (k : Nat) (v : Core) : (s.setCore k v).memT = s.memT := rfl
@[simp] theorem State.setCore_memP (s : State) (k : Nat) (v : Core) : (s.setCore k v).memP = s.memP := rfl
@[simp] theorem State.setCore_qmap (s : State) (k : Nat) (v : Core) : (s.setCore k v).qmap = s.qmap := rfl
@[simp] theorem State.setCore_nqpend (s : State) (k : Nat) (v : Core) : (s.setCore k v).nqpend = s.nqpend := rfl
@[simp] theorem State.setCore_regions (s : State) (k : Nat) (v : Core) : (s.setCore k v).regions = s.regions := rfl
@[simp] theorem State.setCore_tick (s : State) (k : Nat) (v : Core) : (s.setCore k v).tick = s.tick := rfl
@[simp] theorem State.setCore_dev (s : State) (k : Nat) (v : Core) : (s.setCore k v).dev = s.dev := rfl
@[simp] theorem State.setCore_domain (s : State) (k : Nat) (v : Core) : (s.setCore k v).domain = s.domain := rfl
@[simp] theorem State.setCore_reqs (s : State) (k : Nat) (v : Core) : (s.setCore k v).reqs = s.reqs := rfl
@[simp] theorem State.setCore_copies (s : State) (k : Nat) (v : Core) : (s.setCore k v).copies = s.copies := rfl
@[simp] theorem State.setCore_flights (s : State) (k : Nat) (v : Core) : (s.setCore k v).flights = s.flights := rfl
@[simp] theorem State.setCore_merges (s : State) (k : Nat) (v : Core) : (s.setCore k v).merges = s.merges := rfl
@[simp] theorem State.setCore_scOpen (s : State) (k : Nat) (v : Core) : (s.setCore k v).scOpen = s.scOpen := rfl
@[simp] theorem State.setCore_chans (s : State) (k : Nat) (v : Core) : (s.setCore k v).chans = s.chans := rfl
@[simp] theorem State.setCore_msix (s : State) (k : Nat) (v : Core) : (s.setCore k v).msix = s.msix := rfl
@[simp] theorem State.setCore_log (s : State) (k : Nat) (v : Core) : (s.setCore k v).log = s.log := rfl
@[simp] theorem State.setCore_power (s : State) (k : Nat) (v : Core) : (s.setCore k v).power = s.power := rfl
@[simp] theorem State.setCore_apParts (s : State) (k : Nat) (v : Core) : (s.setCore k v).apParts = s.apParts := rfl
@[simp] theorem State.setCore_apSec (s : State) (k : Nat) (v : Core) : (s.setCore k v).apSec = s.apSec := rfl
@[simp] theorem State.setCore_apErr (s : State) (k : Nat) (v : Core) : (s.setCore k v).apErr = s.apErr := rfl
@[simp] theorem State.setCore_apLast (s : State) (k : Nat) (v : Core) : (s.setCore k v).apLast = s.apLast := rfl
@[simp] theorem State.setCore_apData (s : State) (k : Nat) (v : Core) : (s.setCore k v).apData = s.apData := rfl
@[simp] theorem State.setCore_dmva (s : State) (k : Nat) (v : Core) : (s.setCore k v).dmva = s.dmva := rfl
@[simp] theorem State.setCore_dmdata (s : State) (k : Nat) (v : Core) : (s.setCore k v).dmdata = s.dmdata := rfl
@[simp] theorem State.setCore_dmctx (s : State) (k : Nat) (v : Core) : (s.setCore k v).dmctx = s.dmctx := rfl
@[simp] theorem State.setCore_dmwr (s : State) (k : Nat) (v : Core) : (s.setCore k v).dmwr = s.dmwr := rfl
@[simp] theorem State.setCore_dmTaint (s : State) (k : Nat) (v : Core) : (s.setCore k v).dmTaint = s.dmTaint := rfl
@[simp] theorem State.setCore_testPort (s : State) (k : Nat) (v : Core) : (s.setCore k v).testPort = s.testPort := rfl
@[simp] theorem State.setCore_events (s : State) (k : Nat) (v : Core) : (s.setCore k v).events = s.events := rfl
@[simp] theorem State.setCore_actions (s : State) (k : Nat) (v : Core) : (s.setCore k v).actions = s.actions := rfl
@[simp] theorem State.setCore_snap (s : State) (k : Nat) (v : Core) : (s.setCore k v).snap = s.snap := rfl
@[simp] theorem State.setCore_hmRes (s : State) (k : Nat) (v : Core) : (s.setCore k v).hmRes = s.hmRes := rfl
@[simp] theorem State.setCore_hmEvt (s : State) (k : Nat) (v : Core) : (s.setCore k v).hmEvt = s.hmEvt := rfl
@[simp] theorem State.setCore_hmDone (s : State) (k : Nat) (v : Core) : (s.setCore k v).hmDone = s.hmDone := rfl
@[simp] theorem State.setCore_hmBusy (s : State) (k : Nat) (v : Core) : (s.setCore k v).hmBusy = s.hmBusy := rfl
@[simp] theorem State.setCore_hmCmd (s : State) (k : Nat) (v : Core) : (s.setCore k v).hmCmd = s.hmCmd := rfl
@[simp] theorem State.setCore_hmData (s : State) (k : Nat) (v : Core) : (s.setCore k v).hmData = s.hmData := rfl
@[simp] theorem State.setCore_wfwd (s : State) (k : Nat) (v : Core) : (s.setCore k v).wfwd = s.wfwd := rfl
@[simp] theorem State.setCore_trgs (s : State) (k : Nat) (v : Core) : (s.setCore k v).trgs = s.trgs := rfl
@[simp] theorem State.setCore_forwards (s : State) (k : Nat) (v : Core) : (s.setCore k v).forwards = s.forwards := rfl
@[simp] theorem State.setCore_routes (s : State) (k : Nat) (v : Core) : (s.setCore k v).routes = s.routes := rfl
@[simp] theorem State.setCore_ports (s : State) (k : Nat) (v : Core) : (s.setCore k v).ports = s.ports := rfl
@[simp] theorem State.setCore_master (s : State) (k : Nat) (v : Core) : (s.setCore k v).master = s.master := rfl
@[simp] theorem State.setCore_joinsFailed (s : State) (k : Nat) (v : Core) : (s.setCore k v).joinsFailed = s.joinsFailed := rfl
@[simp] theorem State.setCore_meas (s : State) (k : Nat) (v : Core) : (s.setCore k v).meas = s.meas := rfl
@[simp] theorem State.setCore_stacksIn (s : State) (k : Nat) (v : Core) : (s.setCore k v).stacksIn = s.stacksIn := rfl
@[simp] theorem State.setCore_svn (s : State) (k : Nat) (v : Core) : (s.setCore k v).svn = s.svn := rfl
@[simp] theorem State.setCore_update (s : State) (k : Nat) (v : Core) : (s.setCore k v).update = s.update := rfl
@[simp] theorem State.setCore_errs (s : State) (k : Nat) (v : Core) : (s.setCore k v).errs = s.errs := rfl
@[simp] theorem State.setCore_sched (s : State) (k : Nat) (v : Core) : (s.setCore k v).sched = s.sched := rfl
@[simp] theorem State.setCore_due (s : State) (k : Nat) (v : Core) : (s.setCore k v).due = s.due := rfl
@[simp] theorem State.setCore_later (s : State) (k : Nat) (v : Core) : (s.setCore k v).later = s.later := rfl
@[simp] theorem State.setCore_clock (s : State) (k : Nat) (v : Core) : (s.setCore k v).clock = s.clock := rfl
@[simp] theorem State.setCore_turn (s : State) (k : Nat) (v : Core) : (s.setCore k v).turn = s.turn := rfl
@[simp] theorem State.setCore_stalled (s : State) (k : Nat) (v : Core) : (s.setCore k v).stalled = s.stalled := rfl
@[simp] theorem State.setCore_nextId (s : State) (k : Nat) (v : Core) : (s.setCore k v).nextId = s.nextId := rfl
@[simp] theorem State.setCore_free (s : State) (k : Nat) (v : Core) : (s.setCore k v).free = s.free := rfl

@[simp] theorem State.setPrism_cores (s : State) (k : Nat) (v : Prism) : (s.setPrism k v).cores = s.cores := rfl
@[simp] theorem State.setPrism_facets (s : State) (k : Nat) (v : Prism) : (s.setPrism k v).facets = s.facets := rfl
@[simp] theorem State.setPrism_slices (s : State) (k : Nat) (v : Prism) : (s.setPrism k v).slices = s.slices := rfl
@[simp] theorem State.setPrism_ctxs (s : State) (k : Nat) (v : Prism) : (s.setPrism k v).ctxs = s.ctxs := rfl
@[simp] theorem State.setPrism_parts (s : State) (k : Nat) (v : Prism) : (s.setPrism k v).parts = s.parts := rfl
@[simp] theorem State.setPrism_mem (s : State) (k : Nat) (v : Prism) : (s.setPrism k v).mem = s.mem := rfl
@[simp] theorem State.setPrism_memT (s : State) (k : Nat) (v : Prism) : (s.setPrism k v).memT = s.memT := rfl
@[simp] theorem State.setPrism_memP (s : State) (k : Nat) (v : Prism) : (s.setPrism k v).memP = s.memP := rfl
@[simp] theorem State.setPrism_qmap (s : State) (k : Nat) (v : Prism) : (s.setPrism k v).qmap = s.qmap := rfl
@[simp] theorem State.setPrism_nqpend (s : State) (k : Nat) (v : Prism) : (s.setPrism k v).nqpend = s.nqpend := rfl
@[simp] theorem State.setPrism_regions (s : State) (k : Nat) (v : Prism) : (s.setPrism k v).regions = s.regions := rfl
@[simp] theorem State.setPrism_tick (s : State) (k : Nat) (v : Prism) : (s.setPrism k v).tick = s.tick := rfl
@[simp] theorem State.setPrism_dev (s : State) (k : Nat) (v : Prism) : (s.setPrism k v).dev = s.dev := rfl
@[simp] theorem State.setPrism_domain (s : State) (k : Nat) (v : Prism) : (s.setPrism k v).domain = s.domain := rfl
@[simp] theorem State.setPrism_reqs (s : State) (k : Nat) (v : Prism) : (s.setPrism k v).reqs = s.reqs := rfl
@[simp] theorem State.setPrism_copies (s : State) (k : Nat) (v : Prism) : (s.setPrism k v).copies = s.copies := rfl
@[simp] theorem State.setPrism_flights (s : State) (k : Nat) (v : Prism) : (s.setPrism k v).flights = s.flights := rfl
@[simp] theorem State.setPrism_merges (s : State) (k : Nat) (v : Prism) : (s.setPrism k v).merges = s.merges := rfl
@[simp] theorem State.setPrism_scOpen (s : State) (k : Nat) (v : Prism) : (s.setPrism k v).scOpen = s.scOpen := rfl
@[simp] theorem State.setPrism_chans (s : State) (k : Nat) (v : Prism) : (s.setPrism k v).chans = s.chans := rfl
@[simp] theorem State.setPrism_msix (s : State) (k : Nat) (v : Prism) : (s.setPrism k v).msix = s.msix := rfl
@[simp] theorem State.setPrism_log (s : State) (k : Nat) (v : Prism) : (s.setPrism k v).log = s.log := rfl
@[simp] theorem State.setPrism_power (s : State) (k : Nat) (v : Prism) : (s.setPrism k v).power = s.power := rfl
@[simp] theorem State.setPrism_apParts (s : State) (k : Nat) (v : Prism) : (s.setPrism k v).apParts = s.apParts := rfl
@[simp] theorem State.setPrism_apSec (s : State) (k : Nat) (v : Prism) : (s.setPrism k v).apSec = s.apSec := rfl
@[simp] theorem State.setPrism_apErr (s : State) (k : Nat) (v : Prism) : (s.setPrism k v).apErr = s.apErr := rfl
@[simp] theorem State.setPrism_apLast (s : State) (k : Nat) (v : Prism) : (s.setPrism k v).apLast = s.apLast := rfl
@[simp] theorem State.setPrism_apData (s : State) (k : Nat) (v : Prism) : (s.setPrism k v).apData = s.apData := rfl
@[simp] theorem State.setPrism_dmva (s : State) (k : Nat) (v : Prism) : (s.setPrism k v).dmva = s.dmva := rfl
@[simp] theorem State.setPrism_dmdata (s : State) (k : Nat) (v : Prism) : (s.setPrism k v).dmdata = s.dmdata := rfl
@[simp] theorem State.setPrism_dmctx (s : State) (k : Nat) (v : Prism) : (s.setPrism k v).dmctx = s.dmctx := rfl
@[simp] theorem State.setPrism_dmwr (s : State) (k : Nat) (v : Prism) : (s.setPrism k v).dmwr = s.dmwr := rfl
@[simp] theorem State.setPrism_dmTaint (s : State) (k : Nat) (v : Prism) : (s.setPrism k v).dmTaint = s.dmTaint := rfl
@[simp] theorem State.setPrism_testPort (s : State) (k : Nat) (v : Prism) : (s.setPrism k v).testPort = s.testPort := rfl
@[simp] theorem State.setPrism_events (s : State) (k : Nat) (v : Prism) : (s.setPrism k v).events = s.events := rfl
@[simp] theorem State.setPrism_actions (s : State) (k : Nat) (v : Prism) : (s.setPrism k v).actions = s.actions := rfl
@[simp] theorem State.setPrism_snap (s : State) (k : Nat) (v : Prism) : (s.setPrism k v).snap = s.snap := rfl
@[simp] theorem State.setPrism_hmRes (s : State) (k : Nat) (v : Prism) : (s.setPrism k v).hmRes = s.hmRes := rfl
@[simp] theorem State.setPrism_hmEvt (s : State) (k : Nat) (v : Prism) : (s.setPrism k v).hmEvt = s.hmEvt := rfl
@[simp] theorem State.setPrism_hmDone (s : State) (k : Nat) (v : Prism) : (s.setPrism k v).hmDone = s.hmDone := rfl
@[simp] theorem State.setPrism_hmBusy (s : State) (k : Nat) (v : Prism) : (s.setPrism k v).hmBusy = s.hmBusy := rfl
@[simp] theorem State.setPrism_hmCmd (s : State) (k : Nat) (v : Prism) : (s.setPrism k v).hmCmd = s.hmCmd := rfl
@[simp] theorem State.setPrism_hmData (s : State) (k : Nat) (v : Prism) : (s.setPrism k v).hmData = s.hmData := rfl
@[simp] theorem State.setPrism_wfwd (s : State) (k : Nat) (v : Prism) : (s.setPrism k v).wfwd = s.wfwd := rfl
@[simp] theorem State.setPrism_trgs (s : State) (k : Nat) (v : Prism) : (s.setPrism k v).trgs = s.trgs := rfl
@[simp] theorem State.setPrism_forwards (s : State) (k : Nat) (v : Prism) : (s.setPrism k v).forwards = s.forwards := rfl
@[simp] theorem State.setPrism_routes (s : State) (k : Nat) (v : Prism) : (s.setPrism k v).routes = s.routes := rfl
@[simp] theorem State.setPrism_ports (s : State) (k : Nat) (v : Prism) : (s.setPrism k v).ports = s.ports := rfl
@[simp] theorem State.setPrism_master (s : State) (k : Nat) (v : Prism) : (s.setPrism k v).master = s.master := rfl
@[simp] theorem State.setPrism_joinsFailed (s : State) (k : Nat) (v : Prism) : (s.setPrism k v).joinsFailed = s.joinsFailed := rfl
@[simp] theorem State.setPrism_meas (s : State) (k : Nat) (v : Prism) : (s.setPrism k v).meas = s.meas := rfl
@[simp] theorem State.setPrism_stacksIn (s : State) (k : Nat) (v : Prism) : (s.setPrism k v).stacksIn = s.stacksIn := rfl
@[simp] theorem State.setPrism_svn (s : State) (k : Nat) (v : Prism) : (s.setPrism k v).svn = s.svn := rfl
@[simp] theorem State.setPrism_update (s : State) (k : Nat) (v : Prism) : (s.setPrism k v).update = s.update := rfl
@[simp] theorem State.setPrism_errs (s : State) (k : Nat) (v : Prism) : (s.setPrism k v).errs = s.errs := rfl
@[simp] theorem State.setPrism_sched (s : State) (k : Nat) (v : Prism) : (s.setPrism k v).sched = s.sched := rfl
@[simp] theorem State.setPrism_due (s : State) (k : Nat) (v : Prism) : (s.setPrism k v).due = s.due := rfl
@[simp] theorem State.setPrism_later (s : State) (k : Nat) (v : Prism) : (s.setPrism k v).later = s.later := rfl
@[simp] theorem State.setPrism_clock (s : State) (k : Nat) (v : Prism) : (s.setPrism k v).clock = s.clock := rfl
@[simp] theorem State.setPrism_turn (s : State) (k : Nat) (v : Prism) : (s.setPrism k v).turn = s.turn := rfl
@[simp] theorem State.setPrism_stalled (s : State) (k : Nat) (v : Prism) : (s.setPrism k v).stalled = s.stalled := rfl
@[simp] theorem State.setPrism_nextId (s : State) (k : Nat) (v : Prism) : (s.setPrism k v).nextId = s.nextId := rfl
@[simp] theorem State.setPrism_free (s : State) (k : Nat) (v : Prism) : (s.setPrism k v).free = s.free := rfl

@[simp] theorem State.setFacet_cores (s : State) (k : Nat) (v : Facet) : (s.setFacet k v).cores = s.cores := rfl
@[simp] theorem State.setFacet_prisms (s : State) (k : Nat) (v : Facet) : (s.setFacet k v).prisms = s.prisms := rfl
@[simp] theorem State.setFacet_slices (s : State) (k : Nat) (v : Facet) : (s.setFacet k v).slices = s.slices := rfl
@[simp] theorem State.setFacet_ctxs (s : State) (k : Nat) (v : Facet) : (s.setFacet k v).ctxs = s.ctxs := rfl
@[simp] theorem State.setFacet_parts (s : State) (k : Nat) (v : Facet) : (s.setFacet k v).parts = s.parts := rfl
@[simp] theorem State.setFacet_mem (s : State) (k : Nat) (v : Facet) : (s.setFacet k v).mem = s.mem := rfl
@[simp] theorem State.setFacet_memT (s : State) (k : Nat) (v : Facet) : (s.setFacet k v).memT = s.memT := rfl
@[simp] theorem State.setFacet_memP (s : State) (k : Nat) (v : Facet) : (s.setFacet k v).memP = s.memP := rfl
@[simp] theorem State.setFacet_qmap (s : State) (k : Nat) (v : Facet) : (s.setFacet k v).qmap = s.qmap := rfl
@[simp] theorem State.setFacet_nqpend (s : State) (k : Nat) (v : Facet) : (s.setFacet k v).nqpend = s.nqpend := rfl
@[simp] theorem State.setFacet_regions (s : State) (k : Nat) (v : Facet) : (s.setFacet k v).regions = s.regions := rfl
@[simp] theorem State.setFacet_tick (s : State) (k : Nat) (v : Facet) : (s.setFacet k v).tick = s.tick := rfl
@[simp] theorem State.setFacet_dev (s : State) (k : Nat) (v : Facet) : (s.setFacet k v).dev = s.dev := rfl
@[simp] theorem State.setFacet_domain (s : State) (k : Nat) (v : Facet) : (s.setFacet k v).domain = s.domain := rfl
@[simp] theorem State.setFacet_reqs (s : State) (k : Nat) (v : Facet) : (s.setFacet k v).reqs = s.reqs := rfl
@[simp] theorem State.setFacet_copies (s : State) (k : Nat) (v : Facet) : (s.setFacet k v).copies = s.copies := rfl
@[simp] theorem State.setFacet_flights (s : State) (k : Nat) (v : Facet) : (s.setFacet k v).flights = s.flights := rfl
@[simp] theorem State.setFacet_merges (s : State) (k : Nat) (v : Facet) : (s.setFacet k v).merges = s.merges := rfl
@[simp] theorem State.setFacet_scOpen (s : State) (k : Nat) (v : Facet) : (s.setFacet k v).scOpen = s.scOpen := rfl
@[simp] theorem State.setFacet_chans (s : State) (k : Nat) (v : Facet) : (s.setFacet k v).chans = s.chans := rfl
@[simp] theorem State.setFacet_msix (s : State) (k : Nat) (v : Facet) : (s.setFacet k v).msix = s.msix := rfl
@[simp] theorem State.setFacet_log (s : State) (k : Nat) (v : Facet) : (s.setFacet k v).log = s.log := rfl
@[simp] theorem State.setFacet_power (s : State) (k : Nat) (v : Facet) : (s.setFacet k v).power = s.power := rfl
@[simp] theorem State.setFacet_apParts (s : State) (k : Nat) (v : Facet) : (s.setFacet k v).apParts = s.apParts := rfl
@[simp] theorem State.setFacet_apSec (s : State) (k : Nat) (v : Facet) : (s.setFacet k v).apSec = s.apSec := rfl
@[simp] theorem State.setFacet_apErr (s : State) (k : Nat) (v : Facet) : (s.setFacet k v).apErr = s.apErr := rfl
@[simp] theorem State.setFacet_apLast (s : State) (k : Nat) (v : Facet) : (s.setFacet k v).apLast = s.apLast := rfl
@[simp] theorem State.setFacet_apData (s : State) (k : Nat) (v : Facet) : (s.setFacet k v).apData = s.apData := rfl
@[simp] theorem State.setFacet_dmva (s : State) (k : Nat) (v : Facet) : (s.setFacet k v).dmva = s.dmva := rfl
@[simp] theorem State.setFacet_dmdata (s : State) (k : Nat) (v : Facet) : (s.setFacet k v).dmdata = s.dmdata := rfl
@[simp] theorem State.setFacet_dmctx (s : State) (k : Nat) (v : Facet) : (s.setFacet k v).dmctx = s.dmctx := rfl
@[simp] theorem State.setFacet_dmwr (s : State) (k : Nat) (v : Facet) : (s.setFacet k v).dmwr = s.dmwr := rfl
@[simp] theorem State.setFacet_dmTaint (s : State) (k : Nat) (v : Facet) : (s.setFacet k v).dmTaint = s.dmTaint := rfl
@[simp] theorem State.setFacet_testPort (s : State) (k : Nat) (v : Facet) : (s.setFacet k v).testPort = s.testPort := rfl
@[simp] theorem State.setFacet_events (s : State) (k : Nat) (v : Facet) : (s.setFacet k v).events = s.events := rfl
@[simp] theorem State.setFacet_actions (s : State) (k : Nat) (v : Facet) : (s.setFacet k v).actions = s.actions := rfl
@[simp] theorem State.setFacet_snap (s : State) (k : Nat) (v : Facet) : (s.setFacet k v).snap = s.snap := rfl
@[simp] theorem State.setFacet_hmRes (s : State) (k : Nat) (v : Facet) : (s.setFacet k v).hmRes = s.hmRes := rfl
@[simp] theorem State.setFacet_hmEvt (s : State) (k : Nat) (v : Facet) : (s.setFacet k v).hmEvt = s.hmEvt := rfl
@[simp] theorem State.setFacet_hmDone (s : State) (k : Nat) (v : Facet) : (s.setFacet k v).hmDone = s.hmDone := rfl
@[simp] theorem State.setFacet_hmBusy (s : State) (k : Nat) (v : Facet) : (s.setFacet k v).hmBusy = s.hmBusy := rfl
@[simp] theorem State.setFacet_hmCmd (s : State) (k : Nat) (v : Facet) : (s.setFacet k v).hmCmd = s.hmCmd := rfl
@[simp] theorem State.setFacet_hmData (s : State) (k : Nat) (v : Facet) : (s.setFacet k v).hmData = s.hmData := rfl
@[simp] theorem State.setFacet_wfwd (s : State) (k : Nat) (v : Facet) : (s.setFacet k v).wfwd = s.wfwd := rfl
@[simp] theorem State.setFacet_trgs (s : State) (k : Nat) (v : Facet) : (s.setFacet k v).trgs = s.trgs := rfl
@[simp] theorem State.setFacet_forwards (s : State) (k : Nat) (v : Facet) : (s.setFacet k v).forwards = s.forwards := rfl
@[simp] theorem State.setFacet_routes (s : State) (k : Nat) (v : Facet) : (s.setFacet k v).routes = s.routes := rfl
@[simp] theorem State.setFacet_ports (s : State) (k : Nat) (v : Facet) : (s.setFacet k v).ports = s.ports := rfl
@[simp] theorem State.setFacet_master (s : State) (k : Nat) (v : Facet) : (s.setFacet k v).master = s.master := rfl
@[simp] theorem State.setFacet_joinsFailed (s : State) (k : Nat) (v : Facet) : (s.setFacet k v).joinsFailed = s.joinsFailed := rfl
@[simp] theorem State.setFacet_meas (s : State) (k : Nat) (v : Facet) : (s.setFacet k v).meas = s.meas := rfl
@[simp] theorem State.setFacet_stacksIn (s : State) (k : Nat) (v : Facet) : (s.setFacet k v).stacksIn = s.stacksIn := rfl
@[simp] theorem State.setFacet_svn (s : State) (k : Nat) (v : Facet) : (s.setFacet k v).svn = s.svn := rfl
@[simp] theorem State.setFacet_update (s : State) (k : Nat) (v : Facet) : (s.setFacet k v).update = s.update := rfl
@[simp] theorem State.setFacet_errs (s : State) (k : Nat) (v : Facet) : (s.setFacet k v).errs = s.errs := rfl
@[simp] theorem State.setFacet_sched (s : State) (k : Nat) (v : Facet) : (s.setFacet k v).sched = s.sched := rfl
@[simp] theorem State.setFacet_due (s : State) (k : Nat) (v : Facet) : (s.setFacet k v).due = s.due := rfl
@[simp] theorem State.setFacet_later (s : State) (k : Nat) (v : Facet) : (s.setFacet k v).later = s.later := rfl
@[simp] theorem State.setFacet_clock (s : State) (k : Nat) (v : Facet) : (s.setFacet k v).clock = s.clock := rfl
@[simp] theorem State.setFacet_turn (s : State) (k : Nat) (v : Facet) : (s.setFacet k v).turn = s.turn := rfl
@[simp] theorem State.setFacet_stalled (s : State) (k : Nat) (v : Facet) : (s.setFacet k v).stalled = s.stalled := rfl
@[simp] theorem State.setFacet_nextId (s : State) (k : Nat) (v : Facet) : (s.setFacet k v).nextId = s.nextId := rfl
@[simp] theorem State.setFacet_free (s : State) (k : Nat) (v : Facet) : (s.setFacet k v).free = s.free := rfl

@[simp] theorem State.setSlice_cores (s : State) (k : Nat) (v : Slice) : (s.setSlice k v).cores = s.cores := rfl
@[simp] theorem State.setSlice_prisms (s : State) (k : Nat) (v : Slice) : (s.setSlice k v).prisms = s.prisms := rfl
@[simp] theorem State.setSlice_facets (s : State) (k : Nat) (v : Slice) : (s.setSlice k v).facets = s.facets := rfl
@[simp] theorem State.setSlice_ctxs (s : State) (k : Nat) (v : Slice) : (s.setSlice k v).ctxs = s.ctxs := rfl
@[simp] theorem State.setSlice_parts (s : State) (k : Nat) (v : Slice) : (s.setSlice k v).parts = s.parts := rfl
@[simp] theorem State.setSlice_mem (s : State) (k : Nat) (v : Slice) : (s.setSlice k v).mem = s.mem := rfl
@[simp] theorem State.setSlice_memT (s : State) (k : Nat) (v : Slice) : (s.setSlice k v).memT = s.memT := rfl
@[simp] theorem State.setSlice_memP (s : State) (k : Nat) (v : Slice) : (s.setSlice k v).memP = s.memP := rfl
@[simp] theorem State.setSlice_qmap (s : State) (k : Nat) (v : Slice) : (s.setSlice k v).qmap = s.qmap := rfl
@[simp] theorem State.setSlice_nqpend (s : State) (k : Nat) (v : Slice) : (s.setSlice k v).nqpend = s.nqpend := rfl
@[simp] theorem State.setSlice_regions (s : State) (k : Nat) (v : Slice) : (s.setSlice k v).regions = s.regions := rfl
@[simp] theorem State.setSlice_tick (s : State) (k : Nat) (v : Slice) : (s.setSlice k v).tick = s.tick := rfl
@[simp] theorem State.setSlice_dev (s : State) (k : Nat) (v : Slice) : (s.setSlice k v).dev = s.dev := rfl
@[simp] theorem State.setSlice_domain (s : State) (k : Nat) (v : Slice) : (s.setSlice k v).domain = s.domain := rfl
@[simp] theorem State.setSlice_reqs (s : State) (k : Nat) (v : Slice) : (s.setSlice k v).reqs = s.reqs := rfl
@[simp] theorem State.setSlice_copies (s : State) (k : Nat) (v : Slice) : (s.setSlice k v).copies = s.copies := rfl
@[simp] theorem State.setSlice_flights (s : State) (k : Nat) (v : Slice) : (s.setSlice k v).flights = s.flights := rfl
@[simp] theorem State.setSlice_merges (s : State) (k : Nat) (v : Slice) : (s.setSlice k v).merges = s.merges := rfl
@[simp] theorem State.setSlice_scOpen (s : State) (k : Nat) (v : Slice) : (s.setSlice k v).scOpen = s.scOpen := rfl
@[simp] theorem State.setSlice_chans (s : State) (k : Nat) (v : Slice) : (s.setSlice k v).chans = s.chans := rfl
@[simp] theorem State.setSlice_msix (s : State) (k : Nat) (v : Slice) : (s.setSlice k v).msix = s.msix := rfl
@[simp] theorem State.setSlice_log (s : State) (k : Nat) (v : Slice) : (s.setSlice k v).log = s.log := rfl
@[simp] theorem State.setSlice_power (s : State) (k : Nat) (v : Slice) : (s.setSlice k v).power = s.power := rfl
@[simp] theorem State.setSlice_apParts (s : State) (k : Nat) (v : Slice) : (s.setSlice k v).apParts = s.apParts := rfl
@[simp] theorem State.setSlice_apSec (s : State) (k : Nat) (v : Slice) : (s.setSlice k v).apSec = s.apSec := rfl
@[simp] theorem State.setSlice_apErr (s : State) (k : Nat) (v : Slice) : (s.setSlice k v).apErr = s.apErr := rfl
@[simp] theorem State.setSlice_apLast (s : State) (k : Nat) (v : Slice) : (s.setSlice k v).apLast = s.apLast := rfl
@[simp] theorem State.setSlice_apData (s : State) (k : Nat) (v : Slice) : (s.setSlice k v).apData = s.apData := rfl
@[simp] theorem State.setSlice_dmva (s : State) (k : Nat) (v : Slice) : (s.setSlice k v).dmva = s.dmva := rfl
@[simp] theorem State.setSlice_dmdata (s : State) (k : Nat) (v : Slice) : (s.setSlice k v).dmdata = s.dmdata := rfl
@[simp] theorem State.setSlice_dmctx (s : State) (k : Nat) (v : Slice) : (s.setSlice k v).dmctx = s.dmctx := rfl
@[simp] theorem State.setSlice_dmwr (s : State) (k : Nat) (v : Slice) : (s.setSlice k v).dmwr = s.dmwr := rfl
@[simp] theorem State.setSlice_dmTaint (s : State) (k : Nat) (v : Slice) : (s.setSlice k v).dmTaint = s.dmTaint := rfl
@[simp] theorem State.setSlice_testPort (s : State) (k : Nat) (v : Slice) : (s.setSlice k v).testPort = s.testPort := rfl
@[simp] theorem State.setSlice_events (s : State) (k : Nat) (v : Slice) : (s.setSlice k v).events = s.events := rfl
@[simp] theorem State.setSlice_actions (s : State) (k : Nat) (v : Slice) : (s.setSlice k v).actions = s.actions := rfl
@[simp] theorem State.setSlice_snap (s : State) (k : Nat) (v : Slice) : (s.setSlice k v).snap = s.snap := rfl
@[simp] theorem State.setSlice_hmRes (s : State) (k : Nat) (v : Slice) : (s.setSlice k v).hmRes = s.hmRes := rfl
@[simp] theorem State.setSlice_hmEvt (s : State) (k : Nat) (v : Slice) : (s.setSlice k v).hmEvt = s.hmEvt := rfl
@[simp] theorem State.setSlice_hmDone (s : State) (k : Nat) (v : Slice) : (s.setSlice k v).hmDone = s.hmDone := rfl
@[simp] theorem State.setSlice_hmBusy (s : State) (k : Nat) (v : Slice) : (s.setSlice k v).hmBusy = s.hmBusy := rfl
@[simp] theorem State.setSlice_hmCmd (s : State) (k : Nat) (v : Slice) : (s.setSlice k v).hmCmd = s.hmCmd := rfl
@[simp] theorem State.setSlice_hmData (s : State) (k : Nat) (v : Slice) : (s.setSlice k v).hmData = s.hmData := rfl
@[simp] theorem State.setSlice_wfwd (s : State) (k : Nat) (v : Slice) : (s.setSlice k v).wfwd = s.wfwd := rfl
@[simp] theorem State.setSlice_trgs (s : State) (k : Nat) (v : Slice) : (s.setSlice k v).trgs = s.trgs := rfl
@[simp] theorem State.setSlice_forwards (s : State) (k : Nat) (v : Slice) : (s.setSlice k v).forwards = s.forwards := rfl
@[simp] theorem State.setSlice_routes (s : State) (k : Nat) (v : Slice) : (s.setSlice k v).routes = s.routes := rfl
@[simp] theorem State.setSlice_ports (s : State) (k : Nat) (v : Slice) : (s.setSlice k v).ports = s.ports := rfl
@[simp] theorem State.setSlice_master (s : State) (k : Nat) (v : Slice) : (s.setSlice k v).master = s.master := rfl
@[simp] theorem State.setSlice_joinsFailed (s : State) (k : Nat) (v : Slice) : (s.setSlice k v).joinsFailed = s.joinsFailed := rfl
@[simp] theorem State.setSlice_meas (s : State) (k : Nat) (v : Slice) : (s.setSlice k v).meas = s.meas := rfl
@[simp] theorem State.setSlice_stacksIn (s : State) (k : Nat) (v : Slice) : (s.setSlice k v).stacksIn = s.stacksIn := rfl
@[simp] theorem State.setSlice_svn (s : State) (k : Nat) (v : Slice) : (s.setSlice k v).svn = s.svn := rfl
@[simp] theorem State.setSlice_update (s : State) (k : Nat) (v : Slice) : (s.setSlice k v).update = s.update := rfl
@[simp] theorem State.setSlice_errs (s : State) (k : Nat) (v : Slice) : (s.setSlice k v).errs = s.errs := rfl
@[simp] theorem State.setSlice_sched (s : State) (k : Nat) (v : Slice) : (s.setSlice k v).sched = s.sched := rfl
@[simp] theorem State.setSlice_due (s : State) (k : Nat) (v : Slice) : (s.setSlice k v).due = s.due := rfl
@[simp] theorem State.setSlice_later (s : State) (k : Nat) (v : Slice) : (s.setSlice k v).later = s.later := rfl
@[simp] theorem State.setSlice_clock (s : State) (k : Nat) (v : Slice) : (s.setSlice k v).clock = s.clock := rfl
@[simp] theorem State.setSlice_turn (s : State) (k : Nat) (v : Slice) : (s.setSlice k v).turn = s.turn := rfl
@[simp] theorem State.setSlice_stalled (s : State) (k : Nat) (v : Slice) : (s.setSlice k v).stalled = s.stalled := rfl
@[simp] theorem State.setSlice_nextId (s : State) (k : Nat) (v : Slice) : (s.setSlice k v).nextId = s.nextId := rfl
@[simp] theorem State.setSlice_free (s : State) (k : Nat) (v : Slice) : (s.setSlice k v).free = s.free := rfl

@[simp] theorem State.setCtx_cores (s : State) (k : Nat) (v : Context) : (s.setCtx k v).cores = s.cores := rfl
@[simp] theorem State.setCtx_prisms (s : State) (k : Nat) (v : Context) : (s.setCtx k v).prisms = s.prisms := rfl
@[simp] theorem State.setCtx_facets (s : State) (k : Nat) (v : Context) : (s.setCtx k v).facets = s.facets := rfl
@[simp] theorem State.setCtx_slices (s : State) (k : Nat) (v : Context) : (s.setCtx k v).slices = s.slices := rfl
@[simp] theorem State.setCtx_parts (s : State) (k : Nat) (v : Context) : (s.setCtx k v).parts = s.parts := rfl
@[simp] theorem State.setCtx_mem (s : State) (k : Nat) (v : Context) : (s.setCtx k v).mem = s.mem := rfl
@[simp] theorem State.setCtx_memT (s : State) (k : Nat) (v : Context) : (s.setCtx k v).memT = s.memT := rfl
@[simp] theorem State.setCtx_memP (s : State) (k : Nat) (v : Context) : (s.setCtx k v).memP = s.memP := rfl
@[simp] theorem State.setCtx_qmap (s : State) (k : Nat) (v : Context) : (s.setCtx k v).qmap = s.qmap := rfl
@[simp] theorem State.setCtx_nqpend (s : State) (k : Nat) (v : Context) : (s.setCtx k v).nqpend = s.nqpend := rfl
@[simp] theorem State.setCtx_regions (s : State) (k : Nat) (v : Context) : (s.setCtx k v).regions = s.regions := rfl
@[simp] theorem State.setCtx_tick (s : State) (k : Nat) (v : Context) : (s.setCtx k v).tick = s.tick := rfl
@[simp] theorem State.setCtx_dev (s : State) (k : Nat) (v : Context) : (s.setCtx k v).dev = s.dev := rfl
@[simp] theorem State.setCtx_domain (s : State) (k : Nat) (v : Context) : (s.setCtx k v).domain = s.domain := rfl
@[simp] theorem State.setCtx_reqs (s : State) (k : Nat) (v : Context) : (s.setCtx k v).reqs = s.reqs := rfl
@[simp] theorem State.setCtx_copies (s : State) (k : Nat) (v : Context) : (s.setCtx k v).copies = s.copies := rfl
@[simp] theorem State.setCtx_flights (s : State) (k : Nat) (v : Context) : (s.setCtx k v).flights = s.flights := rfl
@[simp] theorem State.setCtx_merges (s : State) (k : Nat) (v : Context) : (s.setCtx k v).merges = s.merges := rfl
@[simp] theorem State.setCtx_scOpen (s : State) (k : Nat) (v : Context) : (s.setCtx k v).scOpen = s.scOpen := rfl
@[simp] theorem State.setCtx_chans (s : State) (k : Nat) (v : Context) : (s.setCtx k v).chans = s.chans := rfl
@[simp] theorem State.setCtx_msix (s : State) (k : Nat) (v : Context) : (s.setCtx k v).msix = s.msix := rfl
@[simp] theorem State.setCtx_log (s : State) (k : Nat) (v : Context) : (s.setCtx k v).log = s.log := rfl
@[simp] theorem State.setCtx_power (s : State) (k : Nat) (v : Context) : (s.setCtx k v).power = s.power := rfl
@[simp] theorem State.setCtx_apParts (s : State) (k : Nat) (v : Context) : (s.setCtx k v).apParts = s.apParts := rfl
@[simp] theorem State.setCtx_apSec (s : State) (k : Nat) (v : Context) : (s.setCtx k v).apSec = s.apSec := rfl
@[simp] theorem State.setCtx_apErr (s : State) (k : Nat) (v : Context) : (s.setCtx k v).apErr = s.apErr := rfl
@[simp] theorem State.setCtx_apLast (s : State) (k : Nat) (v : Context) : (s.setCtx k v).apLast = s.apLast := rfl
@[simp] theorem State.setCtx_apData (s : State) (k : Nat) (v : Context) : (s.setCtx k v).apData = s.apData := rfl
@[simp] theorem State.setCtx_dmva (s : State) (k : Nat) (v : Context) : (s.setCtx k v).dmva = s.dmva := rfl
@[simp] theorem State.setCtx_dmdata (s : State) (k : Nat) (v : Context) : (s.setCtx k v).dmdata = s.dmdata := rfl
@[simp] theorem State.setCtx_dmctx (s : State) (k : Nat) (v : Context) : (s.setCtx k v).dmctx = s.dmctx := rfl
@[simp] theorem State.setCtx_dmwr (s : State) (k : Nat) (v : Context) : (s.setCtx k v).dmwr = s.dmwr := rfl
@[simp] theorem State.setCtx_dmTaint (s : State) (k : Nat) (v : Context) : (s.setCtx k v).dmTaint = s.dmTaint := rfl
@[simp] theorem State.setCtx_testPort (s : State) (k : Nat) (v : Context) : (s.setCtx k v).testPort = s.testPort := rfl
@[simp] theorem State.setCtx_events (s : State) (k : Nat) (v : Context) : (s.setCtx k v).events = s.events := rfl
@[simp] theorem State.setCtx_actions (s : State) (k : Nat) (v : Context) : (s.setCtx k v).actions = s.actions := rfl
@[simp] theorem State.setCtx_snap (s : State) (k : Nat) (v : Context) : (s.setCtx k v).snap = s.snap := rfl
@[simp] theorem State.setCtx_hmRes (s : State) (k : Nat) (v : Context) : (s.setCtx k v).hmRes = s.hmRes := rfl
@[simp] theorem State.setCtx_hmEvt (s : State) (k : Nat) (v : Context) : (s.setCtx k v).hmEvt = s.hmEvt := rfl
@[simp] theorem State.setCtx_hmDone (s : State) (k : Nat) (v : Context) : (s.setCtx k v).hmDone = s.hmDone := rfl
@[simp] theorem State.setCtx_hmBusy (s : State) (k : Nat) (v : Context) : (s.setCtx k v).hmBusy = s.hmBusy := rfl
@[simp] theorem State.setCtx_hmCmd (s : State) (k : Nat) (v : Context) : (s.setCtx k v).hmCmd = s.hmCmd := rfl
@[simp] theorem State.setCtx_hmData (s : State) (k : Nat) (v : Context) : (s.setCtx k v).hmData = s.hmData := rfl
@[simp] theorem State.setCtx_wfwd (s : State) (k : Nat) (v : Context) : (s.setCtx k v).wfwd = s.wfwd := rfl
@[simp] theorem State.setCtx_trgs (s : State) (k : Nat) (v : Context) : (s.setCtx k v).trgs = s.trgs := rfl
@[simp] theorem State.setCtx_forwards (s : State) (k : Nat) (v : Context) : (s.setCtx k v).forwards = s.forwards := rfl
@[simp] theorem State.setCtx_routes (s : State) (k : Nat) (v : Context) : (s.setCtx k v).routes = s.routes := rfl
@[simp] theorem State.setCtx_ports (s : State) (k : Nat) (v : Context) : (s.setCtx k v).ports = s.ports := rfl
@[simp] theorem State.setCtx_master (s : State) (k : Nat) (v : Context) : (s.setCtx k v).master = s.master := rfl
@[simp] theorem State.setCtx_joinsFailed (s : State) (k : Nat) (v : Context) : (s.setCtx k v).joinsFailed = s.joinsFailed := rfl
@[simp] theorem State.setCtx_meas (s : State) (k : Nat) (v : Context) : (s.setCtx k v).meas = s.meas := rfl
@[simp] theorem State.setCtx_stacksIn (s : State) (k : Nat) (v : Context) : (s.setCtx k v).stacksIn = s.stacksIn := rfl
@[simp] theorem State.setCtx_svn (s : State) (k : Nat) (v : Context) : (s.setCtx k v).svn = s.svn := rfl
@[simp] theorem State.setCtx_update (s : State) (k : Nat) (v : Context) : (s.setCtx k v).update = s.update := rfl
@[simp] theorem State.setCtx_errs (s : State) (k : Nat) (v : Context) : (s.setCtx k v).errs = s.errs := rfl
@[simp] theorem State.setCtx_sched (s : State) (k : Nat) (v : Context) : (s.setCtx k v).sched = s.sched := rfl
@[simp] theorem State.setCtx_due (s : State) (k : Nat) (v : Context) : (s.setCtx k v).due = s.due := rfl
@[simp] theorem State.setCtx_later (s : State) (k : Nat) (v : Context) : (s.setCtx k v).later = s.later := rfl
@[simp] theorem State.setCtx_clock (s : State) (k : Nat) (v : Context) : (s.setCtx k v).clock = s.clock := rfl
@[simp] theorem State.setCtx_turn (s : State) (k : Nat) (v : Context) : (s.setCtx k v).turn = s.turn := rfl
@[simp] theorem State.setCtx_stalled (s : State) (k : Nat) (v : Context) : (s.setCtx k v).stalled = s.stalled := rfl
@[simp] theorem State.setCtx_nextId (s : State) (k : Nat) (v : Context) : (s.setCtx k v).nextId = s.nextId := rfl
@[simp] theorem State.setCtx_free (s : State) (k : Nat) (v : Context) : (s.setCtx k v).free = s.free := rfl

@[simp] theorem State.setPart_cores (s : State) (k : Nat) (v : Part) : (s.setPart k v).cores = s.cores := rfl
@[simp] theorem State.setPart_prisms (s : State) (k : Nat) (v : Part) : (s.setPart k v).prisms = s.prisms := rfl
@[simp] theorem State.setPart_facets (s : State) (k : Nat) (v : Part) : (s.setPart k v).facets = s.facets := rfl
@[simp] theorem State.setPart_slices (s : State) (k : Nat) (v : Part) : (s.setPart k v).slices = s.slices := rfl
@[simp] theorem State.setPart_ctxs (s : State) (k : Nat) (v : Part) : (s.setPart k v).ctxs = s.ctxs := rfl
@[simp] theorem State.setPart_mem (s : State) (k : Nat) (v : Part) : (s.setPart k v).mem = s.mem := rfl
@[simp] theorem State.setPart_memT (s : State) (k : Nat) (v : Part) : (s.setPart k v).memT = s.memT := rfl
@[simp] theorem State.setPart_memP (s : State) (k : Nat) (v : Part) : (s.setPart k v).memP = s.memP := rfl
@[simp] theorem State.setPart_qmap (s : State) (k : Nat) (v : Part) : (s.setPart k v).qmap = s.qmap := rfl
@[simp] theorem State.setPart_nqpend (s : State) (k : Nat) (v : Part) : (s.setPart k v).nqpend = s.nqpend := rfl
@[simp] theorem State.setPart_regions (s : State) (k : Nat) (v : Part) : (s.setPart k v).regions = s.regions := rfl
@[simp] theorem State.setPart_tick (s : State) (k : Nat) (v : Part) : (s.setPart k v).tick = s.tick := rfl
@[simp] theorem State.setPart_dev (s : State) (k : Nat) (v : Part) : (s.setPart k v).dev = s.dev := rfl
@[simp] theorem State.setPart_domain (s : State) (k : Nat) (v : Part) : (s.setPart k v).domain = s.domain := rfl
@[simp] theorem State.setPart_reqs (s : State) (k : Nat) (v : Part) : (s.setPart k v).reqs = s.reqs := rfl
@[simp] theorem State.setPart_copies (s : State) (k : Nat) (v : Part) : (s.setPart k v).copies = s.copies := rfl
@[simp] theorem State.setPart_flights (s : State) (k : Nat) (v : Part) : (s.setPart k v).flights = s.flights := rfl
@[simp] theorem State.setPart_merges (s : State) (k : Nat) (v : Part) : (s.setPart k v).merges = s.merges := rfl
@[simp] theorem State.setPart_scOpen (s : State) (k : Nat) (v : Part) : (s.setPart k v).scOpen = s.scOpen := rfl
@[simp] theorem State.setPart_chans (s : State) (k : Nat) (v : Part) : (s.setPart k v).chans = s.chans := rfl
@[simp] theorem State.setPart_msix (s : State) (k : Nat) (v : Part) : (s.setPart k v).msix = s.msix := rfl
@[simp] theorem State.setPart_log (s : State) (k : Nat) (v : Part) : (s.setPart k v).log = s.log := rfl
@[simp] theorem State.setPart_power (s : State) (k : Nat) (v : Part) : (s.setPart k v).power = s.power := rfl
@[simp] theorem State.setPart_apParts (s : State) (k : Nat) (v : Part) : (s.setPart k v).apParts = s.apParts := rfl
@[simp] theorem State.setPart_apSec (s : State) (k : Nat) (v : Part) : (s.setPart k v).apSec = s.apSec := rfl
@[simp] theorem State.setPart_apErr (s : State) (k : Nat) (v : Part) : (s.setPart k v).apErr = s.apErr := rfl
@[simp] theorem State.setPart_apLast (s : State) (k : Nat) (v : Part) : (s.setPart k v).apLast = s.apLast := rfl
@[simp] theorem State.setPart_apData (s : State) (k : Nat) (v : Part) : (s.setPart k v).apData = s.apData := rfl
@[simp] theorem State.setPart_dmva (s : State) (k : Nat) (v : Part) : (s.setPart k v).dmva = s.dmva := rfl
@[simp] theorem State.setPart_dmdata (s : State) (k : Nat) (v : Part) : (s.setPart k v).dmdata = s.dmdata := rfl
@[simp] theorem State.setPart_dmctx (s : State) (k : Nat) (v : Part) : (s.setPart k v).dmctx = s.dmctx := rfl
@[simp] theorem State.setPart_dmwr (s : State) (k : Nat) (v : Part) : (s.setPart k v).dmwr = s.dmwr := rfl
@[simp] theorem State.setPart_dmTaint (s : State) (k : Nat) (v : Part) : (s.setPart k v).dmTaint = s.dmTaint := rfl
@[simp] theorem State.setPart_testPort (s : State) (k : Nat) (v : Part) : (s.setPart k v).testPort = s.testPort := rfl
@[simp] theorem State.setPart_events (s : State) (k : Nat) (v : Part) : (s.setPart k v).events = s.events := rfl
@[simp] theorem State.setPart_actions (s : State) (k : Nat) (v : Part) : (s.setPart k v).actions = s.actions := rfl
@[simp] theorem State.setPart_snap (s : State) (k : Nat) (v : Part) : (s.setPart k v).snap = s.snap := rfl
@[simp] theorem State.setPart_hmRes (s : State) (k : Nat) (v : Part) : (s.setPart k v).hmRes = s.hmRes := rfl
@[simp] theorem State.setPart_hmEvt (s : State) (k : Nat) (v : Part) : (s.setPart k v).hmEvt = s.hmEvt := rfl
@[simp] theorem State.setPart_hmDone (s : State) (k : Nat) (v : Part) : (s.setPart k v).hmDone = s.hmDone := rfl
@[simp] theorem State.setPart_hmBusy (s : State) (k : Nat) (v : Part) : (s.setPart k v).hmBusy = s.hmBusy := rfl
@[simp] theorem State.setPart_hmCmd (s : State) (k : Nat) (v : Part) : (s.setPart k v).hmCmd = s.hmCmd := rfl
@[simp] theorem State.setPart_hmData (s : State) (k : Nat) (v : Part) : (s.setPart k v).hmData = s.hmData := rfl
@[simp] theorem State.setPart_wfwd (s : State) (k : Nat) (v : Part) : (s.setPart k v).wfwd = s.wfwd := rfl
@[simp] theorem State.setPart_trgs (s : State) (k : Nat) (v : Part) : (s.setPart k v).trgs = s.trgs := rfl
@[simp] theorem State.setPart_forwards (s : State) (k : Nat) (v : Part) : (s.setPart k v).forwards = s.forwards := rfl
@[simp] theorem State.setPart_routes (s : State) (k : Nat) (v : Part) : (s.setPart k v).routes = s.routes := rfl
@[simp] theorem State.setPart_ports (s : State) (k : Nat) (v : Part) : (s.setPart k v).ports = s.ports := rfl
@[simp] theorem State.setPart_master (s : State) (k : Nat) (v : Part) : (s.setPart k v).master = s.master := rfl
@[simp] theorem State.setPart_joinsFailed (s : State) (k : Nat) (v : Part) : (s.setPart k v).joinsFailed = s.joinsFailed := rfl
@[simp] theorem State.setPart_meas (s : State) (k : Nat) (v : Part) : (s.setPart k v).meas = s.meas := rfl
@[simp] theorem State.setPart_stacksIn (s : State) (k : Nat) (v : Part) : (s.setPart k v).stacksIn = s.stacksIn := rfl
@[simp] theorem State.setPart_svn (s : State) (k : Nat) (v : Part) : (s.setPart k v).svn = s.svn := rfl
@[simp] theorem State.setPart_update (s : State) (k : Nat) (v : Part) : (s.setPart k v).update = s.update := rfl
@[simp] theorem State.setPart_errs (s : State) (k : Nat) (v : Part) : (s.setPart k v).errs = s.errs := rfl
@[simp] theorem State.setPart_sched (s : State) (k : Nat) (v : Part) : (s.setPart k v).sched = s.sched := rfl
@[simp] theorem State.setPart_due (s : State) (k : Nat) (v : Part) : (s.setPart k v).due = s.due := rfl
@[simp] theorem State.setPart_later (s : State) (k : Nat) (v : Part) : (s.setPart k v).later = s.later := rfl
@[simp] theorem State.setPart_clock (s : State) (k : Nat) (v : Part) : (s.setPart k v).clock = s.clock := rfl
@[simp] theorem State.setPart_turn (s : State) (k : Nat) (v : Part) : (s.setPart k v).turn = s.turn := rfl
@[simp] theorem State.setPart_stalled (s : State) (k : Nat) (v : Part) : (s.setPart k v).stalled = s.stalled := rfl
@[simp] theorem State.setPart_nextId (s : State) (k : Nat) (v : Part) : (s.setPart k v).nextId = s.nextId := rfl
@[simp] theorem State.setPart_free (s : State) (k : Nat) (v : Part) : (s.setPart k v).free = s.free := rfl

@[simp] theorem State.setSlot_cores (s : State) (f n : Nat) (v : Slot) : (s.setSlot f n v).cores = s.cores := rfl
@[simp] theorem State.setSlot_prisms (s : State) (f n : Nat) (v : Slot) : (s.setSlot f n v).prisms = s.prisms := rfl
@[simp] theorem State.setSlot_slices (s : State) (f n : Nat) (v : Slot) : (s.setSlot f n v).slices = s.slices := rfl
@[simp] theorem State.setSlot_ctxs (s : State) (f n : Nat) (v : Slot) : (s.setSlot f n v).ctxs = s.ctxs := rfl
@[simp] theorem State.setSlot_parts (s : State) (f n : Nat) (v : Slot) : (s.setSlot f n v).parts = s.parts := rfl
@[simp] theorem State.setSlot_mem (s : State) (f n : Nat) (v : Slot) : (s.setSlot f n v).mem = s.mem := rfl
@[simp] theorem State.setSlot_memT (s : State) (f n : Nat) (v : Slot) : (s.setSlot f n v).memT = s.memT := rfl
@[simp] theorem State.setSlot_memP (s : State) (f n : Nat) (v : Slot) : (s.setSlot f n v).memP = s.memP := rfl
@[simp] theorem State.setSlot_qmap (s : State) (f n : Nat) (v : Slot) : (s.setSlot f n v).qmap = s.qmap := rfl
@[simp] theorem State.setSlot_nqpend (s : State) (f n : Nat) (v : Slot) : (s.setSlot f n v).nqpend = s.nqpend := rfl
@[simp] theorem State.setSlot_regions (s : State) (f n : Nat) (v : Slot) : (s.setSlot f n v).regions = s.regions := rfl
@[simp] theorem State.setSlot_tick (s : State) (f n : Nat) (v : Slot) : (s.setSlot f n v).tick = s.tick := rfl
@[simp] theorem State.setSlot_dev (s : State) (f n : Nat) (v : Slot) : (s.setSlot f n v).dev = s.dev := rfl
@[simp] theorem State.setSlot_domain (s : State) (f n : Nat) (v : Slot) : (s.setSlot f n v).domain = s.domain := rfl
@[simp] theorem State.setSlot_reqs (s : State) (f n : Nat) (v : Slot) : (s.setSlot f n v).reqs = s.reqs := rfl
@[simp] theorem State.setSlot_copies (s : State) (f n : Nat) (v : Slot) : (s.setSlot f n v).copies = s.copies := rfl
@[simp] theorem State.setSlot_flights (s : State) (f n : Nat) (v : Slot) : (s.setSlot f n v).flights = s.flights := rfl
@[simp] theorem State.setSlot_merges (s : State) (f n : Nat) (v : Slot) : (s.setSlot f n v).merges = s.merges := rfl
@[simp] theorem State.setSlot_scOpen (s : State) (f n : Nat) (v : Slot) : (s.setSlot f n v).scOpen = s.scOpen := rfl
@[simp] theorem State.setSlot_chans (s : State) (f n : Nat) (v : Slot) : (s.setSlot f n v).chans = s.chans := rfl
@[simp] theorem State.setSlot_msix (s : State) (f n : Nat) (v : Slot) : (s.setSlot f n v).msix = s.msix := rfl
@[simp] theorem State.setSlot_log (s : State) (f n : Nat) (v : Slot) : (s.setSlot f n v).log = s.log := rfl
@[simp] theorem State.setSlot_power (s : State) (f n : Nat) (v : Slot) : (s.setSlot f n v).power = s.power := rfl
@[simp] theorem State.setSlot_apParts (s : State) (f n : Nat) (v : Slot) : (s.setSlot f n v).apParts = s.apParts := rfl
@[simp] theorem State.setSlot_apSec (s : State) (f n : Nat) (v : Slot) : (s.setSlot f n v).apSec = s.apSec := rfl
@[simp] theorem State.setSlot_apErr (s : State) (f n : Nat) (v : Slot) : (s.setSlot f n v).apErr = s.apErr := rfl
@[simp] theorem State.setSlot_apLast (s : State) (f n : Nat) (v : Slot) : (s.setSlot f n v).apLast = s.apLast := rfl
@[simp] theorem State.setSlot_apData (s : State) (f n : Nat) (v : Slot) : (s.setSlot f n v).apData = s.apData := rfl
@[simp] theorem State.setSlot_dmva (s : State) (f n : Nat) (v : Slot) : (s.setSlot f n v).dmva = s.dmva := rfl
@[simp] theorem State.setSlot_dmdata (s : State) (f n : Nat) (v : Slot) : (s.setSlot f n v).dmdata = s.dmdata := rfl
@[simp] theorem State.setSlot_dmctx (s : State) (f n : Nat) (v : Slot) : (s.setSlot f n v).dmctx = s.dmctx := rfl
@[simp] theorem State.setSlot_dmwr (s : State) (f n : Nat) (v : Slot) : (s.setSlot f n v).dmwr = s.dmwr := rfl
@[simp] theorem State.setSlot_dmTaint (s : State) (f n : Nat) (v : Slot) : (s.setSlot f n v).dmTaint = s.dmTaint := rfl
@[simp] theorem State.setSlot_testPort (s : State) (f n : Nat) (v : Slot) : (s.setSlot f n v).testPort = s.testPort := rfl
@[simp] theorem State.setSlot_events (s : State) (f n : Nat) (v : Slot) : (s.setSlot f n v).events = s.events := rfl
@[simp] theorem State.setSlot_actions (s : State) (f n : Nat) (v : Slot) : (s.setSlot f n v).actions = s.actions := rfl
@[simp] theorem State.setSlot_snap (s : State) (f n : Nat) (v : Slot) : (s.setSlot f n v).snap = s.snap := rfl
@[simp] theorem State.setSlot_hmRes (s : State) (f n : Nat) (v : Slot) : (s.setSlot f n v).hmRes = s.hmRes := rfl
@[simp] theorem State.setSlot_hmEvt (s : State) (f n : Nat) (v : Slot) : (s.setSlot f n v).hmEvt = s.hmEvt := rfl
@[simp] theorem State.setSlot_hmDone (s : State) (f n : Nat) (v : Slot) : (s.setSlot f n v).hmDone = s.hmDone := rfl
@[simp] theorem State.setSlot_hmBusy (s : State) (f n : Nat) (v : Slot) : (s.setSlot f n v).hmBusy = s.hmBusy := rfl
@[simp] theorem State.setSlot_hmCmd (s : State) (f n : Nat) (v : Slot) : (s.setSlot f n v).hmCmd = s.hmCmd := rfl
@[simp] theorem State.setSlot_hmData (s : State) (f n : Nat) (v : Slot) : (s.setSlot f n v).hmData = s.hmData := rfl
@[simp] theorem State.setSlot_wfwd (s : State) (f n : Nat) (v : Slot) : (s.setSlot f n v).wfwd = s.wfwd := rfl
@[simp] theorem State.setSlot_trgs (s : State) (f n : Nat) (v : Slot) : (s.setSlot f n v).trgs = s.trgs := rfl
@[simp] theorem State.setSlot_forwards (s : State) (f n : Nat) (v : Slot) : (s.setSlot f n v).forwards = s.forwards := rfl
@[simp] theorem State.setSlot_routes (s : State) (f n : Nat) (v : Slot) : (s.setSlot f n v).routes = s.routes := rfl
@[simp] theorem State.setSlot_ports (s : State) (f n : Nat) (v : Slot) : (s.setSlot f n v).ports = s.ports := rfl
@[simp] theorem State.setSlot_master (s : State) (f n : Nat) (v : Slot) : (s.setSlot f n v).master = s.master := rfl
@[simp] theorem State.setSlot_joinsFailed (s : State) (f n : Nat) (v : Slot) : (s.setSlot f n v).joinsFailed = s.joinsFailed := rfl
@[simp] theorem State.setSlot_meas (s : State) (f n : Nat) (v : Slot) : (s.setSlot f n v).meas = s.meas := rfl
@[simp] theorem State.setSlot_stacksIn (s : State) (f n : Nat) (v : Slot) : (s.setSlot f n v).stacksIn = s.stacksIn := rfl
@[simp] theorem State.setSlot_svn (s : State) (f n : Nat) (v : Slot) : (s.setSlot f n v).svn = s.svn := rfl
@[simp] theorem State.setSlot_update (s : State) (f n : Nat) (v : Slot) : (s.setSlot f n v).update = s.update := rfl
@[simp] theorem State.setSlot_errs (s : State) (f n : Nat) (v : Slot) : (s.setSlot f n v).errs = s.errs := rfl
@[simp] theorem State.setSlot_sched (s : State) (f n : Nat) (v : Slot) : (s.setSlot f n v).sched = s.sched := rfl
@[simp] theorem State.setSlot_due (s : State) (f n : Nat) (v : Slot) : (s.setSlot f n v).due = s.due := rfl
@[simp] theorem State.setSlot_later (s : State) (f n : Nat) (v : Slot) : (s.setSlot f n v).later = s.later := rfl
@[simp] theorem State.setSlot_clock (s : State) (f n : Nat) (v : Slot) : (s.setSlot f n v).clock = s.clock := rfl
@[simp] theorem State.setSlot_turn (s : State) (f n : Nat) (v : Slot) : (s.setSlot f n v).turn = s.turn := rfl
@[simp] theorem State.setSlot_stalled (s : State) (f n : Nat) (v : Slot) : (s.setSlot f n v).stalled = s.stalled := rfl
@[simp] theorem State.setSlot_nextId (s : State) (f n : Nat) (v : Slot) : (s.setSlot f n v).nextId = s.nextId := rfl
@[simp] theorem State.setSlot_free (s : State) (f n : Nat) (v : Slot) : (s.setSlot f n v).free = s.free := rfl

/-! Each part after its own update. -/

@[simp] theorem State.core_setCore_self (s : State) (k : Nat) (v : Core) : (s.setCore k v).core k = v := kget_kset_self ..
theorem State.core_setCore_ne (s : State) {j k : Nat} (h : j ≠ k) (v : Core) : (s.setCore k v).core j = s.core j := kget_kset_ne _ h ..
@[simp] theorem State.prism_setPrism_self (s : State) (k : Nat) (v : Prism) : (s.setPrism k v).prism k = v := kget_kset_self ..
theorem State.prism_setPrism_ne (s : State) {j k : Nat} (h : j ≠ k) (v : Prism) : (s.setPrism k v).prism j = s.prism j := kget_kset_ne _ h ..
@[simp] theorem State.facet_setFacet_self (s : State) (k : Nat) (v : Facet) : (s.setFacet k v).facet k = v := kget_kset_self ..
theorem State.facet_setFacet_ne (s : State) {j k : Nat} (h : j ≠ k) (v : Facet) : (s.setFacet k v).facet j = s.facet j := kget_kset_ne _ h ..
@[simp] theorem State.slice_setSlice_self (s : State) (k : Nat) (v : Slice) : (s.setSlice k v).slice k = v := kget_kset_self ..
theorem State.slice_setSlice_ne (s : State) {j k : Nat} (h : j ≠ k) (v : Slice) : (s.setSlice k v).slice j = s.slice j := kget_kset_ne _ h ..
@[simp] theorem State.ctx_setCtx_self (s : State) (k : Nat) (v : Context) : (s.setCtx k v).ctx k = v := kget_kset_self ..
theorem State.ctx_setCtx_ne (s : State) {j k : Nat} (h : j ≠ k) (v : Context) : (s.setCtx k v).ctx j = s.ctx j := kget_kset_ne _ h ..
@[simp] theorem State.part_setPart_self (s : State) (k : Nat) (v : Part) : (s.setPart k v).part k = v := kget_kset_self ..
theorem State.part_setPart_ne (s : State) {j k : Nat} (h : j ≠ k) (v : Part) : (s.setPart k v).part j = s.part j := kget_kset_ne _ h ..
@[simp] theorem Facet.slot_setSlot_self (x : Facet) (n : Nat) (v : Slot) : (x.setSlot n v).slot n = v := kget_kset_self ..
theorem Facet.slot_setSlot_ne (x : Facet) {j n : Nat} (h : j ≠ n) (v : Slot) : (x.setSlot n v).slot j = x.slot j := kget_kset_ne _ h ..
@[simp] theorem State.facet_setSlot_self (s : State) (f n : Nat) (v : Slot) : (s.setSlot f n v).facet f = (s.facet f).setSlot n v :=
  kget_kset_self ..
theorem State.facet_setSlot_ne (s : State) {g f : Nat} (h : g ≠ f) (n : Nat) (v : Slot) : (s.setSlot f n v).facet g = s.facet g :=
  kget_kset_ne _ h ..
@[simp] theorem State.slot_setSlot_self (s : State) (f n : Nat) (v : Slot) : (s.setSlot f n v).slot f n = v := by simp [State.slot]
theorem State.slot_setSlot_ne (s : State) {g j f n : Nat} (h : (g, j) ≠ (f, n)) (v : Slot) : (s.setSlot f n v).slot g j = s.slot g j := by
  by_cases hg : g = f
  · subst hg
    have hj : j ≠ n := fun e => h (by rw [e])
    simp [State.slot, Facet.slot_setSlot_ne _ hj]
  · simp [State.slot, State.facet_setSlot_ne _ hg]

/-! What facets hold beside their slots after a slot was replaced. -/

@[simp] theorem Facet.setSlot_cyc (x : Facet) (n : Nat) (v : Slot) : (x.setSlot n v).cyc = x.cyc := rfl
@[simp] theorem Facet.setSlot_grant (x : Facet) (n : Nat) (v : Slot) : (x.setSlot n v).grant = x.grant := rfl
@[simp] theorem Facet.setSlot_v (x : Facet) (n : Nat) (v : Slot) : (x.setSlot n v).v = x.v := rfl
@[simp] theorem Facet.setSlot_ls (x : Facet) (n : Nat) (v : Slot) : (x.setSlot n v).ls = x.ls := rfl
@[simp] theorem Facet.setSlot_streams (x : Facet) (n : Nat) (v : Slot) : (x.setSlot n v).streams = x.streams := rfl
@[simp] theorem Facet.setSlot_mq0 (x : Facet) (n : Nat) (v : Slot) : (x.setSlot n v).mq0 = x.mq0 := rfl
@[simp] theorem Facet.setSlot_mq1 (x : Facet) (n : Nat) (v : Slot) : (x.setSlot n v).mq1 = x.mq1 := rfl
@[simp] theorem Facet.setSlot_seqQ (x : Facet) (n : Nat) (v : Slot) : (x.setSlot n v).seqQ = x.seqQ := rfl
@[simp] theorem Facet.setSlot_inflight (x : Facet) (n : Nat) (v : Slot) : (x.setSlot n v).inflight = x.inflight := rfl
@[simp] theorem Facet.setSlot_sb (x : Facet) (n : Nat) (v : Slot) : (x.setSlot n v).sb = x.sb := rfl
@[simp] theorem Facet.setSlot_parked (x : Facet) (n : Nat) (v : Slot) : (x.setSlot n v).parked = x.parked := rfl
@[simp] theorem Facet.setSlot_divFree (x : Facet) (n : Nat) (v : Slot) : (x.setSlot n v).divFree = x.divFree := rfl

/-! Threads. -/

@[simp] theorem State.thread_core (s : State) (k : Nat) : s.thread (.core k) = (s.core k).th := rfl
@[simp] theorem State.thread_slot (s : State) (f n : Nat) : s.thread (.slot f n) = (s.slot f n).th := rfl
@[simp] theorem State.thread_setThread_core (s : State) (k : Nat) (t : Thread) : (s.setThread (.core k) t).thread (.core k) = t := by
  simp [State.setThread, State.thread]
@[simp] theorem State.thread_setThread_slot (s : State) (f n : Nat) (t : Thread) : (s.setThread (.slot f n) t).thread (.slot f n) = t := by
  simp [State.setThread, State.thread]

/-- An agent's new thread leaves every other agent's as it was. -/
theorem State.thread_setThread_ne (s : State) {a b : Agent} (h : b ≠ a) (t : Thread) : (s.setThread a t).thread b = s.thread b := by
  cases a with
  | core k =>
    cases b with
    | core j => simp [State.setThread, State.thread, State.core_setCore_ne s (fun e => h (by rw [e]) : j ≠ k)]
    | slot g j => rfl
    | peer _ => rfl
  | slot f n =>
    cases b with
    | core j => rfl
    | slot g j =>
      simp [State.setThread, State.thread, State.slot_setSlot_ne s (fun e => h (by cases e; rfl) : (g, j) ≠ (f, n))]
    | peer _ => rfl
  | peer _ => rfl

/-! Registers. -/

@[simp] theorem Thread.rx_zero (t : Thread) : t.rx 0 = 0 := rfl
@[simp] theorem Thread.tx_zero (t : Thread) : t.tx 0 = false := rfl
@[simp] theorem Thread.rp_zero (t : Thread) : t.rp 0 = true := rfl
@[simp] theorem Thread.next_x (t : Thread) : t.next.x = t.x := by unfold Thread.next Thread.unprefixed; split <;> rfl
@[simp] theorem Thread.next_xt (t : Thread) : t.next.xt = t.xt := by unfold Thread.next Thread.unprefixed; split <;> rfl
@[simp] theorem Thread.next_p (t : Thread) : t.next.p = t.p := by unfold Thread.next Thread.unprefixed; split <;> rfl
@[simp] theorem Thread.next_rnd (t : Thread) : t.next.rnd = t.rnd := by unfold Thread.next Thread.unprefixed; split <;> rfl
@[simp] theorem Thread.next_rkey (t : Thread) : t.next.rkey = t.rkey := by unfold Thread.next Thread.unprefixed; split <;> rfl
@[simp] theorem Thread.next_rctr (t : Thread) : t.next.rctr = t.rctr := by unfold Thread.next Thread.unprefixed; split <;> rfl
@[simp] theorem Thread.next_pend (t : Thread) : t.next.pend = t.pend := by unfold Thread.next Thread.unprefixed; split <;> rfl
@[simp] theorem Thread.next_marks (t : Thread) : t.next.marks = t.marks := by unfold Thread.next Thread.unprefixed; split <;> rfl
@[simp] theorem Thread.next_pc (t : Thread) : t.next.pc = t.pc + 4 := rfl
@[simp] theorem Thread.next_stat (t : Thread) : t.next.stat = t.unprefixed.stat := rfl
@[simp] theorem Thread.next_ppc (t : Thread) : t.next.ppc = t.ppc := by unfold Thread.next Thread.unprefixed; split <;> rfl
@[simp] theorem Thread.next_lat (t : Thread) : t.next.lat = t.lat := by unfold Thread.next Thread.unprefixed; split <;> rfl

/-! What becomes due. -/

@[simp] theorem State.pushFirst_due (s : State) (i : Instr) : (s.pushFirst i).due = i :: s.due.erase i := rfl
@[simp] theorem State.done_due (s : State) (i : Instr) : (s.done i).due = s.due.erase i := rfl

theorem State.mem_pushDue (s : State) (i : Instr) : i ∈ (s.pushDue i).due := by
  unfold State.pushDue
  split
  · rename_i h; simpa using h
  · simp

/-- A step that is not due changes nothing. -/
theorem State.whenDue_not (s : State) (i : Instr) (k : State → State) (h : i ∉ s.due) : s.whenDue i k = .next s := by
  simp [State.whenDue, h]

/-- A step that is due takes place. -/
theorem State.whenDue_due (s : State) (i : Instr) (k : State → State) (h : i ∈ s.due) : s.whenDue i k = .next (k (s.done i)) := by
  simp [State.whenDue, h]

end Sys2Proof.Machine
end

