-- ==== Sys2Proof/Laws/Ops.lean ====
section
/-! SUPPORT. What the shared operations do: issue, retirement, traps and faults. -/

namespace Sys2Proof.Machine

/-! Issue. -/

/-- Where nothing holds an instruction up, its own effect happens. -/
theorem issue_ready {s : State} {n : Need} (h : Ready s n) (k : Thread → Out) : issue s n k = timed s n (k (s.thread s.turn)) := by
  obtain ⟨ha, hr, hw, hu, hd, hf, hm⟩ := h
  simp [issue, ha, hr, hw, hu, hd, hf, hm]

/-- The readiness of results changes nothing but when they may be read, and when the divider is free again. -/
theorem timed_cases (s : State) (n : Need) (t : State) :
    timed s n (.next t) = .next t ∨ ∃ f k, s.turn = .slot f k ∧
      (timed s n (.next t) = .next ((t.holdDivider n f).latency n f k) ∨ timed s n (.next t) = .next (t.holdDivider n f)) := by
  unfold timed
  split
  · exact .inl rfl
  · cases hs : s.turn with
    | core k => exact .inl rfl
    | slot f k =>
      dsimp only
      split
      · exact .inl rfl
      · refine .inr ⟨f, k, rfl, ?_⟩
        split
        · exact .inl rfl
        · exact .inr rfl
    | peer d => exact .inl rfl

/-- A core's instruction has no such readiness. -/
theorem timed_core {s : State} {k : Nat} (h : s.turn = .core k) (n : Need) (o : Out) : timed s n o = o := by
  unfold timed
  split
  · rfl
  · rw [h]

/-- A result of one cycle needs none. -/
theorem timed_one (s : State) (n : Need) (h : n.cycles ≤ 1) (o : Out) : timed s n o = o := by simp [timed, h]

/-! Retirement. -/

theorem retire_next (s : State) (t : Thread) : retire s t = .next (s.retireAs s.turn t) := rfl

theorem State.retireAs_core (s : State) (k : Nat) (t : Thread) :
    s.retireAs (.core k) t = (s.setCore k { s.core k with th := t.next }).setCore k { s.core k with th := t.next, park := none, ibuf := none } := by
  simp [State.retireAs, State.afterRetire, State.setThread, State.modCore]

@[simp] theorem State.retireAs_core_thread (s : State) (k : Nat) (t : Thread) : (s.retireAs (.core k) t).thread (.core k) = t.next := by
  simp [State.retireAs_core]

/-! Exceptions of a control core. -/

/-- What `Core.trap` leaves, in the terms of the statements. -/
theorem Core.trap_trapped (c : Core) (kind : BitVec 2) (code : BitVec 12) (epc addr : Word) :
    Trapped c (c.trap kind code epc addr) kind code epc addr := by
  unfold Trapped; and_intros <;> rfl

/-- A fault of a control core traps it and touches nothing else. -/
theorem State.takeFault_core (s : State) (k : Nat) (t : Trouble) :
    s.takeFault (.core k) t = s.setCore k ((s.core k).trap kFault (t.cause.setWidth 12) (s.core k).th.pc t.addr) := rfl

theorem faultOut_next (s : State) (cause : BitVec 8) (addr info : Word) :
    faultOut s cause addr info = .next (s.takeFault s.turn { cause := cause, addr := addr, info := info }) := rfl

/-- A stalled instruction leaves the machine as it was but for the note of the stall. -/
theorem stall_next (s : State) (cl : Nat) : stall s cl = .next { s with stalled := some cl } := rfl

end Sys2Proof.Machine
end

