-- ==== Sys2Proof/Tests/Witness.lean ====
section
/-! SUPPORT. Small states on which the hypotheses of claims meet: a control core that runs at level 1, one at level 0, and a slot that
runs a tile task, in a partition of one prism, one slice and 1 MiB of HBM, whose first page is mapped to physical address 0x10000. -/

namespace Sys2Proof.Tests

open Sys2Proof Sys2Proof.Machine

/-- Leaf entries of that page: read, write and execute; the same with RED; a page of 128-byte tiles. -/
def plainLeaf : Word := 0x1001F
def redLeaf : Word := 0x1401F
def tileLeaf : Word := 0x1020F

/-- Context 1 of partition 0, with one issued entry. -/
def ctx1 : Context := { live := true, d := { redok := true }, window := [{ seq := 0, lpc := 0, state := .issued, left := 1 }] }

/-- A slice whose translation buffer maps the page by a leaf. -/
def mapped (leaf : Word) : Slice := { tlb := [{ asn := 0, base := 0, size := 65536, leaf := leaf }] }

/-- Core 0 runs at level 1. -/
def onCore : State :=
  { power := .up, cores := [(0, { run := .running })], ctxs := [(1, ctx1)], slices := [(0, mapped plainLeaf)],
    regions := [(0, (0x8000000000000000, 0x100000))], nextId := 8,
    parts := [(0, { prisms := [0], slices := [0], homes := [0], cores := [0], hbm := [(0, 16)] })] }

/-- Core 0 runs the stream of context 1 at level 0. -/
def onStream : State := { onCore with cores := [(0, { run := .running, level := 0, stream := 1 })] }

/-- Slot 3 of facet 0 runs the task of ordinal 0 of that entry, with 1,024 bytes of local store. -/
def onTask : State :=
  { onCore with turn := .slot 0 3, clock := .facet 0
                facets := [(0, { grant := 8, slots := [(3, { job := .task 1 0 0 false, lsize := 1024 })] })] }

/-- Request 7 of that slot for an address of the page, in a stage, and a step that is due. -/
def asking (x : Slice) (op : ReqOp) (stage : Stage) (i : Instr) : State :=
  { onTask with slices := [(0, x)], due := [i],
                reqs := [(7, { who := .slot 0 3, ctx := 1, va := 0x100, pc := 0, op := op, stage := stage })] }

/-- The request itself. -/
def asked (op : ReqOp) (stage : Stage) : Req := { who := .slot 0 3, ctx := 1, va := 0x100, pc := 0, op := op, stage := stage }

/-- No access is parked on the facet of that slot. -/
theorem none_parked (x : Slice) (op : ReqOp) (stage : Stage) (i : Instr) :
    NoneParked ((asking x op stage i).done i) (.slot 0 3) ∧ NoneParked (asking x op stage i) (.slot 0 3) :=
  ⟨fun _ _ h => by cases h; rfl, fun _ _ h => by cases h; rfl⟩

theorem ours (f n : Nat) : (Agent.slot f n).ours := fun _ h => by cases h

/-- Nothing holds that request back at slice 0, which caches nothing. -/
abbrev Unhindered (x : Slice) (op : ReqOp) (st : State) : Prop :=
  (st.whereIs 0x100 = .here ∧ st.home 1 0x100 = some 0) ∧ (st.migrating 0 1 0x100 = false ∧ st.areaBusy 0 (asked op .sent) = false) ∧
    st.dBlocked 0 7 1 0x100 0x10100 op.size = false ∧ x.heldD = [] ∧ x.parkq = [] ∧ x.cache = []

/-- A slot's request that has arrived at its page stands at its home slice. -/
theorem at_slice (x : Slice) (leaf : Word) (op : ReqOp) (st : State)
    (h : st = (asking x op .sent (.acceptance 7 noAnswer)).done (.acceptance 7 noAnswer)) (hx : Unhindered x op st)
    (hf : st.findAt 0 1 0x100 op.access = (.at 0x10100 leaf, st)) : AtSlice st 7 (asked op .sent) 0 0x10100 leaf := by
  subst h
  obtain ⟨⟨hw, hh⟩, ⟨hm, ha⟩, hb, hq⟩ := hx
  exact ⟨rfl, ours 0 3, (none_parked _ _ _ _).1, rfl, rfl, hw, hh, hm, ha, rfl, hf, hb, hq.1, hq.2.1, hq.2.2,
    by show 0x10100 % 65536 = (0x100#64).toNat % 65536; decide, fun _ => rfl⟩

/-- So does one that is no SC operation. -/
theorem at_home (x : Slice) (leaf : Word) (op : ReqOp) (st : State)
    (h : st = (asking x op .sent (.acceptance 7 noAnswer)).done (.acceptance 7 noAnswer)) (hx : Unhindered x op st)
    (hf : st.findAt 0 1 0x100 op.access = (.at 0x10100 leaf, st)) (hs : op.isSc = false) : AtHome st 7 (asked op .sent) 0 0x10100 leaf :=
  ⟨at_slice x leaf op st h hx hf, fun e he => by
    subst h
    obtain rfl : e = (7, asked op .sent) := by simpa [State.done, asking, asked] using he
    exact hs⟩

end Sys2Proof.Tests
end

