-- ==== Sys2Proof/Tests/Memory.lean ====
section
/-! SUPPORT. For each claim about fetching, memory, atomics and fences, a state and operands that meet its hypotheses. -/

set_option maxRecDepth 100000
set_option Elab.async false

open Sys2Proof Sys2Proof.Machine Sys2Proof.Tests

/-- Core 0 with ADDI x5, x6, 1 at the pc, 0x10000 in x6, a tainted sector there and a poisoned granule at 0x10040. -/
def memoryCore : State :=
  { onCore.modThread (.core 0) (fun t => t.wx 6 0x10000 false) with mem := [(0, 0x93), (1, 0x02), (2, 0x13)], memT := [0x800], memP := [0x401] }

theorem test_holds_FetchReadsTheWordAtThePc :
    memoryCore.spaceOf (.core 0) = .phys ∧ memoryCore.physOf (memoryCore.core 0).th.pc = some 0 ∧
      memoryCore.mayTouch (memoryCore.core 0).wld 0 = true ∧ 0 / 64 ∉ memoryCore.memP := by decide +kernel

theorem test_holds_StepRunsTheInstructionOfACore :
    memoryCore.power ≠ .shutDown ∧ memoryCore.sched = [] ∧ memoryCore.due = [] ∧ memoryCore.clock = .core 0 ∧
      (memoryCore.core 0).run = .running ∧ (memoryCore.core 0).park = none ∧ (memoryCore.core 0).late = [] ∧
      (memoryCore.core 0).interrupt = none ∧ (memoryCore.core 0).level = 1 ∧
      State.fetch { memoryCore with stalled := none, turn := .core 0 } (.core 0) = .word 0x00130293#32 :=
  ⟨by decide, rfl, rfl, rfl, rfl, rfl, rfl, by decide +kernel, rfl, by rfl⟩

/-- Slot 3 in its turn, with the same word at the pc of its page. -/
def memorySlot : State :=
  { onTask with facets := [(0, { cyc := 3, slots := [(3, { job := .task 1 0 0 false, lsize := 1024 })] })],
                mem := [(0x10000, 0x93), (0x10001, 0x02), (0x10002, 0x13)] }

theorem test_holds_StepRunsTheInstructionOfASlot :
    memorySlot.power ≠ .shutDown ∧ memorySlot.sched = [] ∧ memorySlot.due = [] ∧ memorySlot.clock = .facet 0 ∧
      (memorySlot.slot 0 3).candidate (memorySlot.facet 0).cyc = true ∧ (memorySlot.facet 0).save ≠ .draining ∧
      (memorySlot.slot 0 3).late = [] ∧ (memorySlot.slot 0 3).sdc.haltReq = none ∧ memorySlot.fpHeld (.slot 0 3) = false ∧
      State.fetch { memorySlot with stalled := none, turn := .slot 0 3 } (.slot 0 3) = .word 0x00130293#32 ∧
      (∃ t, exec (.addi 1 6 5) { memorySlot with stalled := none, turn := .slot 0 3 } = .next t ∧ t.stalled = none) := by
  refine ⟨by decide, rfl, rfl, rfl, ?_⟩
  and_intros
  all_goals first | rfl | decide +kernel | exact ⟨_, rfl, by decide +kernel⟩

theorem test_holds_ShutDownDeviceStops : ({ power := .shutDown } : State).power = .shutDown ∧ onCore.power ≠ .shutDown := by decide

theorem test_holds_PhysicalLoadsAndStores :
    PhysicalHbm memoryCore 0 0x10000 0x10000 ∧ Ready memoryCore { reads := [6], writes := [5] } ∧ Ready memoryCore { reads := [6, 7] } ∧
      (memoryCore.thread memoryCore.turn).rx 6 + (0 : BitVec 12).signExtend 64 = 0x10000 ∧
      PhysicalHbm memoryCore 0 0x10040 0x10040 ∧ 0x10040 / 64 ∈ memoryCore.memP :=
  ⟨by unfold PhysicalHbm; decide +kernel, by unfold Ready; decide +kernel, by unfold Ready; decide +kernel, by decide +kernel,
    by unfold PhysicalHbm; decide +kernel, by decide +kernel⟩

/-- At offset 0 plain, at offset 1 misaligned, above HBM's regions and above the physical space refused. -/
theorem test_holds_PhysicalAccessChecks :
    memoryCore.turn = .core 0 ∧ memoryCore.spaceOf (.core 0) = .phys ∧ Ready memoryCore { reads := [6], writes := [5] } ∧
      (0x10001#64).toNat % ldBytes .n32 ≠ 0 ∧ memoryCore.physOf 0x100000000000 = none ∧
      memoryCore.physOf 0x200000 = some 0x200000 ∧ isRegister 0x200000 = false ∧ memoryCore.mayTouch (memoryCore.core 0).wld 0x200000 = false :=
  ⟨by decide +kernel, by decide +kernel, by unfold Ready; decide +kernel, by decide +kernel⟩

theorem test_holds_PhysicalAtomics :
    ∃ c, atomicCase (.amcas .sc 7 6 .i32 5) = some c ∧ (Instr.amcas .sc 7 6 .i32 5).wf = true ∧ c.form ≠ .d ∧
      PhysicalHbm memoryCore 0 ((memoryCore.thread memoryCore.turn).rx c.a) 0x10000 ∧ 0x10000 / 64 ∉ memoryCore.memP ∧
      Ready memoryCore { reads := c.reads, writes := c.writes } :=
  ⟨_, rfl, by decide, by decide, by unfold PhysicalHbm; decide +kernel, by decide +kernel, by unfold Ready; decide +kernel⟩

/-! Local store. -/

theorem local_ready (la k : Nat) (wr : Bool) (h : onTask.mayUse 0 3 la k = true) (hc : (onTask.facet 0).covered la k wr = false) :
    LocalReady onTask 0 3 la k wr := ⟨rfl, h, hc, fun _ _ h => by cases h; rfl, rfl⟩

/-- Word 0 empty, word 1 full. -/
def emptyWord : State := onTask.modFacet 0 fun x => { x with ls := [(0, { empty := true })] }

theorem test_holds_LocalLoads :
    LocalReady onTask 0 3 1016 8 false ∧ Ready onTask { reads := [6], writes := [5] } :=
  ⟨local_ready _ _ _ (by decide +kernel) rfl, by unfold Ready; decide +kernel⟩

theorem test_holds_LocalStores : LocalReady onTask 0 3 1016 8 true ∧ Ready onTask { reads := [6, 7] } :=
  ⟨local_ready _ _ _ (by decide +kernel) rfl, by unfold Ready; decide +kernel⟩

/-- A take of a full word, and of one that is empty. -/
theorem test_holds_SynchronisingLoads :
    syncLoadCase (.ldftI32 1 6 5) = some (1, 6, 5, true, 4, true) ∧ LocalReady onTask 0 3 4 4 false ∧ onTask.unfinished onTask.turn = false ∧
      Ready onTask { handler := false, reads := [6], writes := [5] } ∧ (onTask.facet 0).allAre 4 4 false ∧ ¬(emptyWord.facet 0).allAre 0 4 false :=
  ⟨rfl, local_ready _ _ _ (by decide +kernel) rfl, by decide +kernel, by unfold Ready; decide +kernel, fun _ _ _ => rfl,
    fun h => absurd (h 0 (by decide) (by decide)) (by decide +kernel)⟩

theorem test_holds_SynchronisingStores :
    LocalReady onTask 0 3 8 8 true ∧ onTask.unfinished onTask.turn = false ∧ Ready onTask { handler := false, reads := [6, 7] } ∧
      (emptyWord.facet 0).allAre 0 4 true ∧ ¬(onTask.facet 0).allAre 8 8 true := by
  refine ⟨local_ready _ _ _ (by decide +kernel) rfl, by decide +kernel, by unfold Ready; decide +kernel, fun i h h' => ?_,
    fun h => absurd (h 2 (by decide) (by decide)) (by decide +kernel)⟩
  obtain rfl : i = 0 := by omega
  decide +kernel

theorem test_holds_ForcedStoresAndMarkEmpty :
    LocalReady onTask 0 3 8 8 true ∧ onTask.unfinished onTask.turn = false ∧ Ready onTask { reads := [6, 7] } :=
  ⟨local_ready _ _ _ (by decide +kernel) rfl, by decide +kernel, by unfold Ready; decide +kernel⟩

/-- Three bits from bit 6 of byte 0. -/
theorem test_holds_BitFieldLoadsAndStores :
    fieldForm (onTask.slot 0 3) (.bldRegister true 2 6 5) = some (0, 3, [6], [5]) ∧ (onTask.facet 0).lsOld = [] ∧
      LocalReady onTask 0 3 (fieldFirst 6) (fieldBytes 6 3) true ∧ LocalReady onTask 0 3 (fieldFirst 0) (fieldBytes 0 3) false ∧
      Ready onTask { reads := [6], writes := [5] } :=
  ⟨by decide +kernel, rfl, local_ready _ _ _ (by decide +kernel) rfl, local_ready _ _ _ (by decide +kernel) rfl, by unfold Ready; decide +kernel⟩

/-- The slot while a copy moves bytes 0 to 63 into local store. -/
def copying : State :=
  onTask.modFacet 0 fun x => { x with sb := [{ op := 1, slot := 4, kind := .copy, dir := false, laddr := 0, len := 64, gaddr := 0 }] }

theorem test_holds_LocalAccessChecks :
    localForm (copying.slot 0 3).th (.stl 0 7 6 .n32) = some (0, 4, true, [6, 7], []) ∧ copying.turn = .slot 0 3 ∧
      Ready copying { handler := false, reads := [6, 7] } ∧ copying.mayUse 0 3 0 4 = true ∧ (copying.facet 0).covered 0 4 true = true ∧
      copying.mayUse 0 3 1024 4 = false ∧ 1022 % 4 ≠ 0 :=
  ⟨by decide +kernel, rfl, by unfold Ready; decide +kernel, by decide +kernel⟩

theorem test_holds_ByteBarriers :
    LocalReady onTask 0 3 0 8 true ∧ onTask.unfinished onTask.turn = false ∧ Ready onTask { handler := false, reads := [6, 7] } :=
  ⟨local_ready _ _ _ (by decide +kernel) rfl, by decide +kernel, by unfold Ready; decide +kernel⟩

/-! Fences and requests of a slot. -/

theorem test_holds_NarrowFences :
    Ready onTask {} ∧ wideScope .facet = false ∧ onTask.unfinished onTask.turn = false ∧ Ready onCore {} ∧ onCore.turn = .core 0 :=
  ⟨by unfold Ready; decide +kernel, by decide +kernel, by decide +kernel, by unfold Ready; decide +kernel, rfl⟩

theorem test_holds_WideFences :
    onTask.turn = .slot 0 3 ∧ wideScope .domain = true ∧ Ready onTask {} ∧ onTask.unloaded onTask.turn = false ∧
      onTask.unfinished onTask.turn = false ∧ (onTask.flushPrism (prismOf 0)).isSome = true :=
  ⟨rfl, by decide, by unfold Ready; decide +kernel, by decide +kernel⟩

theorem test_holds_GlobalAccessesAreSent :
    (∃ q, sendingOf onTask 0 3 (.amadd .d 7 6 .f32 0) = some q ∧ (Instr.amadd .d 7 6 .f32 0).wf = true ∧ q.ok = true ∧
      onTask.whereIs q.va ≠ .nowhere ∧ Ready onTask { handler := false, reads := q.reads, writes := q.writes }) ∧ Idle onTask 0 3 := by
  refine ⟨⟨_, rfl, by decide, by decide +kernel, by decide +kernel, by unfold Ready; decide +kernel⟩, rfl, ⟨1, 0, 0, false, rfl, rfl⟩, ?_⟩
  decide +kernel

/-! Requests at their home slice. -/

theorem test_holds_AcceptedLoads :
    AtHome ((asking (mapped plainLeaf) (.load 5 .n64) .sent (.acceptance 7 noAnswer)).done (.acceptance 7 noAnswer)) 7
      (asked (.load 5 .n64) .sent) 0 0x10100 plainLeaf ∧ (asked (.load 5 .n64) .sent).va.toNat % ldBytes .n64 = 0 :=
  ⟨at_home _ _ _ _ rfl (by decide +kernel) (by rfl) rfl, by decide⟩

theorem test_holds_ReturnedLoads :
    ∃ ans : Answer, .loadDataReturn 7 ans ∈ (asking (mapped plainLeaf) (.load 5 .n16) .returning (.loadDataReturn 7 ans)).due ∧
      ans.data.length = ldBytes .n16 ∧ ans.poison = false ∧
      (asking (mapped plainLeaf) (.load 5 .n16) .returning (.loadDataReturn 7 ans)).req 7 = some (asked (.load 5 .n16) .returning) ∧
      NoneParked (asking (mapped plainLeaf) (.load 5 .n16) .returning (.loadDataReturn 7 ans)) (.slot 0 3) ∧
      (asking (mapped plainLeaf) (.load 5 .n16) .returning (.loadDataReturn 7 ans)).whereIs 0x100 = .here :=
  ⟨{ cause := none, data := [1, 2], taint := true, poison := false }, List.mem_singleton.2 rfl, rfl, rfl, rfl, (none_parked _ _ _ _).2, rfl⟩

theorem test_holds_AcceptedStores :
    AtHome ((asking (mapped plainLeaf) (.store 8 3 true) .sent (.acceptance 7 noAnswer)).done (.acceptance 7 noAnswer)) 7
      (asked (.store 8 3 true) .sent) 0 0x10100 plainLeaf ∧ stBytes .n64 = 8 ∧ (asked (.store 8 3 true) .sent).va.toNat % 8 = 0 :=
  ⟨at_home _ _ _ _ rfl (by decide +kernel) (by rfl) rfl, rfl, by decide⟩

theorem test_holds_AcceptedAtomics :
    AtHome ((asking (mapped plainLeaf) (.atomic opAdd .f32 .r 3 0 false 5 0) .sent (.acceptance 7 noAnswer)).done (.acceptance 7 noAnswer)) 7
      (asked (.atomic opAdd .f32 .r 3 0 false 5 0) .sent) 0 0x10100 plainLeaf ∧ leafRed (onTask.ctx 1).d plainLeaf = false :=
  ⟨at_home _ _ _ _ rfl (by decide +kernel) (by rfl) rfl, by decide +kernel⟩

theorem test_holds_AppliedAtomics :
    Accepted (asking (mapped plainLeaf) (.atomic opMax .n32 .relaxed 3 0 false 5 0) (.accepted 0x10100 plainLeaf) (.atomicApply 7 noAnswer)) 7
      (asked (.atomic opMax .n32 .relaxed 3 0 false 5 0) (.accepted 0x10100 plainLeaf)) 0 0x10100 (amBytes .n32) plainLeaf ∧
      atomicOk opMax .n32 = true :=
  ⟨⟨rfl, ours 0 3, (none_parked _ _ _ _).2, rfl, rfl, rfl, rfl, by decide, by decide, by decide +kernel⟩, by decide⟩

/-- A JOIN that is accepted, and one that is performed and brings its word from 1 to 0. -/
theorem test_holds_Joins :
    AtHome ((asking (mapped plainLeaf) (.join 5) .sent (.acceptance 7 noAnswer)).done (.acceptance 7 noAnswer)) 7 (asked (.join 5) .sent) 0 0x10100 plainLeaf ∧
      (let s := { asking (mapped plainLeaf) (.join 5) (.accepted 0x10100 plainLeaf) (.joinDecrement 7 noAnswer) with mem := [(0x10100, 1)] }
       Accepted s 7 (asked (.join 5) (.accepted 0x10100 plainLeaf)) 0 0x10100 64 plainLeaf ∧
         BitVec.ofNat 64 (ofBytes (readBytes s.mem 0x10100 8)) - 1 = 0 ∧ (s.entry 1 0).map (·.hdr.total) = some 1) :=
  ⟨at_home _ _ _ _ rfl (by decide +kernel) (by rfl) rfl,
    ⟨rfl, ours 0 3, (fun _ _ h => by cases h; rfl), rfl, rfl, rfl, rfl, by decide, by decide, by decide +kernel⟩, by decide +kernel, by decide +kernel⟩

theorem test_holds_HeldDeterministicAtomics :
    AtHome ((asking (mapped plainLeaf) (.atomic opAdd .bf16 .d 3 0 false 0 9) .sent (.acceptance 7 noAnswer)).done (.acceptance 7 noAnswer)) 7
      (asked (.atomic opAdd .bf16 .d 3 0 false 0 9) .sent) 0 0x10100 plainLeaf ∧
      (let s := asking (mapped plainLeaf) (.atomic opAdd .bf16 .d 3 0 false 0 9) (.accepted 0x10100 plainLeaf) (.holdingBufferRecord 7)
       s.req 7 = some (asked (.atomic opAdd .bf16 .d 3 0 false 0 9) (.accepted 0x10100 plainLeaf)) ∧ NoneParked s (.slot 0 3) ∧
         s.home 1 0x100 = some 0 ∧ (s.slice 0).hold.length < 16 ∧ ∀ p, (s.prism p).cache = []) :=
  ⟨at_home _ _ _ _ rfl (by decide +kernel) (by rfl) rfl, rfl, (none_parked _ _ _ _).2, rfl, by decide, fun _ => rfl⟩

/-- The record with a key of a batch. -/
def heldAdd (key : BitVec 64) (no : Nat) : DRec :=
  { c := 1, seq := 0, key := key, no := no, pa := 0x10100, dir := false, op := opAdd, t := .i32, v := 3 }

/-- A batch of two records of one word, one of them in a run. -/
def batch : State :=
  { onTask with slices := [(0, { mapped plainLeaf with hold := [heldAdd 2 1], runs := [(0, [heldAdd 1 5])] })], due := [.batchClose 0 1 0] }

theorem test_holds_ClosedBatches :
    .batchClose 0 1 0 ∈ batch.due ∧ (batch.slice 0).cache = [] ∧ (∀ p, (batch.prism p).cache = []) ∧
      (let l := [heldAdd 1 5, heldAdd 2 1]
       l.Perm ((batch.slice 0).records.filter (fun r => r.ofEntry 1 0)) ∧
         l.Pairwise (fun x y => x.key.toNat < y.key.toNat ∨ (x.key = y.key ∧ x.no < y.no)) ∧
         ∀ r ∈ l, r.pa = 0x10100 ∧ r.t = .i32 ∧ r.dir = false ∧ atomicOk r.op .i32 = true) ∧
      0x10100 / 64 ∉ batch.memP ∧ 0x10100 % amBytes .i32 = 0 :=
  ⟨List.mem_singleton.2 rfl, rfl, fun _ => rfl, ⟨.swap _ _ _, by decide, by decide⟩, by decide, by decide⟩

/-- Prism 0 with line 0 of the page: dirty bytes 0 to 3 and partial sums of word 4. -/
def cached (l : Line) : State := { onTask with prisms := [(0, { cache := [(0xFFF * 2 ^ 43, l)] })] }

theorem test_holds_ReductionLines :
    AtHome ((asking (mapped redLeaf) (.atomic opAdd .i32 .r 3 0 false 0 0) .sent (.acceptance 7 noAnswer)).done (.acceptance 7 noAnswer)) 7
      (asked (.atomic opAdd .i32 .r 3 0 false 0 0) .sent) 0 0x10100 redLeaf ∧
      leafRed ((asking (mapped redLeaf) (.atomic opAdd .i32 .r 3 0 false 0 0) .sent (.acceptance 7 noAnswer)).ctx 1).d redLeaf = true ∧
      (let s := cached { ctx := 1, upd := some (opAdd, .i32, [(16, 3, false)]) }
       (s.prismLine 0 (0 * 2 ^ 55 + 0xFFF * 2 ^ 43)).upd = some (opAdd, .i32, [(16, 3, false)]) ∧ (s.slice 0).cache = [] ∧
         (s.slice 0).pendingD (0x10000 + 16) 4 = false ∧
         (s.done (.reductionLineMerge 0 0 (0xFFF * 2 ^ 43))).wbPlace 1 (keyVa (0xFFF * 2 ^ 43)) 0 = .at 0 0x10000 plainLeaf) :=
  ⟨at_home _ _ _ _ rfl (by decide +kernel) (by rfl) rfl, by decide +kernel, by decide +kernel, rfl, by decide +kernel, by decide +kernel⟩

/-- Such a line in the prism, and a slice with a dirty line. -/
theorem test_holds_WriteBacks :
    (let s := cached { ctx := 1, data := 7, valid := 0xF, dirty := 0xF }
     let l := s.prismLine 0 (0 * 2 ^ 55 + 0xFFF * 2 ^ 43)
     l.dirty ≠ 0 ∧ (s.slice 0).cache = [] ∧
       (s.done (.writeBack (.prism 0 0 (0xFFF * 2 ^ 43)))).wbPlace l.ctx (keyVa (0xFFF * 2 ^ 43)) l.dirty = .at 0 0x10000 plainLeaf) ∧
      ∃ l, kfind 128 ({ onTask with slices := [(0, { cache := [(128, { dirty := 1, data := 7 })] })] }.slice 0).cache = some l :=
  ⟨⟨by decide +kernel, rfl, by decide +kernel⟩, _, rfl⟩

theorem test_holds_Prefetches :
    (onTask.done (.prefetch 0 0x10100)).mayPrefetch 0 0x10100 = true ∧ (onTask.slice 0).cache = [] ∧
      (onTask.slice 0).cache.length < (onTask.slice 0).lineLimit := ⟨by decide +kernel, rfl, by decide +kernel⟩

/-- An SC addition that is accepted into window 2, and that window with its operation as the last end marker arrives. -/
theorem test_holds_SequentialWindows :
    AtSlice ((asking (mapped plainLeaf) (.atomic opAdd .i32 .sc 3 0 false 5 2) .sent (.acceptance 7 noAnswer)).done (.acceptance 7 noAnswer)) 7
      (asked (.atomic opAdd .i32 .sc 3 0 false 5 2) .sent) 0 0x10100 plainLeaf ∧
      (let s := asking (mapped plainLeaf) (.atomic opAdd .i32 .sc 3 0 false 5 2) (.inWindow 2 0x10100 plainLeaf) (.endMarker 0 0 2)
       .endMarker 0 s.dev 2 ∈ s.due ∧ s.domain = [] ∧ NoneParked s (.slot 0 3) ∧ s.whereIs 0x100 = .here ∧ s.home 1 0x100 = some 0 ∧
         (s.slice 0).cache = [] ∧ 0x10100 % amBytes .i32 = 0 ∧ 0x10100 / 64 ∉ s.memP ∧ atomicOk opAdd .i32 = true) ∧
      (let s := { onTask with scOpen := [2], tick := 192 }
       2 ∈ s.scOpen ∧ 2 < s.tick / 64) :=
  ⟨at_slice _ _ _ _ rfl (by decide +kernel) (by rfl),
    ⟨List.mem_singleton.2 rfl, rfl, (none_parked _ _ _ _).2, rfl, rfl, rfl, by decide, by decide, by decide⟩, by decide⟩

theorem test_holds_RefusedRequestsAreSentAgain :
    let s := asking (mapped plainLeaf) (.vget 2 0 0 1024) (.refusedFull true) (.refusedRequestResend 7)
    .refusedRequestResend 7 ∈ s.due ∧ s.req 7 = some (asked (.vget 2 0 0 1024) (.refusedFull true)) := ⟨List.mem_singleton.2 rfl, rfl⟩

/-- The slot waits at a take for longer than its felim. -/
def tired : State :=
  onTask.modSlot 0 3 fun x => { x with park := some { kind := .take, addr := 64, elapsed := 9 }, felim := 8 }

theorem test_holds_WaitLimits :
    ∃ p, (tired.slot 0 3).park = some p ∧ p.kind.limited = true ∧ p.req = none ∧ (tired.slot 0 3).felim ≠ 0 ∧
      (tired.slot 0 3).felim.toNat < p.elapsed ∧ (∀ m ∈ tired.merges, m.2.full = false) ∧ ∃ c q o b, (tired.slot 0 3).job = .task c q o b :=
  ⟨_, rfl, rfl, rfl, by decide, by decide, (fun _ h => by cases h), 1, 0, 0, false, rfl⟩
end

