-- ==== Sys2Proof/Tests/Scalar.lean ====
section
/-! SUPPORT. For each claim about scalar instructions, control registers and traps, a state and operands that meet its hypotheses. -/

set_option maxRecDepth 100000
set_option Elab.async false

open Sys2Proof Sys2Proof.Machine Sys2Proof.Tests

theorem test_holds_IntegerResultsAreExact :
    ∃ c, intCase (.divW true .w16 7 6 5) = some c ∧ Ready onTask c.need := ⟨_, rfl, by unfold Ready; decide +kernel⟩

theorem test_holds_LogicalResultsAreBitwise :
    ∃ c, logicCase (.xnorW false .w8 7 6 5) = some c ∧ Ready onCore { reads := [c.a, c.b], writes := [c.d] } :=
  ⟨_, rfl, by unfold Ready; decide +kernel⟩

theorem test_holds_BitCountsAndReversals :
    ∃ c, unaryCase (.brevW true .w32 6 5) = some c ∧ Ready onTask { reads := [c.a], writes := [c.d] } :=
  ⟨_, rfl, by unfold Ready; decide +kernel⟩

theorem test_holds_ImmediateResults :
    ∃ f, immCase (.bfxI 60 3 6 5) = some (6, 5, f) ∧ (Instr.bfxI 60 3 6 5).wf = true ∧ Ready onTask { reads := [6], writes := [5] } :=
  ⟨_, rfl, by decide, by unfold Ready; decide +kernel⟩

theorem test_holds_BitFieldInsert :
    (Instr.bfi 60 3 6 5).wf = true ∧ Ready onCore { reads := [6, 5], writes := [5] } := ⟨by decide, by unfold Ready; decide +kernel⟩

theorem test_holds_UpperImmediates : Ready onTask { writes := [0] } := by unfold Ready; decide +kernel

theorem test_holds_IntegerComparesWriteOnePredicate :
    ∃ f, compareCase (.cmplt false .w8 7 6 0) = some (.w8, false, 7, 6, 0, f) ∧ Ready onTask { reads := [6, 7], pwrites := [0] } :=
  ⟨_, rfl, by unfold Ready; decide +kernel⟩

theorem test_holds_PredicateOperations :
    (∃ f, predCase (.pandn 2 1 3) = some ([1, 2], 3, f)) ∧ Ready onTask { preads := [1, 2], pwrites := [3] } ∧
      Ready onTask { reads := [6], pwrites := [3] } ∧ Ready onTask { reads := [6, 7], preads := [2], writes := [5] } ∧
      Ready onCore { writes := [5], preads := [1, 2, 3, 4, 5, 6, 7] } ∧ Ready onCore { reads := [6] } := by
  unfold Ready; exact ⟨⟨_, rfl⟩, by decide +kernel⟩

theorem test_holds_FloatArithmeticRoundsOnce :
    ∃ c, floatCase (.fnmadd 8 .f16 7 6 5) = some c ∧ Ready onTask (floatNeed c.rs c.d c.cycles c.divides) ∧ PlainFloat onTask :=
  ⟨_, rfl, by unfold Ready; decide +kernel, by unfold PlainFloat; decide +kernel⟩

/-- Slot 3 with NaNs of FP32 in x6 and 1 in x7. -/
def nanInX6 : State := onTask.modThread onTask.turn fun t => (t.wx 6 0x7F800001 false).wx 7 0x3F800000 false

theorem test_holds_FloatMinMaxOnNaN :
    Ready nanInX6 (floatNeed [6, 7] 5 5 false) ∧ PlainFloat nanInX6 ∧ ((nanInX6.thread nanInX6.turn).value .f32 6).isNan = true :=
  ⟨by unfold Ready; decide +kernel, by unfold PlainFloat; decide +kernel, by decide +kernel⟩

theorem test_holds_FloatMinMaxOrders :
    Ready nanInX6 (floatNeed [7, 8] 5 5 false) ∧ PlainFloat nanInX6 ∧ ((nanInX6.thread nanInX6.turn).value .f32 7).isNan = false ∧
      ((nanInX6.thread nanInX6.turn).value .f32 8).isNan = false :=
  ⟨by unfold Ready; decide +kernel, by unfold PlainFloat; decide +kernel, by decide +kernel⟩

theorem test_holds_FloatSignInjection :
    Ready onTask (floatNeed [6, 7] 5 5 false) ∧ (onTask.thread onTask.turn).pp = false := ⟨by unfold Ready; decide +kernel, by decide +kernel⟩

theorem test_holds_FloatConversionsAndClasses :
    Ready onTask (floatNeed [6] 5 5 false) ∧ PlainFloat onTask ∧ Fmt.bf16.isFloat = true ∧ Fmt.i8.isFloat = false :=
  ⟨by unfold Ready; decide +kernel, by unfold PlainFloat; decide +kernel, by decide +kernel⟩

theorem test_holds_FloatComparesAndNaN :
    Ready onTask { reads := [6, 7], pwrites := [1], cycles := 5 } ∧ rndTraps (onTask.thread onTask.turn).rnd = 0 :=
  ⟨by unfold Ready; decide +kernel, by decide +kernel⟩

/-- Core 0 with every trap enabled, 1 in x6 and 0 in x7, of FP32. -/
def trapping : State := onCore.modThread (.core 0) fun t => { t.wx 6 0x3F800000 false with rnd := 0x70000 }

/-- A core and a slot that divide by zero. -/
theorem test_holds_EnabledTrapTakesFpx :
    ∃ c, floatCase (.fdiv .f32 7 6 5) = some c ∧
      (let s := trapping
       s.turn = .core 0 ∧ Ready s (floatNeed c.rs c.d c.cycles c.divides) ∧ (s.thread s.turn).pp = false ∧
         (let x := s.thread s.turn
          (rndTraps x.rnd &&& (deliver (typFmt c.ty) (x.rounding 0) (c.gives (x.value c.ty) x.mode)).2.extractLsb' 0 3) ≠ 0)) ∧
      (let s := onTask.modThread onTask.turn fun t => { t.wx 6 0x3F800000 false with rnd := 0x70000 }
       s.turn = .slot 0 3 ∧ (s.slot 0 3).job = .task 1 0 0 false ∧ s.claimed (s.slot 0 3) 1 cFPX = false ∧ s.drawsPending s.turn = false ∧
         Ready s (floatNeed c.rs c.d c.cycles c.divides) ∧ (s.thread s.turn).pp = false ∧
         (let x := s.thread s.turn
          (rndTraps x.rnd &&& (deliver (typFmt c.ty) (x.rounding 0) (c.gives (x.value c.ty) x.mode)).2.extractLsb' 0 3) ≠ 0)) := by
  refine ⟨_, rfl, ?_⟩
  unfold Ready
  decide +kernel

theorem test_holds_BranchesOnRegisters :
    ∃ f, branchCase (.bge 0xFFF 7 6) = some (0xFFF, 7, 6, f) ∧ Ready onTask { reads := [6, 7] } :=
  ⟨_, rfl, by unfold Ready; decide +kernel⟩

theorem test_holds_BranchesOnPredicates : Ready onTask { preads := [3] } := by unfold Ready; decide +kernel

theorem test_holds_JumpsAndLinks : Ready onTask { writes := [1] } ∧ Ready onTask { reads := [6], writes := [1] } := by
  unfold Ready; decide +kernel

theorem test_holds_CoreRegistersByMask :
    ∃ f, csrCase (.csrrs 0x80B 6 5) = some (0x80B, 6, 5, f, true) ∧ coreCsrMask 0x80B = some (0x1F, 0x1F00) ∧ onCore.turn = .core 0 ∧
      (onCore.core 0).level = 1 ∧ Ready onCore { reads := [6], writes := [5] } :=
  ⟨_, rfl, rfl, rfl, rfl, by unfold Ready; decide +kernel⟩

theorem test_holds_PendingInterruptsClearOnOne :
    ∃ f, csrCase (.csrrw 0x807 6 5) = some (0x807, 6, 5, f, true) ∧ onCore.turn = .core 0 ∧ (onCore.core 0).level = 1 ∧
      Ready onCore { reads := [6], writes := [5] } := ⟨_, rfl, rfl, rfl, by unfold Ready; decide +kernel⟩

theorem test_holds_TrapCauseAsStored :
    onCore.turn = .core 0 ∧ (onCore.core 0).level = 1 ∧ Ready onCore { reads := [6], writes := [0] } :=
  ⟨rfl, rfl, by unfold Ready; decide +kernel⟩

theorem test_holds_SlotRegistersByMask :
    ∃ f, csrCase (.csrrc 0x00E 6 5) = some (0x00E, 6, 5, f, true) ∧ slotCsrMask 0x00E = some (BitVec.allOnes 64, 0) ∧
      onTask.turn = .slot 0 3 ∧ onTask.drawsPending onTask.turn = false ∧ Ready onTask { reads := [6], writes := [5] } :=
  ⟨_, rfl, rfl, rfl, by decide +kernel, by unfold Ready; decide +kernel⟩

/-- A slot without vector instructions under way, and a core. -/
theorem test_holds_RoundingAsStored :
    ∃ f, csrCase (.csrrs 0x000 6 5) = some (0x000, 6, 5, f, true) ∧ onTask.turn = .slot 0 3 ∧ (onTask.facet 0).vecBusy 3 = false ∧
      (onTask.slot 0 3).orNow = 0 ∧ Ready onTask { reads := [6], writes := [5] } ∧
      onCore.turn = .core 0 ∧ Ready onCore { reads := [6], writes := [5] } :=
  ⟨_, rfl, by unfold Ready; decide +kernel⟩

theorem test_holds_CompletionAndLengthAsStored :
    (∃ f, csrCase (.csrrw 0x005 6 5) = some (0x005, 6, 5, f, true)) ∧ (∃ f, csrCase (.csrrw 0x00C 6 5) = some (0x00C, 6, 5, f, true)) ∧
      onTask.turn = .slot 0 3 ∧ Ready onTask { reads := [6], writes := [5] } :=
  ⟨⟨_, rfl⟩, ⟨_, rfl⟩, rfl, by unfold Ready; decide +kernel⟩

/-- Core 0 at level 0 executes. -/
theorem test_holds_ControlRegisterFaults :
    (∃ f, csrCase (.csrrw 0x800 6 5) = some (0x800, 6, 5, f, true)) ∧ Ready onTask { reads := [6], writes := [5] } ∧
      Ready onStream { reads := [6], writes := [5] } ∧ (onStream.core 0).level = 0 ∧ Ready onCore { reads := [6], writes := [5] } ∧
      (onCore.core 0).level = 1 :=
  ⟨⟨_, rfl⟩, by unfold Ready; decide +kernel⟩

theorem test_holds_AnswersAndPreemptionStartFromRegisters :
    onCore.turn = .core 0 ∧ (onCore.core 0).level = 1 ∧ Ready onCore { reads := [6], writes := [5] } ∧
      (onCore.release onCore.turn true).isSome = true :=
  ⟨rfl, rfl, by unfold Ready; decide +kernel, by decide +kernel⟩

theorem test_holds_SupervisorCallEnters : onStream.turn = .core 0 ∧ Ready onStream {} := ⟨rfl, by unfold Ready; decide +kernel⟩

theorem test_holds_TrapReturns : onCore.turn = .core 0 ∧ (onCore.core 0).level = 1 ∧ Ready onCore {} :=
  ⟨rfl, rfl, by unfold Ready; decide +kernel⟩

theorem test_holds_MonitorCall :
    onCore.turn = .core 0 ∧ (onCore.core 0).level = 1 ∧ Ready onCore {} ∧ (onCore.release (.core 0) true).isSome = true :=
  ⟨rfl, rfl, by unfold Ready; decide +kernel, by decide +kernel⟩

theorem test_holds_PrivilegedInstructions :
    Ready onTask { handler := false } ∧ onTask.turn = .slot 0 3 ∧ Ready onStream { handler := false } ∧ (onStream.core 0).level = 0 := by
  unfold Ready; decide +kernel

theorem test_holds_BreakHaltsOrTraps :
    Ready onTask {} ∧ (∃ c q o b, (onTask.slot 0 3).job = .task c q o b) ∧ Ready onCore {} :=
  ⟨by unfold Ready; decide +kernel, ⟨1, 0, 0, false, rfl⟩, by unfold Ready; decide +kernel⟩

theorem test_holds_FrameMovesTheStackPointer :
    onTask.turn = .slot 0 3 ∧ (Instr.frame 0xFFF 0).wf = true ∧ Ready onTask { reads := [2], writes := [2, 0] } :=
  ⟨rfl, by decide, by unfold Ready; decide +kernel⟩

theorem test_holds_PrefixEntersStat : Ready onTask {} := by unfold Ready; decide +kernel

theorem test_holds_WaitTestsTheCounts : onTask.turn = .slot 0 3 ∧ Ready onTask { core := false, handler := false } :=
  ⟨rfl, by unfold Ready; decide +kernel⟩

/-- Core 0 at level 1 with NOTIFY enabled and pending, and its interrupt due. -/
def notified : State := { onCore with cores := [(0, { run := .running, ie := true, sie := 0x3F, sipNotify := true })], due := [.interrupt 0] }

theorem test_holds_InterruptEntry :
    (notified.core 0).run = .running ∧ (notified.core 0).park = none ∧ (notified.core 0).ie = true ∧
      ((notified.core 0).sip &&& (notified.core 0).sie).getLsbD 3 = true ∧
      (∀ j, j < 3 → ((notified.core 0).sip &&& (notified.core 0).sie).getLsbD j = false) ∧ .interrupt 0 ∈ notified.due := by
  decide +kernel

theorem test_holds_EncodedInstructionsDecode :
    (Instr.addi 1 6 5).wf = true ∧ ∃ w, encode (.addi 1 6 5) = some w ∧ decodeWord w = some (.addi 1 6 5) :=
  ⟨by decide, 0x00130293, by decide +kernel⟩

theorem test_holds_ReservedMajorsDoNotDecode : (0x00130290#32).toNat % 4 ≠ 3 ∧ (0xFFFFFFFF#32).toNat % 128 = 0x7F := by decide

theorem test_holds_UnassignedWordsAreIllegal : decodeWord 0#32 = none := by decide +kernel
end

