-- ==== Sys2Proof/Tests/Slice0.lean ====
section
/-! SUPPORT. Tests of decoding and of the checks of well-formedness. Expected results come from the encodings of the reference. -/

set_option Elab.async false
set_option maxRecDepth 100000

open Sys2Proof Sys2Proof.Machine

/-! A term that a check of `Instr.wf` refuses, for each check. -/

theorem test_wf_bfx_past_bit_63 : Instr.wf (.bfxN 60 4 5 6) = false := by decide

theorem test_wf_bfi_past_bit_63 : Instr.wf (.bfi 63 1 5 6) = false := by decide

theorem test_wf_fcvt_float_needs_a_float_format : Instr.wf (.fcvtFloatToFloat .f32 .i8 5 6) = false := by decide

theorem test_wf_fcvt_integer_needs_an_integer_format : Instr.wf (.fcvtFloatToInteger .f32 .f16 5 6) = false := by decide

theorem test_wf_frame_into_sp : Instr.wf (.frame 1 2) = false := by decide

theorem test_wf_amswap_is_never_deterministic : Instr.wf (.amswap .d 6 5 .i32 0) = false := by decide

theorem test_wf_amcas_is_integer : Instr.wf (.amcas .relaxed 6 5 .f32 7) = false := by decide

theorem test_wf_amadd_d_has_no_destination : Instr.wf (.amadd .d 6 5 .i32 7) = false := by decide

theorem test_wf_amand_is_integer : Instr.wf (.amand .relaxed 6 5 .bf16 7) = false := by decide

theorem test_wf_ldsc_reads_no_operand : Instr.wf (.ldsc 1 5 .i32 7) = false := by decide

theorem test_wf_stsc_writes_no_destination : Instr.wf (.stsc 6 5 .i32 7) = false := by decide

theorem test_wf_msend_base_is_even : Instr.wf (.msend 6 5) = false := by decide

theorem test_wf_mrecv_destination_is_even : Instr.wf (.mrecv 5 7) = false := by decide

theorem test_wf_a_masked_vector_write_of_v15 : Instr.wf (.vadd true true 4 3 .w32 15) = false := by decide

theorem test_wf_vcvt_source_is_not_destination : Instr.wf (.vcvtF false .f16 4 .w32 4) = false := by decide

theorem test_wf_vcvt_integer_of_6_bits : Instr.wf (.vcvtI false .i16 4 .w6 8) = false := by decide

theorem test_wf_vqnt_destination_is_even : Instr.wf (.vqnt32 false .e4m3 4 7) = false := by decide

theorem test_wf_vqnt_masked_reaches_v15 : Instr.wf (.vqnt32 true .e4m3 4 14) = false := by decide

theorem test_wf_vqnt_target_is_quantised : Instr.wf (.vqnt32 false .f32 4 8) = false := by decide

theorem test_wf_vdqnt_source_is_even : Instr.wf (.vdqnt32 false .e4m3 5 8) = false := by decide

theorem test_wf_vperm_source_is_not_destination : Instr.wf (.vperm false 6 4 .w32 4) = false := by decide

theorem test_wf_vrsum_format_has_its_width : Instr.wf (.vrsum false .f32 4 .w16 8) = false := by decide

theorem test_wf_vpmrg_across_kinds : Instr.wf (.vpmrg 8 2 16) = false := by decide

theorem test_wf_a_chain_names_its_own_accumulator : Instr.wf (.mxmul true 6 2 false 2 .f32) = false := by decide

theorem test_wf_mxst_scaled_of_a_wide_class : Instr.wf (.mxst true 7 false 4 .bf16) = false := by decide

/-- Words whose fields fail such a check are no instructions (R182). -/
theorem test_ill_formed_words_are_refused :
    decodeWord 0x00105173#32 = none ∧ decodeWord 0x00006173#32 = none ∧ decodeWord 0x00306073#32 = none ∧ decodeWord 0#32 = none ∧
      decodeWord 0xFFFFFFFF#32 = none := by decide +kernel

/-- Words that the chapters of the reference print with their assembly. -/
theorem test_printed_words_decode :
    decodeWord 0x2103E01F#32 = some (.fmtp (some .e4m3) (some .e4m3) (some .bf16) none (some true)) ∧
      decodeWord 0xFFC1FFFB#32 = some (.wait 31 31 0 31 31) ∧ decodeWord 0x0001E1E3#32 = some (.bp 3 3) ∧
      decodeWord 0x005056F3#32 = some (.frame 5 13) ∧ decodeWord 0x0C0352BB#32 = some (.clzW true .w16 6 5) ∧
      decodeWord 0x407302C3#32 = some (.fmadd 8 .f32 7 6 5) ∧ decodeWord 0xF007504B#32 = some (.punpack 0x78 14) ∧
      decodeWord 0x0000474B#32 = some (.ppack 14) ∧ decodeWord 0x0022F687#32 = some (.ldftN32 2 5 13) ∧
      decodeWord 0x0040000F#32 = some (.fenceRel .device) ∧ decodeWord 0x0050200F#32 = some (.fenceFull .domain) ∧
      decodeWord 0x00606227#32 = some (.bstPointer 6 4) ∧ decodeWord 0x006283BF#32 = some (.cpg 6 5 7) ∧
      decodeWord 0x01036283#32 = some (.ld 16 6 .n32 5) ∧ decodeWord 0x04113427#32 = some (.stl 72 1 2 .n64) ∧
      decodeWord 0x086283AF#32 = some (.vget 6 5 7) ∧ decodeWord 0x1262C02B#32 = some (.amadd .d 6 5 .f32 0) ∧
      decodeWord 0x000302DB#32 = some (.vclaim 6 5) ∧ decodeWord 0x0036A05B#32 = some (.vloop 3 13) ∧
      decodeWord 0x70810257#32 = some (.vpmrg 8 2 4) ∧ decodeWord 0x80418153#32 = some (.vfadd .f32 false 4 3 2) ∧
      decodeWord 0x0062925F#32 = some (.mxmul false 6 5 false 2 .e4m3) ∧ decodeWord 0x0660625F#32 = some (.mxmulz true 6 0 true 4 .e4m3) ∧
      decodeWord 0x1003A0DF#32 = some (.mxst false 7 false 4 .bf16) ∧ decodeWord 0x1C00405F#32 = some (.mxrel true) ∧
      decodeWord 0x2000805F#32 = some (.mxfence 1) ∧ decodeWord 0x000302F7#32 = some (.slaunch 6 5) ∧
      decodeWord 0x0088046B#32 = some (.spawn 8 16 8) ∧ decodeWord 0x00D3004F#32 = some (.msend 13 6) ∧
      decodeWord 0x02000077#32 = some .ssync ∧ decodeWord 0x0203006B#32 = some (.join 6 0) ∧ decodeWord 0x0400006B#32 = some .tend ∧
      decodeWord 0x00000013#32 = some (.addi 0 0 0) ∧ decodeWord 0x00006073#32 = some .tret ∧ decodeWord 0x00106073#32 = some .waiti ∧
      decodeWord 0x00206073#32 = some .smc := by decide +kernel

/-! Decoding: for every row of the table one word, its fields placed by hand as the row's encoding says. -/

/-- Major 0x03 (R181): LD. -/
theorem test_decode_major_03 :
    decodeWord 0x12321403#32 = some (.ld 291 4 .i16 8) := by decide +kernel

/-- Major 0x07 (R181): LDL, LDFT_N32, LDFT_I32, LDFT_N64, LDFP_N32, LDFP_I32, LDFP_N64, BLD_POINTER, BLD_REGISTER. -/
theorem test_decode_major_07 :
    decodeWord 0x12321407#32 = some (.ldl 291 4 .i16 8) ∧
      decodeWord 0x05A27407#32 = some (.ldftN32 90 4 8) ∧
      decodeWord 0x15A27407#32 = some (.ldftI32 90 4 8) ∧
      decodeWord 0x25A27407#32 = some (.ldftN64 90 4 8) ∧
      decodeWord 0x35A27407#32 = some (.ldfpN32 90 4 8) ∧
      decodeWord 0x45A27407#32 = some (.ldfpI32 90 4 8) ∧
      decodeWord 0x55A27407#32 = some (.ldfpN64 90 4 8) ∧
      decodeWord 0x62307407#32 = some (.bldPointer true 3 8) ∧
      decodeWord 0x72327407#32 = some (.bldRegister true 3 4 8) := by decide +kernel

/-- Major 0x0B (R181): VLDL, VSTL, VLDLS, VSTLS, VLD, VST. -/
theorem test_decode_major_0b :
    decodeWord 0x0002140B#32 = some (.vldl false 4 .w16 8) ∧
      decodeWord 0x0402140B#32 = some (.vstl false 4 .w16 8) ∧
      decodeWord 0x0862140B#32 = some (.vldls false 6 4 .w16 8) ∧
      decodeWord 0x0C62140B#32 = some (.vstls false 6 4 .w16 8) ∧
      decodeWord 0x1002140B#32 = some (.vld false 4 .w16 8) ∧
      decodeWord 0x1402140B#32 = some (.vst false 4 .w16 8) := by decide +kernel

/-- Major 0x0F (R181): FENCE_REL, FENCE_ACQ, FENCE_FULL. -/
theorem test_decode_major_0f :
    decodeWord 0x0010000F#32 = some (.fenceRel .facet) ∧
      decodeWord 0x0010100F#32 = some (.fenceAcq .facet) ∧
      decodeWord 0x0010200F#32 = some (.fenceFull .facet) := by decide +kernel

/-- Major 0x13 (R181): ADDI, SHLI, SHRI_N, SHRI_I, ROLI, RORI, BFX_N, BFX_I, XORI, BFI, ORI, ANDI. -/
theorem test_decode_major_13 :
    decodeWord 0x12320413#32 = some (.addi 291 4 8) ∧
      decodeWord 0x00B21413#32 = some (.shli 11 4 8) ∧
      decodeWord 0x04B21413#32 = some (.shriN 11 4 8) ∧
      decodeWord 0x08B21413#32 = some (.shriI 11 4 8) ∧
      decodeWord 0x0CB21413#32 = some (.roli 11 4 8) ∧
      decodeWord 0x10B21413#32 = some (.rori 11 4 8) ∧
      decodeWord 0x0C422413#32 = some (.bfxN 3 4 4 8) ∧
      decodeWord 0x0C423413#32 = some (.bfxI 3 4 4 8) ∧
      decodeWord 0x12324413#32 = some (.xori 291 4 8) ∧
      decodeWord 0x0C425413#32 = some (.bfi 3 4 4 8) ∧
      decodeWord 0x12326413#32 = some (.ori 291 4 8) ∧
      decodeWord 0x12327413#32 = some (.andi 291 4 8) := by decide +kernel

/-- Major 0x17 (R181): PCADD. -/
theorem test_decode_major_17 :
    decodeWord 0x12345417#32 = some (.pcadd 74565 8) := by decide +kernel

/-- Major 0x1B (R181): ADDI_W. -/
theorem test_decode_major_1b :
    decodeWord 0x1232641B#32 = some (.addiW 291 4 true .w16 8) := by decide +kernel

/-- Major 0x1F (R181): FMTP. -/
theorem test_decode_major_1f :
    decodeWord 0x2108A01F#32 = some (.fmtp (some .e4m3) (some .e4m3) (some .e4m3) (some .rdn) (some true)) := by decide +kernel

/-- Major 0x23 (R181): ST. -/
theorem test_decode_major_23 :
    decodeWord 0x2A621AA3#32 = some (.st 693 6 4 .n16) := by decide +kernel

/-- Major 0x27 (R181): STL, STFP_N32, STFP_N64, STFF_N32, STFF_N64, MKE_N32, MKE_N64, BST_POINTER, BST_REGISTER. -/
theorem test_decode_major_27 :
    decodeWord 0x2A621AA7#32 = some (.stl 693 6 4 .n16) ∧
      decodeWord 0x14624AA7#32 = some (.stfpN32 341 6 4) ∧
      decodeWord 0x54624AA7#32 = some (.stfpN64 341 6 4) ∧
      decodeWord 0x94624AA7#32 = some (.stffN32 341 6 4) ∧
      decodeWord 0xD4624AA7#32 = some (.stffN64 341 6 4) ∧
      decodeWord 0x14025AA7#32 = some (.mkeN32 341 4) ∧
      decodeWord 0x54025AA7#32 = some (.mkeN64 341 4) ∧
      decodeWord 0x006061A7#32 = some (.bstPointer 6 3) ∧
      decodeWord 0x806261A7#32 = some (.bstRegister 6 4 3) := by decide +kernel

/-- Major 0x2B (R181): AMSWAP, AMCAS, AMADD, AMMIN, AMMAX, AMAND, AMOR, AMXOR, LDSC, STSC. -/
theorem test_decode_major_2b :
    decodeWord 0x0062142B#32 = some (.amswap .relaxed 6 4 .n32 8) ∧
      decodeWord 0x0862142B#32 = some (.amcas .relaxed 6 4 .n32 8) ∧
      decodeWord 0x1062142B#32 = some (.amadd .relaxed 6 4 .n32 8) ∧
      decodeWord 0x1862142B#32 = some (.ammin .relaxed 6 4 .n32 8) ∧
      decodeWord 0x2062142B#32 = some (.ammax .relaxed 6 4 .n32 8) ∧
      decodeWord 0x2862142B#32 = some (.amand .relaxed 6 4 .n32 8) ∧
      decodeWord 0x3062142B#32 = some (.amor .relaxed 6 4 .n32 8) ∧
      decodeWord 0x3862142B#32 = some (.amxor .relaxed 6 4 .n32 8) ∧
      decodeWord 0x4602142B#32 = some (.ldsc 0 4 .n32 8) ∧
      decodeWord 0x4E62102B#32 = some (.stsc 6 4 .n32 0) := by decide +kernel

/-- Major 0x2F (R181): VSTORE, VOPEN, VPUT, VSEAL, VGET, VRETAIN, VRELEASE, VDROP, VQUERY. -/
theorem test_decode_major_2f :
    decodeWord 0x0062042F#32 = some (.vstore 6 4 8) ∧
      decodeWord 0x0262002F#32 = some (.vopen 6 4) ∧
      decodeWord 0x0462542F#32 = some (.vput 6 4 5 8) ∧
      decodeWord 0x0662002F#32 = some (.vseal 6 4) ∧
      decodeWord 0x0862042F#32 = some (.vget 6 4 8) ∧
      decodeWord 0x0A62002F#32 = some (.vretain 6 4) ∧
      decodeWord 0x0C62002F#32 = some (.vrelease 6 4) ∧
      decodeWord 0x0E62002F#32 = some (.vdrop 6 4) ∧
      decodeWord 0x1062042F#32 = some (.vquery 6 4 8) := by decide +kernel

/-- Major 0x33 (R181): ADD, SUB, MUL, MULH, ADDX2, ADDX4, ADDX8, ADDX16, SHL, SHR, ROL, ROR, MIN, MAX, DIV, REM, AND, OR, XOR, ANDN, ORN, XNOR, CLZ, CTZ, FFS, POPC, BREV, BSWAP. -/
theorem test_decode_major_33 :
    decodeWord 0x08620433#32 = some (.add true 6 4 8) ∧
      decodeWord 0x18620433#32 = some (.sub true 6 4 8) ∧
      decodeWord 0x28620433#32 = some (.mul true 6 4 8) ∧
      decodeWord 0x38620433#32 = some (.mulh true 6 4 8) ∧
      decodeWord 0x48620433#32 = some (.addx2 true 6 4 8) ∧
      decodeWord 0x58620433#32 = some (.addx4 true 6 4 8) ∧
      decodeWord 0x68620433#32 = some (.addx8 true 6 4 8) ∧
      decodeWord 0x78620433#32 = some (.addx16 true 6 4 8) ∧
      decodeWord 0x08621433#32 = some (.shl true 6 4 8) ∧
      decodeWord 0x18621433#32 = some (.shr true 6 4 8) ∧
      decodeWord 0x28621433#32 = some (.rol true 6 4 8) ∧
      decodeWord 0x38621433#32 = some (.ror true 6 4 8) ∧
      decodeWord 0x08622433#32 = some (.min true 6 4 8) ∧
      decodeWord 0x18622433#32 = some (.max true 6 4 8) ∧
      decodeWord 0x08623433#32 = some (.div true 6 4 8) ∧
      decodeWord 0x18623433#32 = some (.rem true 6 4 8) ∧
      decodeWord 0x08624433#32 = some (.and true 6 4 8) ∧
      decodeWord 0x18624433#32 = some (.or true 6 4 8) ∧
      decodeWord 0x28624433#32 = some (.xor true 6 4 8) ∧
      decodeWord 0x38624433#32 = some (.andn true 6 4 8) ∧
      decodeWord 0x48624433#32 = some (.orn true 6 4 8) ∧
      decodeWord 0x58624433#32 = some (.xnor true 6 4 8) ∧
      decodeWord 0x08025433#32 = some (.clz true 4 8) ∧
      decodeWord 0x08125433#32 = some (.ctz true 4 8) ∧
      decodeWord 0x08225433#32 = some (.ffs true 4 8) ∧
      decodeWord 0x08325433#32 = some (.popc true 4 8) ∧
      decodeWord 0x08425433#32 = some (.brev true 4 8) ∧
      decodeWord 0x08525433#32 = some (.bswap true 4 8) := by decide +kernel

/-- Major 0x37 (R181): LIM. -/
theorem test_decode_major_37 :
    decodeWord 0x12345437#32 = some (.lim 74565 8) := by decide +kernel

/-- Major 0x3B (R181): ADD_W, SUB_W, MUL_W, MULH_W, ADDX2_W, ADDX4_W, ADDX8_W, ADDX16_W, SHL_W, SHR_W, ROL_W, ROR_W, MIN_W, MAX_W, DIV_W, REM_W, AND_W, OR_W, XOR_W, ANDN_W, ORN_W, XNOR_W, CLZ_W, CTZ_W, FFS_W, POPC_W, BREV_W, BSWAP_W. -/
theorem test_decode_major_3b :
    decodeWord 0x0C62043B#32 = some (.addW true .w16 6 4 8) ∧
      decodeWord 0x1C62043B#32 = some (.subW true .w16 6 4 8) ∧
      decodeWord 0x2C62043B#32 = some (.mulW true .w16 6 4 8) ∧
      decodeWord 0x3C62043B#32 = some (.mulhW true .w16 6 4 8) ∧
      decodeWord 0x4C62043B#32 = some (.addx2W true .w16 6 4 8) ∧
      decodeWord 0x5C62043B#32 = some (.addx4W true .w16 6 4 8) ∧
      decodeWord 0x6C62043B#32 = some (.addx8W true .w16 6 4 8) ∧
      decodeWord 0x7C62043B#32 = some (.addx16W true .w16 6 4 8) ∧
      decodeWord 0x0C62143B#32 = some (.shlW true .w16 6 4 8) ∧
      decodeWord 0x1C62143B#32 = some (.shrW true .w16 6 4 8) ∧
      decodeWord 0x2C62143B#32 = some (.rolW true .w16 6 4 8) ∧
      decodeWord 0x3C62143B#32 = some (.rorW true .w16 6 4 8) ∧
      decodeWord 0x0C62243B#32 = some (.minW true .w16 6 4 8) ∧
      decodeWord 0x1C62243B#32 = some (.maxW true .w16 6 4 8) ∧
      decodeWord 0x0C62343B#32 = some (.divW true .w16 6 4 8) ∧
      decodeWord 0x1C62343B#32 = some (.remW true .w16 6 4 8) ∧
      decodeWord 0x0C62443B#32 = some (.andW true .w16 6 4 8) ∧
      decodeWord 0x1C62443B#32 = some (.orW true .w16 6 4 8) ∧
      decodeWord 0x2C62443B#32 = some (.xorW true .w16 6 4 8) ∧
      decodeWord 0x3C62443B#32 = some (.andnW true .w16 6 4 8) ∧
      decodeWord 0x4C62443B#32 = some (.ornW true .w16 6 4 8) ∧
      decodeWord 0x5C62443B#32 = some (.xnorW true .w16 6 4 8) ∧
      decodeWord 0x0C02543B#32 = some (.clzW true .w16 4 8) ∧
      decodeWord 0x0C12543B#32 = some (.ctzW true .w16 4 8) ∧
      decodeWord 0x0C22543B#32 = some (.ffsW true .w16 4 8) ∧
      decodeWord 0x0C32543B#32 = some (.popcW true .w16 4 8) ∧
      decodeWord 0x0C42543B#32 = some (.brevW true .w16 4 8) ∧
      decodeWord 0x0C52543B#32 = some (.bswapW true .w16 4 8) := by decide +kernel

/-- Major 0x3F (R181): CPG, CPL, CPM, RLD, RST, RSTF, BARM, BARR, BWAIT, RARR, RAMSWAP, RAMADD, RAMAND, RAMOR, RAMXOR, RAMMIN, RAMMAX, RBST. -/
theorem test_decode_major_3f :
    decodeWord 0x0062043F#32 = some (.cpg 6 4 8) ∧
      decodeWord 0x0262043F#32 = some (.cpl 6 4 8) ∧
      decodeWord 0x0462043F#32 = some (.cpm 6 4 8) ∧
      decodeWord 0x0602143F#32 = some (.rld 4 .i16 8) ∧
      decodeWord 0x0862103F#32 = some (.rst 6 4 .n16) ∧
      decodeWord 0x0A62303F#32 = some (.rstf 6 4 true) ∧
      decodeWord 0x0C62003F#32 = some (.barm 6 4) ∧
      decodeWord 0x0E62003F#32 = some (.barr 6 4) ∧
      decodeWord 0x1062003F#32 = some (.bwait 6 4) ∧
      decodeWord 0x1262003F#32 = some (.rarr 6 4) ∧
      decodeWord 0x2062143F#32 = some (.ramswap 6 4 .n32 8) ∧
      decodeWord 0x2262143F#32 = some (.ramadd 6 4 .n32 8) ∧
      decodeWord 0x2462143F#32 = some (.ramand 6 4 .n32 8) ∧
      decodeWord 0x2662143F#32 = some (.ramor 6 4 .n32 8) ∧
      decodeWord 0x2862143F#32 = some (.ramxor 6 4 .n32 8) ∧
      decodeWord 0x2A62143F#32 = some (.rammin 6 4 .n32 8) ∧
      decodeWord 0x2C62143F#32 = some (.rammax 6 4 .n32 8) ∧
      decodeWord 0x4662003F#32 = some (.rbst 3 6 4) := by decide +kernel

/-- Major 0x43 (R181): FMADD, FMSUB, FNMSUB, FNMADD. -/
theorem test_decode_major_43 :
    decodeWord 0x3A620443#32 = some (.fmadd 7 .bf16 6 4 8) ∧
      decodeWord 0x3A621443#32 = some (.fmsub 7 .bf16 6 4 8) ∧
      decodeWord 0x3A622443#32 = some (.fnmsub 7 .bf16 6 4 8) ∧
      decodeWord 0x3A623443#32 = some (.fnmadd 7 .bf16 6 4 8) := by decide +kernel

/-- Major 0x47 (R181): FADD, FSUB, FMUL, FDIV, FSQRT, FMIN, FMAX, FSGNJ, FSGNJN, FSGNJX, FCVT_FLOAT_TO_FLOAT, FCVT_FLOAT_TO_INTEGER, FCVT_INTEGER_TO_FLOAT, FCLASS. -/
theorem test_decode_major_47 :
    decodeWord 0x02620447#32 = some (.fadd .bf16 6 4 8) ∧
      decodeWord 0x0A620447#32 = some (.fsub .bf16 6 4 8) ∧
      decodeWord 0x12620447#32 = some (.fmul .bf16 6 4 8) ∧
      decodeWord 0x1A620447#32 = some (.fdiv .bf16 6 4 8) ∧
      decodeWord 0x22020447#32 = some (.fsqrt .bf16 4 8) ∧
      decodeWord 0x2A620447#32 = some (.fmin .bf16 6 4 8) ∧
      decodeWord 0x32620447#32 = some (.fmax .bf16 6 4 8) ∧
      decodeWord 0x3A620447#32 = some (.fsgnj .bf16 6 4 8) ∧
      decodeWord 0x3A621447#32 = some (.fsgnjn .bf16 6 4 8) ∧
      decodeWord 0x3A622447#32 = some (.fsgnjx .bf16 6 4 8) ∧
      decodeWord 0x42220447#32 = some (.fcvtFloatToFloat .bf16 .f16 4 8) ∧
      decodeWord 0x4B120447#32 = some (.fcvtFloatToInteger .bf16 .i16 4 8) ∧
      decodeWord 0x53120447#32 = some (.fcvtIntegerToFloat .bf16 .i16 4 8) ∧
      decodeWord 0x5A020447#32 = some (.fclass .bf16 4 8) := by decide +kernel

/-- Major 0x4B (R181): CMPEQ, CMPNE, CMPLT, CMPGE, FCMPEQ, FCMPNE, FCMPLT, FCMPLE, FCMPUN, PAND, POR, PXOR, PANDN, PNOT, PPACK, PUNPACK, SEL, TTEST. -/
theorem test_decode_major_4b :
    decodeWord 0x0A6202CB#32 = some (.cmpeq true .w32 6 4 5) ∧
      decodeWord 0x1A6202CB#32 = some (.cmpne true .w32 6 4 5) ∧
      decodeWord 0x2A6202CB#32 = some (.cmplt true .w32 6 4 5) ∧
      decodeWord 0x3A6202CB#32 = some (.cmpge true .w32 6 4 5) ∧
      decodeWord 0x026222CB#32 = some (.fcmpeq .bf16 6 4 5) ∧
      decodeWord 0x0A6222CB#32 = some (.fcmpne .bf16 6 4 5) ∧
      decodeWord 0x126222CB#32 = some (.fcmplt .bf16 6 4 5) ∧
      decodeWord 0x1A6222CB#32 = some (.fcmple .bf16 6 4 5) ∧
      decodeWord 0x226222CB#32 = some (.fcmpun .bf16 6 4 5) ∧
      decodeWord 0x003132CB#32 = some (.pand 3 2 5) ∧
      decodeWord 0x023132CB#32 = some (.por 3 2 5) ∧
      decodeWord 0x043132CB#32 = some (.pxor 3 2 5) ∧
      decodeWord 0x063132CB#32 = some (.pandn 3 2 5) ∧
      decodeWord 0x080132CB#32 = some (.pnot 2 5) ∧
      decodeWord 0x0000444B#32 = some (.ppack 8) ∧
      decodeWord 0xAA02504B#32 = some (.punpack 85 4) ∧
      decodeWord 0x0A62644B#32 = some (.sel 5 6 4 8) ∧
      decodeWord 0x000272CB#32 = some (.ttest 4 5) := by decide +kernel

/-- Major 0x4F (R181): MSEND, AMSG, MRECV, WAITMSG. -/
theorem test_decode_major_4f :
    decodeWord 0x0062004F#32 = some (.msend 6 4) ∧
      decodeWord 0x0262044F#32 = some (.amsg 6 4 8) ∧
      decodeWord 0x0402044F#32 = some (.mrecv 4 8) ∧
      decodeWord 0x0600044F#32 = some (.waitmsg 8) := by decide +kernel

/-- Major 0x53 (R181): VADD, VSUB, VMUL, VMULH, VMIN, VMAX, VAND, VOR, VXOR, VSHL, VSHR, VADDS, VSUBS, VCMPEQ, VCMPLT, VCMPLE, VFADD, VFSUB, VFMUL, VFDIV, VFMIN, VFMAX, VFMA, VFNMA, VFCMPUN, VFSQRT, VFSGNJ, VFSGNJN, VFSGNJX, VFCMPEQ, VFCMPLT, VFCMPLE. -/
theorem test_decode_major_53 :
    decodeWord 0x40621453#32 = some (.vadd true false 6 4 .w16 8) ∧
      decodeWord 0x44621453#32 = some (.vsub true false 6 4 .w16 8) ∧
      decodeWord 0x48621453#32 = some (.vmul true false 6 4 .w16 8) ∧
      decodeWord 0x4C621453#32 = some (.vmulh true false 6 4 .w16 8) ∧
      decodeWord 0x50621453#32 = some (.vmin true false 6 4 .w16 8) ∧
      decodeWord 0x54621453#32 = some (.vmax true false 6 4 .w16 8) ∧
      decodeWord 0x58621453#32 = some (.vand true false 6 4 .w16 8) ∧
      decodeWord 0x5C621453#32 = some (.vor true false 6 4 .w16 8) ∧
      decodeWord 0x60621453#32 = some (.vxor true false 6 4 .w16 8) ∧
      decodeWord 0x64621453#32 = some (.vshl true false 6 4 .w16 8) ∧
      decodeWord 0x68621453#32 = some (.vshr true false 6 4 .w16 8) ∧
      decodeWord 0x6C621453#32 = some (.vadds true false 6 4 .w16 8) ∧
      decodeWord 0x70621453#32 = some (.vsubs true false 6 4 .w16 8) ∧
      decodeWord 0x74621453#32 = some (.vcmpeq true false 6 4 .w16 8) ∧
      decodeWord 0x78621453#32 = some (.vcmplt true false 6 4 .w16 8) ∧
      decodeWord 0x7C621453#32 = some (.vcmple true false 6 4 .w16 8) ∧
      decodeWord 0x80621453#32 = some (.vfadd .f16 false 6 4 8) ∧
      decodeWord 0x84621453#32 = some (.vfsub .f16 false 6 4 8) ∧
      decodeWord 0x88621453#32 = some (.vfmul .f16 false 6 4 8) ∧
      decodeWord 0x8C621453#32 = some (.vfdiv .f16 false 6 4 8) ∧
      decodeWord 0x90621453#32 = some (.vfmin .f16 false 6 4 8) ∧
      decodeWord 0x94621453#32 = some (.vfmax .f16 false 6 4 8) ∧
      decodeWord 0x98621453#32 = some (.vfma .f16 false 6 4 8) ∧
      decodeWord 0x9C621453#32 = some (.vfnma .f16 false 6 4 8) ∧
      decodeWord 0xA0621453#32 = some (.vfcmpun .f16 false 6 4 8) ∧
      decodeWord 0xA4021453#32 = some (.vfsqrt .f16 false 4 8) ∧
      decodeWord 0xA8621453#32 = some (.vfsgnj .f16 false 6 4 8) ∧
      decodeWord 0xAC621453#32 = some (.vfsgnjn .f16 false 6 4 8) ∧
      decodeWord 0xB0621453#32 = some (.vfsgnjx .f16 false 6 4 8) ∧
      decodeWord 0xB4621453#32 = some (.vfcmpeq .f16 false 6 4 8) ∧
      decodeWord 0xB8621453#32 = some (.vfcmplt .f16 false 6 4 8) ∧
      decodeWord 0xBC621453#32 = some (.vfcmple .f16 false 6 4 8) := by decide +kernel

/-- Major 0x57 (R181): VCVT_F, VCVT_I, VQNT32, VQNT128, VQNT256, VDQNT32, VDQNT128, VDQNT256, VEXP2, VLOG2, VRCP, VRSQRT, VCLZ, VCTZ, VFFS, VPOPC, VBCAST, VEXT, VINS, VPERM, VSLUP, VSLDN, VIOTA, VMV, VRSUM, VRMAX, VRMIN, VSCAN, VPMRG. -/
theorem test_decode_major_57 :
    decodeWord 0x00221457#32 = some (.vcvtF false .f16 4 .w16 8) ∧
      decodeWord 0x05121457#32 = some (.vcvtI false .i16 4 .w16 8) ∧
      decodeWord 0x08420457#32 = some (.vqnt32 false .e4m3 4 8) ∧
      decodeWord 0x0C420457#32 = some (.vqnt128 false .e4m3 4 8) ∧
      decodeWord 0x10420457#32 = some (.vqnt256 false .e4m3 4 8) ∧
      decodeWord 0x14420457#32 = some (.vdqnt32 false .e4m3 4 8) ∧
      decodeWord 0x18420457#32 = some (.vdqnt128 false .e4m3 4 8) ∧
      decodeWord 0x1C420457#32 = some (.vdqnt256 false .e4m3 4 8) ∧
      decodeWord 0x20021457#32 = some (.vexp2 false 4 .w16 8) ∧
      decodeWord 0x24021457#32 = some (.vlog2 false 4 .w16 8) ∧
      decodeWord 0x28021457#32 = some (.vrcp false 4 .w16 8) ∧
      decodeWord 0x2C021457#32 = some (.vrsqrt false 4 .w16 8) ∧
      decodeWord 0x30021457#32 = some (.vclz false 4 .w16 8) ∧
      decodeWord 0x34021457#32 = some (.vctz false 4 .w16 8) ∧
      decodeWord 0x38021457#32 = some (.vffs false 4 .w16 8) ∧
      decodeWord 0x3C021457#32 = some (.vpopc false 4 .w16 8) ∧
      decodeWord 0x40021457#32 = some (.vbcast false 4 .w16 8) ∧
      decodeWord 0x44621457#32 = some (.vext false 6 4 .w16 8) ∧
      decodeWord 0x48621457#32 = some (.vins false 6 4 .w16 8) ∧
      decodeWord 0x4C621457#32 = some (.vperm false 6 4 .w16 8) ∧
      decodeWord 0x50621457#32 = some (.vslup false 6 4 .w16 8) ∧
      decodeWord 0x54621457#32 = some (.vsldn false 6 4 .w16 8) ∧
      decodeWord 0x58001457#32 = some (.viota false .w16 8) ∧
      decodeWord 0x5C021457#32 = some (.vmv false 4 .w16 8) ∧
      decodeWord 0x60121457#32 = some (.vrsum false .bf16 4 .w16 8) ∧
      decodeWord 0x64121457#32 = some (.vrmax false .bf16 4 .w16 8) ∧
      decodeWord 0x68121457#32 = some (.vrmin false .bf16 4 .w16 8) ∧
      decodeWord 0x6C121457#32 = some (.vscan false .bf16 4 .w16 8) ∧
      decodeWord 0x70620457#32 = some (.vpmrg 6 4 8) := by decide +kernel

/-- Major 0x5B (R181): VCLAIM, VYIELD, VLOOP, VBIND, VUNBIND, VSETVL, VSTAT. -/
theorem test_decode_major_5b :
    decodeWord 0x0002045B#32 = some (.vclaim 4 8) ∧
      decodeWord 0x0002145B#32 = some (.vyield 4 8) ∧
      decodeWord 0x0092205B#32 = some (.vloop 9 4) ∧
      decodeWord 0x0052305B#32 = some (.vbind true 1 4) ∧
      decodeWord 0x0010405B#32 = some (.vunbind 1) ∧
      decodeWord 0x0012545B#32 = some (.vsetvl .w16 4 8) ∧
      decodeWord 0x0000645B#32 = some (.vstat 8) := by decide +kernel

/-- Major 0x5F (R181): MXMUL, MXMULZ, MXZERO, MXLD, MXST, MXADD, MXTR, MXREL, MXFENCE. -/
theorem test_decode_major_5f :
    decodeWord 0x006278DF#32 = some (.mxmul false 6 4 true 7 .bf16) ∧
      decodeWord 0x046278DF#32 = some (.mxmulz false 6 4 true 7 .bf16) ∧
      decodeWord 0x0800785F#32 = some (.mxzero true 7) ∧
      decodeWord 0x0C0278DF#32 = some (.mxld 4 true 7 .bf16) ∧
      decodeWord 0x100278DF#32 = some (.mxst false 4 true 7 .bf16) ∧
      decodeWord 0x1402F85F#32 = some (.mxadd 5 true 7) ∧
      decodeWord 0x1802F85F#32 = some (.mxtr 5 true 7) ∧
      decodeWord 0x1C00405F#32 = some (.mxrel true) ∧
      decodeWord 0x2004805F#32 = some (.mxfence 9) := by decide +kernel

/-- Major 0x63 (R181): BEQ, BNE, BLT, BGE, BLTU, BGEU, BP, BNP. -/
theorem test_decode_major_63 :
    decodeWord 0x2A620AE3#32 = some (.beq 693 6 4) ∧
      decodeWord 0x2A621AE3#32 = some (.bne 693 6 4) ∧
      decodeWord 0x2A622AE3#32 = some (.blt 693 6 4) ∧
      decodeWord 0x2A623AE3#32 = some (.bge 693 6 4) ∧
      decodeWord 0x2A624AE3#32 = some (.bltu 693 6 4) ∧
      decodeWord 0x2A625AE3#32 = some (.bgeu 693 6 4) ∧
      decodeWord 0x2A016AE3#32 = some (.bp 693 2) ∧
      decodeWord 0x2A017AE3#32 = some (.bnp 693 2) := by decide +kernel

/-- Major 0x67 (R181): JALR. -/
theorem test_decode_major_67 :
    decodeWord 0x12320467#32 = some (.jalr 291 4 8) := by decide +kernel

/-- Major 0x6B (R181): SPAWN, JOIN, TEND, YIELD. -/
theorem test_decode_major_6b :
    decodeWord 0x0062046B#32 = some (.spawn 6 4 8) ∧
      decodeWord 0x0202046B#32 = some (.join 4 8) ∧
      decodeWord 0x0400006B#32 = some (.tend) ∧
      decodeWord 0x0600006B#32 = some (.yield) := by decide +kernel

/-- Major 0x6F (R181): JAL. -/
theorem test_decode_major_6f :
    decodeWord 0x1234546F#32 = some (.jal 74565 8) := by decide +kernel

/-- Major 0x73 (R181): SVC, CSRRW, CSRRS, CSRRC, BRK, FRAME, TRET, WAITI, SMC. -/
theorem test_decode_major_73 :
    decodeWord 0x12300073#32 = some (.svc 291) ∧
      decodeWord 0x00721473#32 = some (.csrrw 7 4 8) ∧
      decodeWord 0x00722473#32 = some (.csrrs 7 4 8) ∧
      decodeWord 0x00723473#32 = some (.csrrc 7 4 8) ∧
      decodeWord 0x12304073#32 = some (.brk 291) ∧
      decodeWord 0x12305473#32 = some (.frame 291 8) ∧
      decodeWord 0x00006073#32 = some (.tret) ∧
      decodeWord 0x00106073#32 = some (.waiti) ∧
      decodeWord 0x00206073#32 = some (.smc) := by decide +kernel

/-- Major 0x77 (R181): SLAUNCH, SSYNC, SRFENCE, SBIND, SNAME, SSTAT, SVEC, SRESUME, SABANDON. -/
theorem test_decode_major_77 :
    decodeWord 0x00020477#32 = some (.slaunch 4 8) ∧
      decodeWord 0x02000077#32 = some (.ssync) ∧
      decodeWord 0x04620077#32 = some (.srfence 6 4) ∧
      decodeWord 0x06620077#32 = some (.sbind 6 4) ∧
      decodeWord 0x08020477#32 = some (.sname 4 8) ∧
      decodeWord 0x0A000477#32 = some (.sstat 8) ∧
      decodeWord 0x0C620077#32 = some (.svec 6 4) ∧
      decodeWord 0x0E020077#32 = some (.sresume 4) ∧
      decodeWord 0x10020077#32 = some (.sabandon 4) := by decide +kernel

/-- Major 0x7B (R181): WAIT. -/
theorem test_decode_major_7b :
    decodeWord 0x18CE31FB#32 = some (.wait 3 3 7 3 3) := by decide +kernel
end

