-- ==== Sys2Proof/Tests/Streams.lean ====
section
/-! SUPPORT. For each claim about the task window and the stream instructions, a state and operands that meet its hypotheses. -/

set_option maxRecDepth 100000
set_option Elab.async false

open Sys2Proof Sys2Proof.Machine Sys2Proof.Tests

/-! The task window: context 1 holds some entries. -/

/-- The entry of the window in a state, with an operand that it writes under version 2. -/
def entry (st : EState) : Entry := { seq := 0, lpc := 0, state := st, left := 4, hdr := { ext := [4], wd := [2] } }
def writer (st : EState) : Entry := { entry st with left := 0, ops := [{ versioned := true, rd := false, wr := true, base := 0x100, len := 128, ver := 2 }] }

/-- Core 0 runs the stream of context 1, whose window holds some entries, and a step is due. -/
def window (l : List Entry) (i : Instr) : State := { onStream with ctxs := [(1, { ctx1 with window := l, nseq := 1 })], due := [i] }

/-- An entry of PLACE 0; one with a placement group and gangs of two tasks; one whose context has no prism of its world. -/
theorem test_holds_EntriesIssue :
    (let s := window [entry .decoded] (.entryIssue 1 0)
     .entryIssue 1 0 ∈ s.due ∧ s.entry 1 0 = some (entry .decoded) ∧ (s.ctx 1).mayIssue (entry .decoded) = true ∧ s.prismList 1 false = [0]) ∧
      (let e := { entry .decoded with hdr := { ext := [4], wd := [2], place := 1, gang := 1 } }
       let s := window [e] (.entryIssue 1 0)
       s.entry 1 0 = some e ∧ (s.ctx 1).mayIssue e = true ∧ s.prismList 1 false = [0] ∧ e.hdr.total = 4 ∧ 0 < e.hdr.groupSize e.hdr.place) ∧
      (let s := { window [entry .decoded] (.entryIssue 1 0) with parts := [(0, { slices := [0], homes := [0], cores := [0], hbm := [(0, 16)] })] }
       s.entry 1 0 = some (entry .decoded) ∧ s.prismList 1 false = []) :=
  ⟨⟨List.mem_singleton.2 rfl, by decide +kernel⟩, by decide +kernel⟩

/-- An entry without outputs; one whose output was never created; one that has sent ".d" atomics to a device of the domain. -/
theorem test_holds_EntriesComplete :
    (let e := { entry .issued with left := 0 }
     let s := window [e] (.entryComplete 1 0)
     .entryComplete 1 0 ∈ s.due ∧ s.entry 1 0 = some e ∧ s.outputDevs 1 e = [] ∧ s.unsealed 1 e = []) ∧
      (let s := { window [writer .issued] (.entryComplete 1 0) with slices := [(0, mapped tileLeaf)] }
       s.entry 1 0 = some (writer .issued) ∧ s.outputDevs 1 (writer .issued) = [] ∧ s.unsealed 1 (writer .issued) = [(0, 0x100, 2)]) ∧
      (let e := { entry .issued with left := 0, dDevs := [5] }
       let s := { window [e] (.entryComplete 1 0) with domain := [5] }
       s.entry 1 0 = some e ∧ s.outputDevs 1 e = [] ∧ s.unsealed 1 e = [] ∧ e.dDevs.filter s.domain.contains ≠ []) :=
  ⟨⟨List.mem_singleton.2 rfl, by decide +kernel⟩, by decide +kernel⟩

theorem test_holds_EntriesRetire :
    let s := window [writer .complete, entry .decoded] (.entryRetire 1)
    .entryRetire 1 ∈ s.due ∧ (s.ctx 1).window = writer .complete :: [entry .decoded] ∧ (∃ o ∈ (writer .complete).ops, o.versioned = true ∧ o.wr = true) ∧
      (s.part (s.ctx 1).d.part).homes = [0] :=
  ⟨List.mem_singleton.2 rfl, rfl, ⟨_, List.mem_singleton.2 rfl, rfl, rfl⟩, by decide +kernel⟩

/-- A report of slot 3; two FPX of a collection window; a late report. -/
theorem test_holds_FaultsReachTheWindow :
    (let s := { window [entry .issued] (.taskFault 0 3) with facets := [(0, { reports := [(3, 1, 0, { cause := cACCESS })] })] }
     .taskFault 0 3 ∈ s.due ∧ (s.facet 0).reports = [(3, 1, 0, { cause := cACCESS })] ∧ s.entry 1 0 = some (entry .issued)) ∧
      (let x : Slot := { job := .task 1 0 0 false, trap := some { cause := cFPX } }
       let s := { window [entry .issued] (.collectionWindowClose 0) with facets := [(0, { slots := [(3, x), (4, x)], winFpx := [3, 4] })] }
       .collectionWindowClose 0 ∈ s.due ∧ (s.facet 0).winFpx = 3 :: [4] ∧
         ∀ m ∈ 3 :: [4], m < 16 ∧ (s.slot 0 m).owner = some (1, 0) ∧ (s.slot 0 m).trap.isSome = true) ∧
      (let s := onTask.modSlot 0 3 fun x => { x with late := [{ cause := cPOISON, pc := 4, addr := 8 }] }
       (s.slot 0 3).late = [{ cause := cPOISON, pc := 4, addr := 8 }] ∧ (s.slot 0 3).trap = none ∧ (s.slot 0 3).park = none ∧
         (s.slot 0 3).job = .task 1 0 0 false) :=
  ⟨⟨List.mem_singleton.2 rfl, by decide +kernel⟩, ⟨List.mem_singleton.2 rfl, by decide +kernel⟩, by decide +kernel⟩

/-- A complete entry before a FAULTED one, before which name 3 had version 1 next, with a younger one; both have bound it. -/
def faulted : Entry := { entry .faulted with seq := 1, lpc := 8, fault := some { cause := cACCESS }, names := [(3, { next := 1 })] }

theorem test_holds_FaultsRollBack :
    let s := window [entry .complete, faulted, { entry .decoded with seq := 2 }] (.reportedEntry 1)
    .reportedEntry 1 ∈ s.due ∧ (s.ctx 1).phase = .none ∧ (s.ctx 1).window = [entry .complete] ++ faulted :: [{ entry .decoded with seq := 2 }] ∧
      (∀ o ∈ [entry .complete], o.state = .complete ∧ o.seq ≠ faulted.seq) ∧ faulted.fault.isSome = true :=
  ⟨List.mem_singleton.2 rfl, rfl, rfl, by decide +kernel⟩

/-- A fault of context 1 that waits. -/
def waitingFault (g : Context → Context) : State :=
  { onStream with ctxs := [(1, g { ctx1 with window := [], phase := .waiting { cause := cACCESS } 8 1 false })], due := [.faultDelivery 1] }

theorem fault_waits (g : Context → Context) (h : (g { ctx1 with window := [], phase := .waiting { cause := cACCESS } 8 1 false }).phase =
    .waiting { cause := cACCESS } 8 1 false) (hd : (g { ctx1 with window := [], phase := .waiting { cause := cACCESS } 8 1 false }).dropDevs = [])
    (hn : (g { ctx1 with window := [], phase := .waiting { cause := cACCESS } 8 1 false }).noRecord = false) :
    FaultWaits (waitingFault g) 1 { cause := cACCESS } 8 1 false := ⟨List.mem_singleton.2 rfl, h, hd, hn, rfl⟩

/-- With a vector; without a service core; with one. -/
theorem test_holds_FaultsAreDelivered :
    (let s := waitingFault fun x => { x with svecH := 64, svecR := 0x100 }
     FaultWaits s 1 { cause := cACCESS } 8 1 false ∧ (s.ctx 1).svecH ≠ 0 ∧
       (s.done (.faultDelivery 1)).recordPlace 1 (s.ctx 1).svecR = some (0, 0x10100, false) ∧ s.streamCore 1 = some 0 ∧
       (s.core 0).atBoundary = true ∧ ∀ p, (s.prism p).cache = []) ∧
      (let s := waitingFault id
       FaultWaits s 1 { cause := cACCESS } 8 1 false ∧ (s.ctx 1).svecH = 0 ∧ (s.ctx 1).d.score = none) ∧
      (let s := waitingFault fun x => { x with d := { score := some 0 } }
       FaultWaits s 1 { cause := cACCESS } 8 1 false ∧ (s.ctx 1).svecH = 0 ∧ (s.ctx 1).d.score = some 0 ∧ (s.core 0).queueFull = false ∧
         s.mayTouch (s.core 0).wld ((s.core 0).sfqb.toNat * 4096 + 127) = true) :=
  ⟨⟨fault_waits _ rfl rfl rfl, by decide +kernel, by rfl, by decide +kernel, by decide +kernel, fun _ => rfl⟩,
    ⟨fault_waits _ rfl rfl rfl, rfl, rfl⟩, fault_waits _ rfl rfl rfl, rfl, rfl, by decide +kernel⟩

/-! Stream instructions: core 0 at level 1 issues for context 1. -/

/-- Its state with a context, and bytes of HBM: a header of one task at 0x1000 and a descriptor at 0x2000 that names it. -/
def issuing (x : Context) : State :=
  { onCore.modThread (.core 0) (fun t => t.wx 6 0x2000 false) with
    cores := [(0, { run := .running, stream := 1, th := ({} : Thread).wx 6 0x2000 false })], ctxs := [(1, x)],
    mem := [(0x1010, 1), (0x1014, 1), (0x1018, 1), (0x101C, 1), (0x1020, 1), (0x1024, 1), (0x2001, 0x10)] }

theorem streams (x : Context) : Streams (issuing x) 0 1 := ⟨rfl, rfl, fun _ h => by cases h⟩

theorem core_reads (x : Context) (va : Word) (pa n : Nat) (hs : (issuing x).spaceOf (.core 0) = .phys)
    (hp : (issuing x).physOf va = some pa) (hn : 0 < n) (ht : ∀ i, i < n → (issuing x).mayTouch false (pa + i) = true) :
    CoreReads (issuing x) 0 va pa n := ⟨hs, hp, hn, fun i hi => ⟨ht i hi, fun h => by cases h⟩⟩

/-- Their bytes where a core at level 0 reads them, in a page that lies in HBM alone. -/
def launching : State :=
  { onStream with
    cores := [(0, { run := .running, level := 0, stream := 1, th := ({} : Thread).wx 6 0x2000 false })],
    ctxs := [(1, { ctx1 with window := [], nseq := 1 })], slices := [(0, mapped (plainLeaf ||| (1 <<< 44)))],
    mem := (issuing ctx1).mem.map fun b => (b.1 + 0x10000, b.2) }

/-- A core at level 1; the handler; a SUP context; a core at level 0. -/
theorem test_holds_LaunchesDecode :
    (let s := issuing { ctx1 with window := [], nseq := 1 }
     Streams s 0 1 ∧ Ready s { facet := false, handler := false, reads := [6], writes := [5] } ∧ (s.ctx 1).phase = .none ∧ (s.ctx 1).window = [] ∧
       s.framesLow 1 = false ∧ s.apexUpdates 1 = false ∧ (s.core 0).th.rx 6 = 0x2000 ∧ CoreReads s 0 0x2000 0x2000 208 ∧
       fieldOf (readBytes s.mem 0x2000 208) 0 8 = 0x1000 ∧ fieldOf (readBytes s.mem 0x2000 208) 8 8 = 0 ∧ CoreReads s 0 0x1000 0x1000 80 ∧
       PlainHeader s 1 (Header.ofBytes (readBytes s.mem 0x1000 80))) ∧
      (let s := issuing { ctx1 with phase := .handler }
       Streams s 0 1 ∧ (s.ctx 1).phase = .handler) ∧
      (let s := issuing { ctx1 with d := { sup := true } }
       Streams s 0 1 ∧ (s.ctx 1).phase ≠ .handler ∧ (s.ctx 1).d.sup = true) ∧
      let s := launching
      let b := readBytes s.mem 0x12000 16
      let hb := readBytes s.mem 0x11000 80
      Streams s 0 1 ∧ Ready s { facet := false, handler := false, reads := [6], writes := [5] } ∧ (s.ctx 1).phase = .none ∧ (s.ctx 1).window = [] ∧
        s.framesLow 1 = false ∧ s.apexUpdates 1 = false ∧ (s.core 0).th.rx 6 = 0x2000 ∧ s.coreRead 0 0x2000 16 = .got s b ∧ fieldOf b 8 1 = 0 ∧
        fieldOf b 0 8 = 0x1000 ∧ fieldOf b 9 7 = 0 ∧ s.coreRead 0 0x1000 80 = .got s hb ∧ PlainHeader s 1 (Header.ofBytes hb) := by
  refine ⟨⟨streams _, ?_⟩, ⟨streams _, rfl⟩, ⟨streams _, by decide +kernel, rfl⟩, ⟨rfl, rfl, fun _ h => by cases h⟩, ?_⟩
  all_goals
    unfold PlainHeader Ready
    and_intros
    all_goals first
      | decide +kernel
      | exact fun _ => rfl
      | rfl

/-- Nothing in the window; and an entry with an ordinary operand. -/
theorem test_holds_StreamFences :
    (let s := issuing { ctx1 with window := [] }
     Streams s 0 1 ∧ Ready s { facet := false, handler := false, writes := [0] } ∧
       Ready s { facet := false, handler := false, reads := [6, 7], writes := [0] } ∧ (s.ctx 1).phase = .none ∧ (s.ctx 1).window = []) ∧
      (let s := issuing ctx1
       Streams s 0 1 ∧ (s.ctx 1).phase ≠ .handler ∧ (s.ctx 1).window ≠ []) :=
  ⟨⟨streams _, by unfold Ready; decide +kernel, by unfold Ready; decide +kernel, rfl, rfl⟩, streams _, by decide +kernel⟩

/-- A core at level 1 reads HBM; at level 0 a page of its context. -/
theorem test_holds_NamesBind :
    (let s := issuing { ctx1 with window := [] }
     Streams s 0 1 ∧ Ready s { facet := false, handler := false, reads := [7, 6], writes := [0] } ∧
       Ready s { facet := false, handler := false, reads := [6], writes := [5] } ∧ (s.ctx 1).phase = .none ∧ (s.ctx 1).window = [] ∧
       CoreReads s 0 0x2000 0x2000 32 ∧ ((s.core 0).th.rx 7).toNat = 0) ∧
      CtxReads launching 0 1 0x2000 0x12000 32 := by
  refine ⟨⟨streams _, by unfold Ready; decide +kernel, by unfold Ready; decide +kernel, rfl, rfl,
    core_reads _ _ _ _ (by decide +kernel) (by decide +kernel) (by decide) ?_, by decide +kernel⟩, ?_⟩
  · exact (by decide +kernel : ∀ i < 32, (issuing { ctx1 with window := [] }).mayTouch false (0x2000 + i) = true)
  · unfold CtxReads
    refine ⟨rfl, ?_⟩
    and_intros
    rotate_right
    · exact ⟨0, _, _, by decide +kernel, rfl, by decide +kernel⟩
    all_goals first
      | exact fun _ => rfl
      | decide +kernel

theorem test_holds_StreamStatusAndVector :
    let s := issuing { ctx1 with phase := .waiting { cause := cACCESS } 8 1 false }
    Streams s 0 1 ∧ Ready s { facet := false, handler := false, writes := [5] } ∧
      Ready s { facet := false, handler := false, reads := [6, 7], writes := [0] } ∧ (s.ctx 1).phase = .waiting { cause := cACCESS } 8 1 false :=
  ⟨streams _, by unfold Ready; decide +kernel, by unfold Ready; decide +kernel, rfl⟩

/-- A delivered fault whose replay list holds one item, with its header. -/
theorem test_holds_FaultsAreAnswered :
    let s := issuing { ctx1 with phase := .handler, replay := [{ lpc := 8, desc := 0, hdrAt := 0, hdr := some {}, ops := [] }] }
    Streams s 0 1 ∧ Ready s { facet := false, handler := false, reads := [6], writes := [0] } ∧ ((s.core 0).th.rx 6).toNat % 4 = 0 ∧
      (s.ctx 1).phase = .handler ∧ ∀ i ∈ (s.ctx 1).replay, i.hdr.isSome = true :=
  ⟨streams _, by unfold Ready; decide +kernel, by decide +kernel⟩
end

