-- ==== Sys2Proof/Tests/Supervisor.lean ====
section
/-! SUPPORT. For each claim about the supervisor's registers, invalidation, migration, service answers and pre-emption, a state and
operands that meet its hypotheses. -/

set_option maxRecDepth 100000
set_option Elab.async false

open Sys2Proof Sys2Proof.Machine Sys2Proof.Tests

/-! Registers: core 0 at level 1. -/

/-- A descriptor at 0x1000 names address space 5; the one at 0x2000 names that of context 1. -/
def describedCtx : State := { onCore with mem := [(0x1048, 5)] }

theorem test_holds_ContextsBecomeValid :
    describedCtx.supervises 0 = true ∧ describedCtx.ctxOutside 0 2 = false ∧ fieldAt 0x1001 6 38 * 64 = 0x1000 ∧
      DescriptorPasses describedCtx 0 2 0x1000 ∧ ¬ DescriptorPasses describedCtx 0 2 0x2000 := by
  refine ⟨by decide +kernel, by decide +kernel, by decide +kernel, ?_, fun h => ?_⟩
  · unfold DescriptorPasses
    and_intros
    all_goals decide +kernel
  · exact h.2.2.2.2.2.2.2.2.2.2.2.2.2.1 (1, ctx1) (List.mem_singleton.2 rfl) (by decide) rfl (by decide +kernel)

/-- Context 1 has an entry; without it and its live state it is free. -/
theorem test_holds_ContextsBecomeInvalid :
    onCore.ctxOutside 0 1 = false ∧ ContextInUse onCore 1 ∧
      (let s := { onCore with ctxs := [(1, { ctx1 with window := [] })] }
       (s.ctx 1).live = true ∧ ¬ ContextInUse s 1) ∧ (onCore.ctx 2).live = false :=
  ⟨by decide +kernel, .inr (.inl (by decide +kernel)), ⟨rfl, by
    rintro (⟨x, hx, -, -, h, -⟩ | h | ⟨x, hx, -⟩)
    · obtain rfl := List.mem_singleton.1 hx; exact absurd h (by decide)
    · exact h rfl
    · cases hx⟩, by decide +kernel⟩

/-- Queue 3 of context 1 for core 0 has its control block at 0x1000; queue 4 has none. -/
def queued : State := { onCore with qmap := [(3, 0x4000003)], mem := [(0x1004, 1)] }

theorem test_holds_NotifyWrites :
    (let m := queued.qmapOf 3
     fieldAt m 20 38 * 64 ≠ 0 ∧ m.getLsbD 0 && (queued.ctx (fieldAt m 1 6)).live) ∧
      (∀ i, i < 5 → queued.mayTouch (queued.ctx (fieldAt (queued.qmapOf 3) 1 6)).d.world (fieldAt (queued.qmapOf 3) 20 38 * 64 + i) = true) ∧
      fieldAt (queued.qmapOf 4) 20 38 = 0 := by decide +kernel

theorem test_holds_QueueMaps : queued.supervises 0 = true ∧ queued.queueOf 0 3 = true ∧ queued.queueOf 0 4 = true := by decide +kernel

theorem test_holds_Hints : onCore.supervises 0 = true ∧ onCore.queueOf 0 3 = true := by decide +kernel

theorem test_holds_RegisterAddresses :
    onCore.supervises 0 = true ∧ onCore.partOfCore 0 = some 0 ∧ onCore.ctxOutside 0 1 = false ∧ onCore.queueOf 0 3 = true ∧
      onCore.partOfPrism 0 = some 0 ∧ onCore.partOfSlice 0 = some 0 ∧ fieldAt 0x200 8 2 = 2 ∧ fieldAt 0x20000 16 2 = 2 ∧
      ((onCore.slice 0).versions = [] ∧ (onCore.slice 0).quota = [] ∧ (onCore.slice 0).mig = .none) := by decide +kernel

/-- Prism 9, slice 9 and core 1 are none of partition 0, and context 1 belongs to partition 2. -/
theorem test_holds_RegistersOutOfReach :
    let s := { onCore with ctxs := [(1, { ctx1 with d := { part := 2 } })], qmap := [(3, 0x20000)] }
    s.supervises 0 = true ∧ s.partOfCore 0 = some 0 ∧ (s.ctx 1).live = true ∧ (s.ctx 1).d.part ≠ 0 ∧ fieldAt (s.qmapOf 3) 16 4 ≠ 0 ∧
      s.partOfPrism 9 ≠ some 0 ∧ s.partOfSlice 9 ≠ some 0 := by decide +kernel

/-- Prism 0 is draining and holds nothing. -/
theorem test_holds_PrismStates :
    let s := { onCore with prisms := [(0, { state := .draining })] }
    (s.prism 0).state = .draining ∧
      ((s.prism 0).ranges = [] ∧ (s.prism 0).conts = [] ∧ (s.prism 0).contsWait = [] ∧ ∀ i, i < 8 → let x := s.facet (8 * 0 + i)
        x.slots = [] ∧ x.mq0.bind = none ∧ x.mq1.bind = none ∧ x.grant = 0) ∧
      (∀ x ∈ s.ctxs, ∀ e ∈ x.2.window, e.unhanded = false) ∧ s.updates 3 0 = false ∧ (onCore.prism 0).state = .active ∧
      ({ s with update := some { kind := 3, index := 0, svn := 0, digest := [] } } : State).updates 3 0 = true := by decide +kernel

/-- Prism 0 holds a range of the entry of context 1. -/
theorem test_holds_Removals :
    let s := { onCore with prisms := [(0, { ranges := [{ c := 1, seq := 0, lo := 0, hi := 1 }] })] }
    (∀ i, i < 8 → (s.facet (8 * 0 + i)).slots = [] ∧ (s.facet (8 * 0 + i)).savedSlots = []) ∧ (s.prism 0).conts = [] ∧
      (s.prism 0).contsWait = [] ∧ (∃ r ∈ (s.prism 0).ranges, r.c = 1 ∧ r.seq = 0) ∧ (∀ r ∈ (s.prism 0).ranges, r.c = 1 ∧ r.seq = 0) ∧
      (s.entry 1 0).map (·.state) = some .issued := by decide +kernel

theorem test_holds_SliceConfiguration : (onCore.slice 0).cache = [] ∧ (onCore.slice 0).quota = [] := by decide +kernel

/-! Invalidation and migration. -/

/-- An invalidation of another address space is in progress there. -/
def invalidating : State :=
  { onCore with cores := [(0, { run := .running, tiWork := some (.context 5) })], due := [.invalidationDone 0],
                prisms := [(0, { cache := [(5 * 2 ^ 55 + 1, {}), (7, {})] })] }

theorem test_holds_InvalidationsBegin :
    onCore.supervises 0 = true ∧ onCore.partOfCore 0 = some 0 ∧ (onCore.core 0).tiWork = none ∧
      ((onCore.ctx 1).live = true ∧ (onCore.ctx 1).d.part = 0) ∧ (invalidating.core 0).tiWork.isSome ∧ (onCore.ctx 2).live = false := by
  decide +kernel

theorem test_holds_InvalidationsEnd :
    (∀ x ∈ invalidating.slices, ∀ r ∈ x.2.records, (invalidating.ctx r.c).d.asn ≠ 5) ∧ .invalidationDone 0 ∈ invalidating.due ∧ invalidating.partOfCore 0 = some 0 ∧ (invalidating.core 0).tiWork = some (.context 5) ∧
      invalidating.reqs = [] ∧ ∀ r l, l ∈ (invalidating.prism r).cache → l.2.dirty = 0 ∧ l.2.upd = none :=
  ⟨by decide +kernel, List.mem_singleton.2 rfl, by decide +kernel, by decide +kernel, rfl, fun r l h => by
    match r, h with
    | 0, h => exact (by decide +kernel : ∀ l ∈ (invalidating.prism 0).cache, l.2.dirty = 0 ∧ l.2.upd = none) l h
    | _ + 1, h => cases h⟩

/-- Slices 0 and 1; page 0 of context 1 is mapped to 0x10000 by tables in memory, and the engine of slice 0 names the frame at 0x20000. -/
def movingPage : State :=
  { onCore with slices := [(0, { mgpa := 2, sfrs := 1 }), (1, {})],
                mem := [(0, 1), (1, 0x20), (0x1000, 0x1F), (0x1002, 1), (0x2000, 1), (0x2001, 0x80), (0x8000, 1), (0x8001, 0x10)],
                parts := [(0, { prisms := [0], slices := [0, 1], homes := [0, 0], cores := [0], hbm := [(0, 16)] })] }

/-- The engine is busy; the page is mapped by no leaf; the destination lies outside HBM; the slice has no area; both slices are one. -/
theorem test_holds_MigrationsRefused :
    (movingPage.slice 0).mgst ≠ 1 ∧ movingPage.updates 1 0 = false ∧ movingPage.whereIs 0 = .here ∧ movingPage.home 1 0 = some 0 ∧ movingPage.walk 0 1 (localVa 0) = .leaf plainLeaf 65536 ∧
      leafVer plainLeaf = false ∧ walkEntry movingPage (localVa 0) levels (movingPage.ctx 1).d.root = some 0x1000 ∧
      movingPage.destOk 0 (movingPage.ctx 1).d.world 65536 = true ∧ movingPage.destOk 0 (movingPage.slice 0).world (movingPage.slice 0).areaBytes = true ∧
      movingPage.destOk 0 (movingPage.slice 0).world 65536 = true ∧
      (movingPage.slice 0).sfrs ≠ 0 ∧ movingPage.partOfSlice 0 = movingPage.partOfSlice 1 ∧ (movingPage.partOfSlice 0).isSome = true ∧
      (movingPage.slice 0).versions = [] ∧ (movingPage.slice 1).versions.length ≤ 8192 ∧
      (movingPage.slice 0).parkq.length + (movingPage.slice 1).parkq.length ≤ 4096 ∧
      (let s := { movingPage with slices := [(0, { mgst := 1 })] }
       (s.slice 0).mgst = 1) ∧
      ({ movingPage with update := some { kind := 1, index := 0, svn := 0, digest := [] } } : State).updates 1 0 = true ∧
      (let s := { movingPage with mem := [], slices := [(0, { mgpa := 0x100, sfrs := 1 })] }
       s.walk 0 1 (localVa 0) = .miss ∧ s.destOk 0 (s.slice 0).world (max 65536 (s.slice 0).areaBytes) = false ∧
         s.destOk 0 (s.slice 0).world 65536 = false) := by decide +kernel

/-- The copy of that page is done. -/
theorem test_holds_PagesMove :
    let s := movingPage.modSlice 0 fun x => { x with mig := .page 1 0 0x20000 0x1000, mgst := 1 }
    let u := { s with due := [.migrationCopyDone 0] }
    memoryWf u.mem = true ∧ .migrationCopyDone 0 ∈ u.due ∧ (u.slice 0).mig = .page 1 0 0x20000 0x1000 ∧ u.reqs = [] ∧
      (u.slice 0).cache = [] ∧ (u.slice 0).parkq = [] ∧ 0x20000 % 65536 = 0 ∧ 0x20000 ≠ fieldAt (u.hbm64 0x1000) 16 28 * 65536 ∧
      0x1000 + 8 ≤ 0x20000 ∧ u.mayTouch (u.slice 0).world 0x1000 = true ∧ u.mayTouch (u.slice 0).world 0x1007 = true := by decide +kernel

theorem test_holds_AreasAndHomesMove :
    (let s := { movingPage with slices := [(0, { mig := .area 0x20000, mgst := 1 })], due := [.migrationCopyDone 0] }
     .migrationCopyDone 0 ∈ s.due ∧ (s.slice 0).mig = .area 0x20000 ∧ (s.slice 0).parkq = []) ∧
      (let s := { movingPage with slices := [(0, { mig := .home 1, mgst := 1, versions := [{ ctx := 1, tile := 0, ver := 2, st := .sealed }] }), (1, {})],
                                  due := [.migrationCopyDone 0] }
       .migrationCopyDone 0 ∈ s.due ∧ (s.slice 0).mig = .home 1 ∧ s.reqs = [] ∧ (s.slice 0).versions ≠ [] ∧ (s.slice 0).cache = [] ∧
         (s.slice 0).parkq = [] ∧ (s.slice 0).quota = [] ∧ (s.slice 1).quota = [] ∧
         (placeAll (s.slice 1) (s.slice 0).versions).isSome = true ∧ (s.slice 1).parkq.length ≤ 4096 ∧
         (s.slice 1).hold.length + (s.slice 0).hold.length ≤ 16) := by decide +kernel

/-! Answers of a service core. -/

theorem test_holds_TimersEndWaits :
    let s := { onCore with cores := [(0, { run := .running, park := some { kind := .waitCnt }, stimer := 5, cyc := 5, sie := 1 })] }
    (s.core 0).run = .running ∧ (s.core 0).park.map (·.kind) = some .waitCnt ∧ (s.core 0).stimer ≠ 0 ∧
      (s.core 0).stimer.toNat ≤ (s.core 0).cyc ∧ (s.core 0).sie.getLsbD 0 = true := by decide +kernel

/-- Core 0 is the service core of context 1, whose load has missed; a token names the miss or none does. -/
def missed (tok : Option Nat) (i : Instr) : State :=
  { asking { parkq := [7] } (.load 5 .n32) (.missing tok) i with ctxs := [(1, { ctx1 with d := { score := some 0 } })] }

theorem test_holds_MissesArePostedAgain :
    let s := missed none (.faultQueueRepost 7)
    .faultQueueRepost 7 ∈ s.due ∧ s.req 7 = some (asked (.load 5 .n32) (.missing none)) ∧ (s.ctx 1).d.score = some 0 ∧
      (∀ e ∈ s.reqs, ∀ q, e.2.stage ≠ .missing (some q)) ∧ (s.core 0).queueFull = false ∧
      ({ s with cores := [(0, { sfqTail := 31 })] }.core 0).queueFull = true :=
  ⟨List.mem_singleton.2 rfl, rfl, rfl, fun e h q => by obtain rfl := List.mem_singleton.1 h; simp, by decide +kernel⟩

theorem test_holds_VerdictsOnMisses (i : Instr) :
    let s := missed (some 9) i
    MissParked s 9 7 (asked (.load 5 .n32) (.missing (some 9))) 0 ∧ (s.facet 0).parked = [] ∧ (∃ c q o b, (s.slot 0 3).job = .task c q o b) ∧
      i ∈ s.due :=
  ⟨⟨rfl, rfl, by rfl, rfl⟩, rfl, ⟨1, 0, 0, false, rfl⟩, List.mem_singleton.2 rfl⟩

/-- The stream of context 1 waits for the answer under token 9; then the answer is kept. -/
theorem test_holds_VerdictsOnStreamFaults (i : Instr) :
    FaultNamed { onStream with ctxs := [(1, { ctx1 with phase := .service 9 (some 0x40) })], due := [i] } 9 1 (some 0x40) ∧
      (let s := { onStream with ctxs := [(1, { ctx1 with phase := .answered true (some 0x40) })], due := [.faultDelivery 1] }
       .faultDelivery 1 ∈ s.due ∧ (s.ctx 1).phase = .answered true (some 0x40) ∧ s.streamCore 1 = some 0 ∧ (s.core 0).atBoundary = true ∧
         s.reqs = [] ∧ (s.ctx 1).replay = []) :=
  ⟨⟨rfl, rfl, fun x h _ e => by obtain rfl := List.mem_singleton.1 h; cases e; exact ⟨rfl, rfl⟩⟩, List.mem_singleton.2 rfl, by decide +kernel⟩

/-! Pre-emption: facet 0 of prism 0. -/

/-- The facet holds no saved state; one that drains already. -/
theorem test_holds_SavesBegin :
    let s := { onTask with due := [.spreSave 0 0 0x4000] }
    .spreSave 0 0 0x4000 ∈ s.due ∧ (∃ p, s.partOfCore 0 = some p ∧ s.partOfPrism (prismOf 0) = some p) ∧ (s.facet 0).stash = none ∧
      (s.facet 0).save = .idle ∧ ({ onTask with facets := [(0, { save := .draining })] }.facet 0).save ≠ .idle :=
  ⟨List.mem_singleton.2 rfl, ⟨0, by decide +kernel⟩, rfl, rfl, by decide⟩

/-- Facet 0 drains. -/
def draining (i : Instr) : State := (onTask.modFacet 0 fun x => { x with save := .draining, stash := some {}, saveArea := 0x4000 }).pushFirst i

theorem test_holds_WithdrawalsAreAnswered :
    let s := { draining (.withdrawalAnswer 7 true) with reqs := [(7, asked (.vget 2 0 0 1024) .onVersion)] }
    .withdrawalAnswer 7 true ∈ s.due ∧ s.req 7 = some (asked (.vget 2 0 0 1024) .onVersion) ∧ (s.facet 0).save = .draining ∧
      s.whereIs 0x100 = .here ∧ (s.facet 0).stash = some {} ∧ ∀ x ∈ s.slices, x.2.versions = [] :=
  ⟨List.mem_singleton.2 rfl, by decide +kernel⟩

/-- The one region of a state holds an address. -/
theorem region_of (s : State) (w l : Word) (b : Nat) (h : s.regions = [(0, (w, l))])
    (hb : (bitAt w 63 && fieldAt w 16 28 * 65536 ≤ b && b < fieldAt l 16 28 * 65536) = true) : s.region b = some (bitAt w 62) := by
  unfold State.region
  rw [h]
  simp only [List.find?, hb, Option.map_some]

/-- The save area lies in HBM, in the facet's world. -/
theorem area_ok (t : State) (l : Word) (h : t.regions = [(0, (0x8000000000000000, l))]) (hl : 1 ≤ fieldAt l 16 28) (hp : t.prisms = []) :
    AreaOk t 0 0x4000 := by
  intro b h1 h2
  have h5 : fieldAt 0x8000000000000000 16 28 = 0 := by decide
  have h6 : bitAt 0x8000000000000000 63 = true := by decide
  have hr := region_of t 0x8000000000000000 l b h (by
    rw [h5, h6, Bool.true_and, Bool.and_eq_true, decide_eq_true_eq, decide_eq_true_eq]; omega)
  have hm : isRegister b = false := decide_eq_false (by omega)
  have hs : inStack b = true := by
    rw [inStack, stackOf, Bool.and_eq_true, decide_eq_true_eq, decide_eq_true_eq]; omega
  unfold State.mayTouch State.prism
  rw [hr, hp, hm, hs]
  decide

theorem test_holds_SavesEnd :
    let s := draining (.saveDrainEnd 0)
    .saveDrainEnd 0 ∈ s.due ∧ (s.facet 0).save = .draining ∧ (s.facet 0).stash = some {} ∧ Drained s 0 ∧
      (s.slot 0 3).job = .task 1 0 0 false ∧ AreaOk s 0 (s.facet 0).saveArea := by
  refine ⟨List.mem_singleton.2 rfl, by decide +kernel, by decide +kernel, ?_, rfl, area_ok _ _ rfl (by decide) rfl⟩
  unfold Drained
  and_intros
  all_goals first | rfl | decide +kernel | exact fun _ _ _ h => by cases h

/-- The area of facet 0 names it, grants it 8 lanes and holds a VALID record for slot 3. -/
def resumable : State :=
  { onCore with facets := [(0, { stash := some { slots := [(3, { job := .task 1 0 0 false })] } })], due := [.spreResume 0 0 0x4000],
                regions := [(0, (0x8000000000000000, 0x400000))], mem := [(0x4008, 8), (0x4000 + 0x400 + 1024 * 3 + 0xFE, 1)] }
theorem test_holds_Resumes :
    let s := resumable
    (.spreResume 0 0 0x4000 ∈ s.due ∧ s.facetOf 0 0 = true ∧ (s.facet 0).save = .idle ∧ (s.facet 0).holdsTask = false) ∧
      (∃ u, (s.facet 0).stash = some u ∧ u.slots = [(3, { job := .task 1 0 0 false })] ∧ u.kept = false) ∧ AreaOk s 0 0x4000 ∧
      (s.areaReadable (s.prism (prismOf 0)).world 0x4000 = true ∧ ofBytes (readBytes s.mem (0x4000 + 4) 2) = 0) ∧
      (8 ≤ s.lanesFree (prismOf 0) ∧ ofBytes (readBytes s.mem (0x4000 + 0x0A) 1) % 4 = 0 ∧ (s.entry 1 0).isSome = true) ∧
      ofBytes (readBytes s.mem (0x4000 + 0x400 + 1024 * 3 + 0xFE) 1) % 2 = 1 :=
  ⟨⟨List.mem_singleton.2 rfl, by decide +kernel⟩, ⟨_, rfl, rfl, rfl⟩, area_ok _ _ rfl (by decide) rfl, by decide +kernel⟩
end

