-- ==== Sys2Proof/Tests/System.lean ====
section
/-! SUPPORT. For each claim about debugging, triggers, monitor calls, links and errors, a state and operands that meet its hypotheses. -/

set_option maxRecDepth 100000
set_option Elab.async false

open Sys2Proof Sys2Proof.Machine Sys2Proof.Tests

/-! Debugging: slot 3 of facet 0, in a partition within the aperture's reach. -/

def inReach : State := { onTask with apParts := 1 }

/-- The slot has trapped with a cause; its report may be held. -/
def trapped (cause : BitVec 8) (dbg : Bool) (info : Word) (held : Option Report) : State :=
  inReach.modSlot 0 3 fun x => { x with trap := some { cause := cause, dbg := dbg, info := info }, held := held, sdc := { held := true } }

/-- The slot runs; it is parked; slot 15 is idle; the slot has trapped. -/
theorem test_holds_HaltRequests :
    InReachOf inReach 0 3 ∧ (inReach.slot 0 3).job ≠ .vacant ∧ (inReach.slot 0 3).trap = none ∧ (inReach.slot 0 3).park = none ∧
      (let s := inReach.modSlot 0 3 fun x => { x with park := some { kind := .take } }
       (s.slot 0 3).park = some { kind := .take } ∧ InReachOf s 0 3) ∧
      (InReachOf inReach 0 15 ∧ (inReach.slot 0 15).job = .vacant ∧ (inReach.slot 0 15).trap = none ∧ (inReach.slot 0 15).park = none) ∧
      ((trapped cACCESS false 0 none).slot 0 3).trap.isSome = true := by
  unfold InReachOf; decide +kernel

theorem test_holds_HeldReportsAreReleased :
    let s := trapped cACCESS false 0 (some { cause := cACCESS })
    InReachOf s 0 3 ∧ (s.slot 0 3).held = some { cause := cACCESS } ∧ (s.slot 0 3).job = .task 1 0 0 false ∧
      (s.facet 0).winFpx.contains 3 = false ∧ ((s.modFacet 0 fun x => { x with winFpx := [3] }).facet 0).winFpx.contains 3 = true ∧
      (inReach.slot 0 3).held = none := by
  unfold InReachOf; decide +kernel

/-- The slot is halted; it runs; a save of facet 0 holds slot 4 halted. -/
theorem test_holds_RunsAndSteps :
    InReachOf (trapped cBKPT true 0 none) 0 3 ∧ ((trapped cBKPT true 0 none).slot 0 3).trap.isSome = true ∧ InReachOf inReach 0 3 ∧
      (inReach.slot 0 3).trap = none ∧ (inReach.slot 0 3).job ≠ .vacant ∧
      (let u : Stash := { slots := [(4, { trap := some { cause := cBKPT } })] }
       let s := inReach.modFacet 0 fun x => { x with stash := some u }
       InReachOf s 0 4 ∧ (s.slot 0 4).trap = none ∧ (s.slot 0 4).job = .vacant ∧ (s.facet 0).stash = some u) := by
  unfold InReachOf; decide +kernel

/-- The slot is a member of group 2: running; parked; halted. -/
theorem test_holds_HoldGroups :
    let member := fun (s : State) => s.modSlot 0 3 fun x => { x with sdc := { x.sdc with memb := true, grp := 2 } }
    ∀ s ∈ [member inReach, (member inReach).modSlot 0 3 fun x => { x with park := some { kind := .take } }, member (trapped cBKPT true 0xFF none)],
      s.reachable 1 = true ∧ s.members 1 4 = [(0, 3)] ∧ (s.slot 0 3).job ≠ .vacant := by decide +kernel

/-- The debugger of context 1 halted the slot, or claimed its fault. -/
theorem test_holds_Detaches :
    let attached := fun (s : State) => { s with ctxs := [(1, { ctx1 with dbg := { att := true } })] }
    ∀ s ∈ [attached (trapped cBKPT true 1 none), attached (trapped cACCESS false 0 (some { cause := cACCESS }))],
      s.reachable 1 = true ∧ (s.ctx 1).dbg.att = true ∧ s.slotsOf 1 = [(0, 3)] ∧ (s.slot 0 3).job = .task 1 0 0 false := by decide +kernel

/-- Breakpoint 2 of context 1 names the slot's pc, 0x40. -/
theorem test_holds_BreakpointsHalt :
    let s := ({ inReach with ctxs := [(1, { ctx1 with dbg := { att := true, ibc := [(2, 1)], iba := [(2, 0x40)] } })] }).modThread (.slot 0 3)
      fun t => { t with pc := 0x40 }
    let w : Word := 1
    (s.slot 0 3).job = .task 1 0 0 false ∧ (s.slot 0 3).candidate (s.facet 0).cyc = true ∧ (s.facet 0).save ≠ .draining ∧
      (s.slot 0 3).late = [] ∧ (s.ctx 1).dbg.att = true ∧ (s.slot 0 3).sdc.skip = false ∧ (s.slot 0 3).sdc.stepping ≠ some true ∧
      kfind 2 (s.ctx 1).dbg.ibc = some w ∧ w.getLsbD 0 = true ∧ fieldAt w 1 2 < 2 ∧ w.getLsbD 3 = false ∧ fieldAt w 32 16 ≤ 1 ∧
      fieldAt (kget 0 (s.ctx 1).dbg.iba 2) 2 62 = fieldAt (s.slot 0 3).th.pc 2 62 := by decide +kernel

theorem breakpoint2 (j : Nat) (h : j ≠ 2) : (kget (0 : Word) [(2, 1)] j).getLsbD 0 = false := by
  have : ¬ 2 = j := fun e => h e.symm
  simp [kget, kfind, this]

theorem test_holds_WatchpointsHalt :
    let s := { inReach with ctxs := [(1, { ctx1 with dbg := { att := true, wpc := [(2, 1)], wpa := [(2, 0x200)] } })] }
    (s.slot 0 3).job = .task 1 0 0 false ∧ (s.slot 0 3).candidate (s.facet 0).cyc = true ∧ (s.facet 0).save ≠ .draining ∧
      (s.slot 0 3).late = [] ∧ (s.slot 0 3).sdc.skip = false ∧ s.watches 1 2 0x200 = true := by decide +kernel

/-! The aperture. -/

/-- Address 0x100 of context 1 translates to 0x10100, which may be poisoned; its page may be missing or refuse writes; 0x104 is misaligned. -/
theorem test_holds_MemoryPort :
    let s := { inReach with dmva := 0x100 }
    s.reachable 1 = true ∧ s.home 1 s.dmva = some 0 ∧ s.whereIs s.dmva = .here ∧ (s.slice 0).cache = [] ∧ s.dmva.toNat % 8 = 0 ∧
      (s.findAt 0 1 s.dmva .read).1 = .at 0x10100 plainLeaf ∧ (s.findAt 0 1 s.dmva .write).1 = .at 0x10100 plainLeaf ∧ 0x10100 % 8 = 0 ∧
      ({ inReach with dmva := 0x104 } : State).dmva.toNat % 8 ≠ 0 ∧
      (let u := { s with slices := [] }
       u.home 1 u.dmva = some 0 ∧ (u.findAt 0 1 u.dmva .read).1 = .miss) ∧
      (let u := { s with slices := [(0, mapped 0x10007)] }
       (u.findAt 0 1 u.dmva .write).1 = .fail cACCESS) := by decide +kernel

theorem test_holds_MemoryPort_noUpdates (q j : Nat) : (({ inReach with dmva := 0x100 } : State).prismLine q j).upd = none := rfl

theorem test_holds_StallCountersClear : InReachOf inReach 0 0 := by unfold InReachOf; decide +kernel

/-- The register x5 of the slot; an address that no register has; a slot of a prism out of reach. -/
theorem test_holds_ApertureAccesses :
    inReach.power = .up ∧ onTask.reachesPrism (prismOf 0) = false ∧ inReach.reachesPrism (prismOf 0) = true ∧
      (inReach.debugReg (debugAt (0x4000 * (16 * 0 + 3) + 0x100 + 8 * 5))).isSome = true ∧
      inReach.debugReach (debugAt (0x4000 * (16 * 0 + 3) + 0x100 + 8 * 5)) = true ∧
      onTask.debugReach (debugAt (0x4000 * (16 * 0 + 3) + 0x100 + 8 * 5)) = false ∧ inReach.debugReg (debugAt 0x3FFFFFFF8) = none ∧
      (0x300000010#40).toNat = 0x300000010 ∧ ({} : State).power ≠ .up := by decide +kernel

theorem test_holds_TestPortUpdates :
    inReach.power = .up ∧ (0x1#112 <<< 104).extractLsb' 104 2 = 1 ∧ (0x2#112 <<< 104).extractLsb' 104 2 = 2 ∧
      (0x3#112 <<< 104).extractLsb' 104 2 = 3 := by decide +kernel

/-! Triggers and the time base. -/

/-- Channel 2 starts with the software event of channel 0; it may run. -/
def chan2 : Chan := { en := true, startev := eventName 5 0, stopev := eventName 5 0, hctx := 1 }
def channelled (c : Chan) (i : Instr) : State := { inReach with chans := [(2, c)], due := [i] }

theorem test_holds_EventsReachChannels :
    (channelled chan2 (.timeBaseCompare 2)).reachesChan 0 = true ∧ onTask.reachesChan 0 = false ∧
      .timeBaseCompare 2 ∈ (channelled chan2 (.timeBaseCompare 2)).due := ⟨by decide +kernel, by decide +kernel, List.mem_singleton.2 rfl⟩

theorem test_holds_ChannelsStartAndStop :
    (let s := channelled chan2 (.channelStart 2)
     kfind 2 s.chans = some chan2 ∧ .channelStart 2 ∈ s.due ∧ chan2.en = true ∧ chan2.run = false ∧ chan2.past = []) ∧
      (let c := { chan2 with run := true }
       let s := channelled c (.channelStop 2)
       kfind 2 s.chans = some c ∧ .channelStop 2 ∈ s.due) := by decide +kernel

theorem test_holds_ForwardedTriggers :
    let c : Chan := { en := true, startev := eventName 7 4, snps := true }
    let s := { inReach with chans := [(2, c)], tick := 5000 }
    .trg 4 900 ∉ s.due ∧ 900 + 4096 ≤ s.tick ∧ s.chans = [(2, c)] ∧ s.actions = [] ∧ s.tick < 1000 + 4096 := by decide +kernel

/-! The monitor: core 0 is secure or not and waits in an SMC, with arguments from x6. -/

def calling (wld : Bool) (i : Instr) (a1 a2 a3 a4 : Word) : State :=
  { onCore with due := [i],
                cores := [(0, { run := .smc, wld := wld, th := (((({} : Thread).wx 6 a1 false).wx 7 a2 false).wx 8 a3 false).wx 9 a4 false })] }

theorem calls (wld : Bool) (i : Instr) (a1 a2 a3 a4 : Word) (h : isCall i = true) : Calls (calling wld i a1 a2 a3 a4) 0 i :=
  ⟨List.find?_cons_of_pos h, rfl⟩

/-- Prism 5 is free; prism 0 is owned, and idle in another state. -/
theorem test_holds_PartitionsChange :
    (let s := calling true (.part (.core 0)) 0 0 5 1
     callArg s 0 1 = 0 ∧ callArg s 0 2 = 0 ∧ callArg s 0 3 = 5 ∧ callArg s 0 4 ≠ 0 ∧ s.partOfPrism 5 = none ∧ (s.core 0).wld = true) ∧
      (let s := { calling true (.part (.core 0)) 0 0 0 0 with prisms := [(0, { state := .idle })] }
       callArg s 0 3 = 0 ∧ callArg s 0 4 = 0 ∧ s.partOfPrism 0 = some 0 ∧ (s.prism 0).state = .idle ∧
         ((calling true (.part (.core 0)) 0 0 0 0).prism 0).state = .active) ∧
      ((calling false (.part (.core 0)) 0 0 5 1).core 0).wld = false := by decide +kernel

theorem test_holds_RegionsAreSet :
    let s := calling true (.region (.core 0)) 3 0x10000 0x20000 1
    (s.core 0).wld = true ∧ callArg s 0 1 = 3 ∧ callArg s 0 4 ≠ 0 := by decide +kernel

theorem test_holds_AttestationReports :
    let s := calling true (.attest (.core 0)) 0x100 0x400 0 0
    (∀ u ∈ unitsOf 65536 (callArg s 0 1) 64, s.mayTouch (s.core 0).wld u.1 = true) ∧
      (∀ u ∈ unitsOf 65536 (callArg s 0 2) 1024, s.mayTouch (s.core 0).wld u.1 = true) ∧
      (let s := calling true (.attest (.core 0)) 0x100 0x100000 0 0
       ¬ ∀ u ∈ unitsOf 65536 (callArg s 0 2) 1024, s.mayTouch (s.core 0).wld u.1 = true) := by decide +kernel

/-- Another caller; an update that has begun. Whether an image verifies is no value of the reference's: no state shows the first clause. -/
theorem test_holds_FirmwareUpdates :
    ((calling false (.update (.core 0)) 1 0 0x100 0).core 0).wld = false ∧ (calling false (.update (.core 0)) 1 0 0x100 0).update = none ∧
      (let u : UpdateRun := { kind := 4, index := 2, svn := 1, digest := [] }
       let s := { calling true (.update (.core 0)) 4 2 0x100 0 with update := some u }
       Calls s 0 (.update (.core 0)) ∧ s.update = some u) := by unfold Calls; decide +kernel

theorem test_holds_ServiceLinkAndAperture :
    (let s := calling true (.service (.core 0)) 0 0 1 0
     callArg s 0 1 = 0 ∧ callArg s 0 2 < 256 ∧ (s.core 0).wld = true) ∧
      (let s := calling true (.service (.core 0)) 1 3 1 0
       callArg s 0 1 = 1 ∧ callArg s 0 2 = 3 ∧ callArg s 0 3 ≠ 0) ∧
      (let s := calling true (.service (.core 0)) 1 3 0 0
       callArg s 0 3 = 0 ∧ s.stackCovered (callArg s 0 2) = false) ∧
      (let s := calling true (.link (.core 0)) 4 1 0 0
       callArg s 0 1 < 16 ∧ callArg s 0 2 ≠ 0) ∧ ((calling true (.apcfg (.core 0)) 1 1 0 0).core 0).wld = true := by decide +kernel

theorem test_holds_MeasurementsAndLog :
    (let s := calling true (.extend (.core 0)) 8 0x100 0 0
     callArg s 0 1 = 8 ∧ ∀ u ∈ unitsOf 65536 (callArg s 0 2) 64, s.mayTouch (s.core 0).wld u.1 = true) ∧
      (let s := { onCore with due := [.log .host], hmBusy := true, log := [{ tick := 5, code := 1, detail := 0 }] }
       s.oldestCall = some (.log .host) ∧ s.log[ofBytes (readBytes s.hmData 0 8)]?.isSome = true) := by decide +kernel

/-! Links and errors. -/

/-- Device 5 of the domain is reached by port 1, or by none. -/
theorem test_holds_PeersAreLost :
    let s := { onTask with domain := [0, 5], routes := [(5, 2)] }
    5 ∈ s.domain ∧ 5 ≠ s.dev ∧ ¬ (∃ i, i < 16 ∧ (kget 0 s.routes 5).getLsbD i = true ∧ (kget ({} : Port) s.ports i).trained = true) ∧
      (let u := { s with ports := [(1, { trained := true })] }
       ∃ i, i < 16 ∧ (kget 0 u.routes 5).getLsbD i = true ∧ (kget ({} : Port) u.ports i).trained = true) := by decide +kernel

/-- A version that it holds; a load of slot 3 that is under way to it. -/
theorem test_holds_PeersLose :
    (let e : VEntry := { ctx := 1, tile := 0, ver := 2, st := .sealed, peers := [5] }
     let s := { onTask with domain := [0, 5], slices := [(0, { versions := [e] })] }
     e.waiters = [] ∧ (s.slice 0).quota = [] ∧ s.reqs = [] ∧ 5 ∈ e.peers) ∧
      (let r : Req := { who := .slot 0 3, ctx := 1, va := 0x50000000000100, pc := 0, op := .load 5 .n32, stage := .sent }
       let s := { onTask with domain := [0, 5], slices := [], ctxs := [], reqs := [(7, r)] }
       fieldAt r.va 52 12 = 5 ∧ (s.facet 0).parked = [] ∧ (s.slot 0 3).sdc.stepping = none ∧
         ({ r with op := .vget 1 0 0 1024 } : Req).again = false) := by decide +kernel

theorem test_holds_DieJoinFailures :
    (0 ∉ onCore.joinsFailed ∧ onCore.joinsFailed = []) ∧
      (let s := { onCore with joinsFailed := [1] }
       0 ∉ s.joinsFailed ∧ s.joinsFailed ≠ [] ∧ s.ctxs = [(1, ctx1)] ∧ ctx1.window = [{ seq := 0, lpc := 0, state := .issued, left := 1 }]) := by
  decide +kernel

theorem test_holds_EccErrors :
    (let s := { onCore with slices := [(0, { cache := [(0x80, { data := 7 })] })] }
     0x10000 < 12 * 2 ^ 40 ∧ (kfind (0x10000 / 512) (s.slice 0).cache).isSome = true) ∧
      ((onTask.facet 0).slots = [(3, onTask.slot 0 3)] ∧ (onTask.slot 0 3).job = .task 1 0 0 false ∧
        (onTask.entry 1 0).map (·.state) = some .issued) := by decide +kernel

/-- Prism 0 at full speed, and at the last step with the other prisms of its die. -/
theorem test_holds_HeatAndShutdown :
    (onCore.prism 0).state = .active ∧ (onCore.prism 0).pin = false ∧ (onCore.prism 0).throttle ≠ 15 ∧
      (let s := { onCore with prisms := (List.range 64).map fun q => (q, { throttle := 15 }) }
       (∀ q, q < 64 → (s.prism q).throttle = 15) ∧ (s.prism 0).state = .active ∧ (s.prism 0).pin = false) := by decide +kernel
end

