-- ==== Sys2Proof/Tests/Tasks.lean ====
section
/-! SUPPORT. For each claim about versions, copies, messages, remote operations and tile tasks, a state and operands that meet its
hypotheses. -/

set_option maxRecDepth 100000
set_option Elab.async false

open Sys2Proof Sys2Proof.Machine Sys2Proof.Tests

/-! Versions: a page of 128-byte tiles, a pool of one unit, and some version entries; the request is for version 2 of tile 0x100. -/

/-- The slice with some entries. -/
def tiles (vs : List VEntry) : Slice := { mapped tileLeaf with tpool := 1, versions := vs }

/-- The entry of version 2 of tile 0x100 in a state. -/
def version2 (st : VState) (count : Nat) : VEntry :=
  { ctx := 1, tile := 256, ver := 2, st := st, size := 128, pool := true, bytes := List.replicate 128 7, taint := [true, false, false, false],
    count := count }

/-- The same, OPEN and owned by the slot. -/
def filling : VEntry := { version2 .opened 0 with owner := some (.slot 0 3) }

/-- The state after the acceptance is no longer due. -/
def arrived (vs : List VEntry) (op : ReqOp) : State := (asking (tiles vs) op .sent (.acceptance 7 noAnswer)).done (.acceptance 7 noAnswer)

theorem at_tile (vs : List VEntry) (op : ReqOp) (st : State) (h : st = arrived vs op)
    (hx : Unhindered (tiles vs) op st) (hf : st.findAt 0 1 0x100 op.access = (.at 0x10100 tileLeaf, st))
    (hv : op.isSc = false ∧ op.versioned = true) : AtTile st 7 (asked op .sent) 0 0 3 128 :=
  ⟨⟨0x10100, tileLeaf, at_home _ _ _ _ h hx hf hv.1, by decide +kernel⟩, rfl, hv.2, by
    show localVa 0x100 % 128 = 0; decide +kernel, 1, 0, 0, false, by subst h; rfl⟩

theorem test_holds_Creations :
    AtTile (arrived [] (.create true 2 64 0 1024 4 0)) 7 (asked (.create true 2 64 0 1024 4 0) .sent) 0 0 3 128 ∧
      (let s := asking (tiles []) (.create true 2 64 0 1024 4 0) .sent (.acceptance 7 noAnswer)
       s.pair 0 (asked (.create true 2 64 0 1024 4 0) .sent) 2 = none ∧ (s.slice 0).created 1 < 4 ∧ (s.slice 0).noCreate = false ∧
         (s.slice 0).versions.length < 8192 ∧ (s.slice 0).frameFor 128 = some true ∧
         (true = false → (s.slice 0).movesArea = false ∧ s.areaAllows 0 = true)) :=
  ⟨at_tile _ _ _ rfl (by decide +kernel) (by rfl) ⟨rfl, rfl⟩, by decide +kernel⟩

/-- The pair exists, and a range past the allocation. -/
theorem test_holds_CreationFaults :
    AtTile (arrived [version2 .sealed 0] (.create true 2 960 0 1024 4 0)) 7 (asked (.create true 2 960 0 1024 4 0) .sent) 0 0 3 128 ∧
      960 + 128 > 0 + 1024 ∧
      AtTile (arrived [version2 .sealed 0] (.create true 2 64 0 1024 4 0)) 7 (asked (.create true 2 64 0 1024 4 0) .sent) 0 0 3 128 ∧
      (((asking (tiles [version2 .sealed 0]) (.create true 2 64 0 1024 4 0) .sent (.acceptance 7 noAnswer)).pair 0
        (asked (.create true 2 64 0 1024 4 0) .sent) 2).map (·.st.created)).getD false = true :=
  ⟨at_tile _ _ _ rfl (by decide +kernel) (by rfl) ⟨rfl, rfl⟩, by decide,
    at_tile _ _ _ rfl (by decide +kernel) (by rfl) ⟨rfl, rfl⟩, by decide +kernel⟩

/-- The owner fills the first 64 bytes and seals. -/
theorem test_holds_FillingAndSealing :
    AtHome (arrived [filling] (.vput 2 64 64)) 7 (asked (.vput 2 64 64) .sent) 0 0x10100 tileLeaf ∧ localVa 0x100 % tileSize tileLeaf = 0 ∧
      64 ≤ tileSize tileLeaf ∧
      ((asking (tiles [filling]) (.vput 2 64 64) .sent (.acceptance 7 noAnswer)).slice 0).version 1
        (localVa 0x100 / tileSize tileLeaf * tileSize tileLeaf) 2 = some filling ∧
      AtTile (arrived [filling] (.vseal 2)) 7 (asked (.vseal 2) .sent) 0 0 3 128 ∧
      (asking (tiles [filling]) (.vseal 2) .sent (.acceptance 7 noAnswer)).pair 0 (asked (.vseal 2) .sent) 2 = some filling :=
  ⟨at_home _ _ _ _ rfl (by decide +kernel) (by rfl) rfl, by decide +kernel,
    by decide +kernel, by decide +kernel, at_tile _ _ _ rfl (by decide +kernel) (by rfl) ⟨rfl, rfl⟩,
    by decide +kernel⟩

/-- The seal of that version is due while a VGET waits for it. -/
def sealing : State :=
  asking (tiles [{ filling with waiters := [7] }]) (.vget 2 0 0 1024) .onVersion (.seal 0 (1 * 2 ^ 52 + 256) 2)

theorem test_holds_Seals :
    .seal 0 (1 * 2 ^ 52 + 256) 2 ∈ sealing.due ∧ (sealing.slice 0).version 1 256 2 = some { filling with waiters := [7] } ∧
      sealing.req 7 = some (asked (.vget 2 0 0 1024) .onVersion) ∧ 0 < 65535 :=
  ⟨List.mem_singleton.2 rfl, by decide +kernel, rfl, by decide⟩

theorem test_holds_ReadersTakeHolds :
    AtTile (arrived [version2 .sealed 1] (.vretain 2)) 7 (asked (.vretain 2) .sent) 0 0 3 128 ∧
      AtTile (arrived [version2 .sealed 1] (.vget 2 64 0 1024)) 7 (asked (.vget 2 64 0 1024) .sent) 0 0 3 128 ∧
      (let s := asking (tiles [version2 .sealed 1]) (.vretain 2) .sent (.acceptance 7 noAnswer)
       s.pair 0 (asked (.vretain 2) .sent) 2 = some (version2 .sealed 1) ∧ s.heldLost (.slot 0 3) (s.canon 0x100) 2 = false) :=
  ⟨at_tile _ _ _ rfl (by decide +kernel) (by rfl) ⟨rfl, rfl⟩,
    at_tile _ _ _ rfl (by decide +kernel) (by rfl) ⟨rfl, rfl⟩, by decide +kernel⟩

theorem test_holds_NoticesDeliver :
    let p := asking (tiles [filling]) (.vput 2 64 64) .returning (.versionArrivalNotice 7 noAnswer)
    let s := asking (tiles [version2 .sealed 2]) (.vget 2 64 0 1024) .returning (.versionArrivalNotice 7 noAnswer)
    s.req 7 = some (asked (.vget 2 64 0 1024) .returning) ∧ NoneParked s (.slot 0 3) ∧ s.whereIs 0x100 = .here ∧ s.home 1 0x100 = some 0 ∧
      s.pair 0 (asked (.vget 2 64 0 1024) .returning) 2 = some (version2 .sealed 2) ∧ (version2 .sealed 2).bytes.length % 32 = 0 ∧
      s.olderLoad (.slot 0 3) 7 = false ∧
      p.req 7 = some (asked (.vput 2 64 64) .returning) ∧ NoneParked p (.slot 0 3) ∧ p.whereIs 0x100 = .here :=
  ⟨rfl, (none_parked _ _ _ _).2, rfl, by decide +kernel, by decide +kernel, by decide, by decide +kernel, rfl, (none_parked _ _ _ _).2, rfl⟩

/-- VDROP of a version with a hold, and VRELEASE of a hold that the task has. -/
theorem test_holds_HoldsEnd :
    AtTile (arrived [version2 .sealed 1] (.vdrop 2)) 7 (asked (.vdrop 2) .sent) 0 0 3 128 ∧
      (let s := asking (tiles [version2 .sealed 1]) (.vdrop 2) .sent (.acceptance 7 noAnswer)
       s.pair 0 (asked (.vdrop 2) .sent) 2 = some (version2 .sealed 1) ∧ s.heldLost (.slot 0 3) (s.canon 0x100) 2 = false ∧
         (s.slice 0).quota = [] ∧ ∀ x ∈ s.reqs, x.2.stage ≠ .returning) ∧
      AtTile (arrived [version2 .sealed 2] (.vquery 2 5)) 7 (asked (.vquery 2 5) .sent) 0 0 3 128 ∧
      AtTile (arrived [version2 .sealed 2] (.vrelease 2)) 7 (asked (.vrelease 2) .sent) 0 0 3 128 :=
  ⟨at_tile _ _ _ rfl (by decide +kernel) (by rfl) ⟨rfl, rfl⟩, by decide +kernel,
    at_tile _ _ _ rfl (by decide +kernel) (by rfl) ⟨rfl, rfl⟩,
    at_tile _ _ _ rfl (by decide +kernel) (by rfl) ⟨rfl, rfl⟩⟩

theorem test_holds_SupersedeNotices :
    let s := { onTask with slices := [(0, tiles [version2 .sealed 0, { version2 .sealed 1 with tile := 384 }])],
                           due := [.supersedeNotice 0 1 0 65536 3] }
    .supersedeNotice 0 1 0 65536 3 ∈ s.due ∧ ((s.slice 0).versions.map fun e => (e.ctx, e.tile, e.ver)).Nodup ∧
      (∀ e ∈ (s.slice 0).versions, e.waiters = []) ∧ (s.slice 0).quota = [] :=
  ⟨List.mem_singleton.2 rfl, by decide +kernel⟩

/-! Copies. -/

/-- The slot is ready to send. -/
theorem idle : Idle onTask 0 3 := ⟨rfl, ⟨1, 0, 0, false, rfl, rfl⟩, by decide +kernel⟩

theorem test_holds_CopiesAreIssued :
    copyCase (.cpl 7 6 5) = some (7, 6, 5, true, false) ∧ Idle onTask 0 3 ∧ (onTask.facet 0).dirtied = [] ∧
      Ready onTask { core := false, handler := false, reads := [6, 7, 5] } := ⟨rfl, idle, rfl, by unfold Ready; decide +kernel⟩

/-- The slot with 64 in x7. -/
def sized : State := onTask.modThread (.slot 0 3) fun t => t.wx 7 64 false

theorem test_holds_MulticastsOpenStreams :
    Idle sized 0 3 ∧ Ready sized { core := false, handler := false, reads := [6, 7, 5] } ∧ ((sized.slot 0 3).th.rx 7).toNat = 64 ∧
      (sized.slot 0 3).holdsRange 0 64 = true ∧ (sized.slot 0 3).mcb.toNat ≤ 0 ∧ sized.whereIs 0 = .here ∧
      sized.home (sized.slot 0 3).owner.get!.1 0 = some 0 ∧ (sized.slice 0).mc = [] :=
  ⟨⟨rfl, ⟨1, 0, 0, false, rfl, rfl⟩, by decide +kernel⟩, by unfold Ready; decide +kernel, by decide +kernel⟩

/-- A copy of 64 bytes from the page to local store. -/
def copy : Copy :=
  { f := 0, n := 3, ctx := 1, seq := 0, pc := 0, toGlobal := false, multi := false, ga := 0x100, la := 64, len := 64, cpt := 0, mcm := 0, mcb := 0,
    stop := 64 }
def moving (c : Copy) (i : Instr) : State := { onTask with copies := [(7, c)], due := [i] }

theorem test_holds_CopyPieces : Moves ((moving copy (.copyPiece 7 noAnswer)).done (.copyPiece 7 noAnswer)) 7 copy 0 0x10100 64 plainLeaf :=
  by
    unfold Moves
    and_intros
    all_goals first | rfl | decide +kernel | exact fun _ => rfl

theorem test_holds_CopyCompletions :
    let c := { copy with done := 64, finished := true, cause := some cACCESS, cpt := 1 }
    let s := moving c (.copyCompletion 7)
    kfind 7 s.copies = some c ∧ c.f < 2048 ∧ c.n < 16 ∧ (∀ e ∈ s.copies, e.1 ≠ 7 → e.2.f ≠ c.f ∨ e.2.n ≠ c.n) ∧ (s.facet 0).parked = [] := by
  decide +kernel

theorem test_holds_MergeWindowsClose :
    let m : McStream := { id := 7, ctx := 1, base := 0x100, len := 64, mcb := 0, mcm := 3 }
    let s := { onTask with slices := [(0, { mc := [m] })], due := [.mergeWindowClose 0 7] }
    .mergeWindowClose 0 7 ∈ s.due ∧ (s.slice 0).mc.find? (·.id == 7) = some m := ⟨List.mem_singleton.2 rfl, by decide +kernel⟩

/-! Messages. -/

theorem test_holds_MessagesAreSent :
    Idle onTask 0 3 ∧ Ready onTask { core := false, reads := [6, 6 + 1, 7, 8] } ∧ onTask.deviceKnown 0x30 = true ∧
      onTask.deviceKnown 0x4000000 = false := ⟨idle, by unfold Ready; decide +kernel, by decide +kernel⟩

/-- The slot with two messages of different senders in its mailbox. -/
def mailed : State := onTask.modSlot 0 3 fun x => { x with mbox := [{ src := 1, tag := 9 }, { src := 2 }] }

theorem test_holds_MessagesAreReceived :
    mailed.turn = .slot 0 3 ∧ Ready mailed { core := false, handler := false, writes := [6, 6 + 1, 5] } ∧
      (mailed.slot 0 3).mbox = [{ src := 1, tag := 9 }, { src := 2 }] ∧ (mailed.slot 0 3).spill = [] :=
  ⟨rfl, by unfold Ready; decide +kernel, by decide +kernel⟩

theorem test_holds_WaitingForMessages : onTask.turn = .slot 0 3 ∧ Ready onTask { core := false, handler := false, writes := [5] } :=
  ⟨rfl, by unfold Ready; decide +kernel⟩

/-- A message of slot 4 to slot 3 of facet 0. -/
def letter : Flight := { who := .slot 0 4, ctx := 1, seq := 0, pc := 0, word := 3, target := 3, user := false, msg := { id := 7 } }

/-- It arrives, refused or not, where no load of slot 3 is under way and facet 0 keeps its messages. -/
theorem arriving (s : State) (r : Bool) (h : s.flights = [(7, { letter with refused := r })])
    (hs : s.dev = 0 ∧ s.loadAhead (.slot 0 3) = false ∧ (s.facet 0).diverting = false ∧ (s.facet 0).stash = none) :
    Arriving s 7 { letter with refused := r } 0 3 :=
  ⟨h, hs.1 ▸ by cases r <;> decide, by cases r <;> decide, by cases r <;> decide, rfl, rfl, rfl, rfl, hs.2.1, hs.2.2.1, 0, 4, rfl, by decide, by decide, hs.2.2.2⟩

theorem test_holds_MessagesArrive :
    (let s := { onTask with flights := [(7, letter)] }
     Arriving s 7 letter 0 3 ∧ (s.slot 0 3).mbox.length < 8 ∧ ∃ q o b, (s.slot 0 3).job = .task letter.ctx q o b) ∧
      Arriving { onTask with flights := [(7, { letter with refused := true })] } 7 { letter with refused := true } 0 3 :=
  ⟨⟨arriving _ _ rfl (by decide +kernel), by decide +kernel, 0, 0, false, rfl⟩, arriving _ _ rfl (by decide +kernel)⟩

/-- A full mailbox and room for four messages in the spill queue, whose entry 0 is in use. -/
def crowded : State :=
  ({ onTask with flights := [(7, letter)] } : State).modSlot 0 3 fun x =>
    { x with mbox := List.replicate 8 {}, spill := [{}], spillN := 4, spillAt := [0, 1, 2, 3] }

theorem test_holds_MessagesArrive_spilling :
    Arriving crowded 7 letter 0 3 ∧ 8 ≤ (crowded.slot 0 3).mbox.length ∧ (crowded.slot 0 3).spill.length < crowded.spillRoom 0 3 ∧
      (crowded.slot 0 3).park = none ∧ ∃ q o b, (crowded.slot 0 3).job = .task letter.ctx q o b :=
  ⟨arriving _ _ rfl (by decide +kernel), by decide +kernel, by decide +kernel, rfl, 0, 0, false, rfl⟩

/-- Slot 15 of facet 0 with an AMSG in its mailbox. -/
def handling (m : Msg) (fl : KMap Flight) : State := { onTask.modSlot 0 15 fun x => { x with mbox := [m] } with flights := fl }

theorem test_holds_HandlersStart :
    let x := (handling { id := 7, hnd := 0x40, ctx := 1 } []).slot 0 15
    x.job = .vacant ∧ x.trap = none ∧ x.mbox = [{ id := 7, hnd := 0x40, ctx := 1 }] ∧ x.spill = [] := by decide +kernel

/-! Remote operations. -/

theorem test_holds_RemoteOperationsAreSent :
    ∃ op, remoteCase (.ramadd 7 6 .i32 5) = some ([6, 7], [5], 6, op) ∧ (Instr.ramadd 7 6 .i32 5).wf = true ∧ Idle onTask 0 3 ∧
      Ready onTask { core := false, handler := false, reads := [6, 7], writes := [5] } :=
  ⟨_, rfl, by decide, idle, by unfold Ready; decide +kernel⟩

/-- A message for slot 15 that asks for an operation. -/
def parcel (o : BuiltOp) : Flight := { letter with target := 15, msg := { id := 7, ctx := 1, op := some (o, 512) } }

theorem test_holds_BuiltInOperations :
    Serves (handling (parcel (.amo opAdd .i32 3 false 5)).msg [(7, parcel (.amo opAdd .i32 3 false 5))]) 0 (parcel (.amo opAdd .i32 3 false 5)).msg []
      (.amo opAdd .i32 3 false 5) 512 (parcel (.amo opAdd .i32 3 false 5)) :=
  ⟨rfl, rfl, rfl, rfl, rfl, by decide +kernel, by decide +kernel, rfl, rfl⟩

theorem test_holds_RepliesArrive :
    let w := { parcel (.load .i32 5) with who := .slot 0 3, reply := some (.ok 7 true) }
    ReplyHere { onTask with flights := [(7, w)] } 7 w (.load .i32 5) (.ok 7 true) 0 3 :=
  ⟨rfl, rfl, rfl, rfl, rfl, rfl, by decide, ⟨1, 0, 0, false, rfl⟩, rfl⟩

/-- An address past the allocation; an RSTF of a full word; and its sender, waiting to send it again. -/
theorem test_holds_BuiltInOperationsTurnedAway :
    (let m : Msg := { id := 7, ctx := 1, op := some (.load .i32 5, 8192) }
     let s := handling m [(7, letter)]
     (s.slot 0 15).job = .vacant ∧ (s.slot 0 15).mbox = [m] ∧ (s.facet 0).residentRange 1 (BuiltOp.first 8192) 4 = false) ∧
      Serves (handling (parcel (.fullEmpty 4 3 false)).msg [(7, parcel (.fullEmpty 4 3 false))]) 0 (parcel (.fullEmpty 4 3 false)).msg []
        (.fullEmpty 4 3 false) 512 (parcel (.fullEmpty 4 3 false)) ∧
      ¬((handling (parcel (.fullEmpty 4 3 false)).msg []).facet 0).allAre (BuiltOp.first 512) 4 true ∧
      (let s := { onTask.modSlot 0 3 (fun x => { x with park := some { kind := .resend, req := some 7 } }) with
                  flights := [(7, parcel (.fullEmpty 4 3 false))], due := [.rstfResend 0 3] }
       .rstfResend 0 3 ∈ s.due ∧ (s.slot 0 3).park = some { kind := .resend, req := some 7 } ∧ tidDevice (parcel (.fullEmpty 4 3 false)).target = s.dev) :=
  ⟨by decide +kernel, ⟨rfl, rfl, rfl, rfl, rfl, by decide +kernel, by decide +kernel, rfl, rfl⟩,
    fun h => absurd (h 16 (by decide) (by decide)) (by decide +kernel), List.mem_singleton.2 rfl, by decide +kernel⟩

/-! Tile tasks. -/

/-- Slot 0 of facet 0 is the only free one of prism 0, and serves context 1, whose entry has 4 tasks. -/
def fourTasks : Entry := { seq := 0, lpc := 0, state := .issued, left := 4, placed := [(0, 4, 0)], hdr := { ext := [4], wd := [2] } }
def offering (pr : Prism) : State :=
  let busy := { job := .task 1 0 0 false : Slot }
  { onTask with prisms := [(0, pr)], ctxs := [(1, { ctx1 with window := [fourTasks] })], due := [.askForWork 0],
                facets := (List.range 8).map fun j => (j, { slots := ((List.range 15).filter fun n => (j, n) != (0, 0)).map fun n => (n, busy) }) }

/-- Its range task of all ordinals, or a continuation. -/
def ranged : State := offering { ranges := [{ c := 1, seq := 0, lo := 0, hi := 4 }] }
def continued : State := offering { conts := [{ c := 1, seq := 0, code := 64, frame := 1, jaddr := 2, ord := 1 }] }

/-- Slot 0 of facet 0 is the only one of prism 0 that is vacant. -/
theorem only_slot (s : State) (h : ∀ j < 8, ∀ m < 15, (j, m) ≠ (0, 0) → (s.slot (0 * 8 + j) m).job ≠ .vacant) (j m : Nat) (hj : j < 8) (hm : m < 15) :
    (j, m) ≠ (0, 0) → (s.slot (0 * 8 + j) m).job ≠ .vacant := h j hj m hm

theorem test_holds_SlotsTakeWork :
    .askForWork 0 ∈ ranged.due ∧ Offered ranged 0 0 0 1 fourTasks ∧ (ranged.prism 0).ranges = [{ c := 1, seq := 0, lo := 0, hi := 4 }] ∧
      .askForWork 0 ∈ continued.due ∧ Offered continued 0 0 0 1 fourTasks ∧ (continued.prism 0).contsWait = [] :=
  ⟨List.mem_singleton.2 rfl,
    ⟨by decide, by decide, only_slot ranged (by decide +kernel), by decide +kernel⟩,
    rfl, List.mem_singleton.2 rfl,
    ⟨by decide, by decide, only_slot continued (by decide +kernel), by decide +kernel⟩, rfl⟩

/-- An entry of gangs of 2 waits for its first gang on a free prism. -/
def gang : Entry :=
  { seq := 0, lpc := 0, state := .issued, left := 2, gangsWaiting := [0, 1], placed := [(0, 4, 0)], hdr := { ext := [4], wd := [2], gang := 1 } }
def ganging : State :=
  { onTask with ctxs := [(1, { ctx1 with window := [gang] })], facets := [], due := [.gangAdmission 1 0 0],
                prisms := [(0, { ranges := [{ c := 1, seq := 0, lo := 0, hi := 4 }] })] }

theorem test_holds_GangsAreAdmitted :
    .gangAdmission 1 0 0 ∈ ganging.due ∧ ganging.entry 1 0 = some gang ∧
      ∃ plan, (ganging.done (.gangAdmission 1 0 0)).gangPlan 1 gang 0 = some plan ∧ (plan.map fun x => (x.1, x.2.1)).Nodup :=
  ⟨List.mem_singleton.2 rfl, by decide +kernel, _, rfl, by decide +kernel⟩

theorem test_holds_ClockPins :
    let s := { onCore with due := [.clockChange 0] }
    .clockChange 0 ∈ s.due ∧ ∀ f n, (s.slot f n).next = none := ⟨List.mem_singleton.2 rfl, fun _ _ => rfl⟩

/-- A handler on slot 15 for a message of slot 3. -/
def handled : State :=
  { onTask.modSlot 0 15 (fun x => { x with job := .handler 1 0 7 }) with turn := .slot 0 15, flights := [(7, { letter with who := .slot 0 3 })] }

/-- The same slot with a load outstanding. -/
def counting : State := onTask.modSlot 0 3 fun x => { x with cnt := { ld := 1 } }

theorem test_holds_TasksEnd :
    (Quiet onTask 0 3 ∧ (onTask.slot 0 3).holds = [] ∧ (onTask.slot 0 3).rem = none ∧ (onTask.entry 1 0).isSome = true ∧
      Ready onTask { core := false }) ∧
      ((handled.slot 0 15).job = .handler 1 0 7 ∧ Quiet handled 0 15 ∧ kfind 7 handled.flights = some { letter with who := .slot 0 3 } ∧
        Ready handled { core := false }) ∧
      (counting.slot 0 3).cnt ≠ {} ∧ Ready counting { core := false } := by
  unfold Ready Quiet; decide +kernel

theorem test_holds_YieldsGiveTheTurn : onTask.turn = .slot 0 3 ∧ Ready onTask { core := false, handler := false } :=
  ⟨rfl, by unfold Ready; decide +kernel⟩

/-- The task with a continuation area of 4 entries. -/
def spawning : State :=
  { onTask with ctxs := [(1, { ctx1 with d := { contB := 0x20000, contN := 4 }, window := [{ fourTasks with placed := [(0, 4, 0)] }] })] }

theorem test_holds_TasksSpawn :
    spawning.turn = .slot 0 3 ∧ (spawning.slot 0 3).job = .task 1 0 0 false ∧ spawning.unfinished (.slot 0 3) = false ∧
      (spawning.prism (prismOf 0)).cache = [] ∧ spawning.entry 1 0 = some fourTasks ∧ fourTasks.prismOf (spawning.slot 0 3).ord.toNat = some 0 ∧
      Ready spawning { core := false, handler := false, reads := [6, 7, 5] } ∧ spawning.mayTouch false (0x20000 + 31) = true := by
  unfold Ready; decide +kernel
end

