-- ==== Sys2Proof/Tests/Vectors.lean ====
section
/-! SUPPORT. For each claim about vector and matrix instructions, a state and operands that meet its hypotheses. -/

set_option maxRecDepth 100000
set_option Elab.async false

open Sys2Proof Sys2Proof.Machine Sys2Proof.Tests

/-! Vector instructions: the slot with a vector length of 4. -/

/-- The slot, changed and with its facet changed. -/
def vec (g : Facet → Facet) (h : Slot → Slot) : State := (onTask.modFacet 0 g).modSlot 0 3 fun x => h { x with vl := 4 }

/-- It is ready for a vector instruction. -/
theorem vec_ready (i : Instr)
    (hr : Ready (vec id id) { core := false, handler := false, body := true, prefixed := (vinfo i none).pre,
                              reads := [(vinfo i none).ra, (vinfo i none).rb], writes := [(vinfo i none).xd] }) : VecReady (vec id id) 0 3 i := by
  exact ⟨rfl, ⟨1, 0, 0, false, rfl, rfl⟩, rfl, rfl, (fun _ h => by cases h), rfl, by decide +kernel, hr⟩

theorem vec_idle : Idle (vec id id) 0 3 := ⟨rfl, ⟨1, 0, 0, false, rfl, rfl⟩, by decide +kernel⟩

theorem test_holds_VectorOperationsEnter :
    vecOp (.vfma .f32 true 4 3 2) = true ∧ (Instr.vfma .f32 true 4 3 2).wf = true ∧ VecReady (vec id id) 0 3 (.vfma .f32 true 4 3 2) ∧
      Granted (vec id id) 0 3 (.vfma .f32 true 4 3 2) = true :=
  ⟨rfl, by decide, vec_ready _ (by unfold Ready; decide +kernel), by decide +kernel⟩

theorem test_holds_VectorLocalAccessesEnter :
    vecLocalCase (.vstls false 7 6 .w16 2) = some (true, true, 16) ∧ (Instr.vstls false 7 6 .w16 2).wf = true ∧
      VecReady (vec id id) 0 3 (.vstls false 7 6 .w16 2) ∧ Granted (vec id id) 0 3 (.vstls false 7 6 .w16 2) = true ∧
      firstElem true 16 4 0 0 (fun e => e % elemAlign 16 != 0) = none ∧
      firstElem true 16 4 0 0 (fun e => !((vec id id).slot 0 3).holdsRange e 2) = none :=
  ⟨rfl, by decide, vec_ready _ (by unfold Ready; decide +kernel), by decide +kernel⟩

theorem test_holds_VectorGlobalAccessesAreSent :
    (Instr.vld false 6 .w32 2).wf = true ∧ VecReady (vec id id) 0 3 (.vld false 6 .w32 2) ∧ Idle (vec id id) 0 3 ∧
      Granted (vec id id) 0 3 (.vld false 6 .w32 2) = true ∧
      ∀ e ∈ piecesOf 0 ((4 * 32 + 7) / 8), (vec id id).whereIs (BitVec.ofNat 64 e.1) ≠ .nowhere :=
  ⟨by decide, vec_ready _ (by unfold Ready; decide +kernel), vec_idle, by decide +kernel⟩

/-- A vector instruction of the slot in the sequencer. -/
def item (i : Instr) : VIns := { id := 9, slot := 3, ins := i, pc := 0, vl := 4, rm := .rne, sat := false, xa := 0x100 }

theorem test_holds_VectorGlobalAccessesAreAccepted :
    AtHome ((asking (mapped plainLeaf) (.vload (item (.vld false 6 .w32 2)) 16 []) .sent (.acceptance 7 noAnswer)).done (.acceptance 7 noAnswer)) 7
      (asked (.vload (item (.vld false 6 .w32 2)) 16 []) .sent) 0 0x10100 plainLeaf ∧ (0x100#64).toNat % 512 + 16 ≤ 512 ∧
      ((asking (mapped plainLeaf) (.vload (item (.vld false 6 .w32 2)) 16 []) .sent (.acceptance 7 noAnswer)).slot 0 3).loopLeft = 0 :=
  ⟨at_home _ _ _ _ rfl (by decide +kernel) (by rfl) rfl, by decide, by decide +kernel⟩

/-- The sequencer holds it alone. -/
def alone (i : Instr) : State := vec (fun x => { x with seqQ := [{ body := [item i], slot := 3 }] }) id

theorem is_alone (i : Instr) : Alone (alone i) 0 (item i) := ⟨rfl, rfl, rfl, rfl, rfl, Nat.le_refl _, rfl, rfl⟩

theorem test_holds_ElementResults :
    (∃ c, elemCase (.vadds false true 4 3 .w8 2) = some c) ∧ (item (.vadds false true 4 3 .w8 2)).ins.wf = true ∧
      Alone (alone (.vadds false true 4 3 .w8 2)) 0 (item (.vadds false true 4 3 .w8 2)) ∧ (item (.vadds false true 4 3 .w8 2)).vl ≤ 256 :=
  ⟨⟨_, rfl⟩, by decide, is_alone _, by decide⟩

theorem test_holds_QuantisedElements :
    (item (.vqnt32 true .e4m3 4 8)).ins = .vqnt32 true .e4m3 4 8 ∧ (Instr.vqnt32 true .e4m3 4 8).wf = true ∧
      Alone (alone (.vqnt32 true .e4m3 4 8)) 0 (item (.vqnt32 true .e4m3 4 8)) := ⟨rfl, by decide, is_alone _⟩

theorem test_holds_ElementInsertAndExtract :
    Alone (alone (.vins true 7 6 .w16 2)) 0 (item (.vins true 7 6 .w16 2)) ∧ Alone (alone (.vext true 7 6 .w16 5)) 0 (item (.vext true 7 6 .w16 5)) :=
  ⟨is_alone _, is_alone _⟩

theorem test_holds_IntegerReductions :
    Instr.vrmin true .n8 4 .w8 2 ∈ [Instr.vrsum true .n8 4 .w8 2, .vrmax true .n8 4 .w8 2, .vrmin true .n8 4 .w8 2, .vscan true .n8 4 .w8 2] ∧
      (Instr.vrmin true .n8 4 .w8 2).wf = true ∧ Fmt.n8.isFloat = false ∧ Alone (alone (.vrmin true .n8 4 .w8 2)) 0 (item (.vrmin true .n8 4 .w8 2)) :=
  ⟨.tail _ (.tail _ (.head _)), by decide, rfl, is_alone _⟩

theorem test_holds_FloatReductions :
    Instr.vscan true .bf16 4 .w16 2 ∈ [Instr.vrsum true .bf16 4 .w16 2, .vrmax true .bf16 4 .w16 2, .vrmin true .bf16 4 .w16 2, .vscan true .bf16 4 .w16 2] ∧
      (Instr.vscan true .bf16 4 .w16 2).wf = true ∧ Fmt.bf16.isFloat = true ∧ Alone (alone (.vscan true .bf16 4 .w16 2)) 0 (item (.vscan true .bf16 4 .w16 2)) ∧
      (Instr.vrsum true .bf16 4 .w16 2).wf = true ∧ Alone (alone (.vrsum true .bf16 4 .w16 2)) 0 (item (.vrsum true .bf16 4 .w16 2)) ∧ 4 ≤ 2 ^ 2 ∧ 2 ^ (2 - 1) < 4 :=
  ⟨.tail _ (.tail _ (.tail _ (.head _))), by decide, rfl, is_alone _, by decide, is_alone _, by decide⟩

theorem test_holds_ReductionTaint :
    Instr.vrmax true .bf16 4 .w16 2 ∈ [Instr.vrsum true .bf16 4 .w16 2, .vrmax true .bf16 4 .w16 2, .vrmin true .bf16 4 .w16 2, .vscan true .bf16 4 .w16 2] ∧
      (Instr.vrmax true .bf16 4 .w16 2).wf = true ∧ Alone (alone (.vrmax true .bf16 4 .w16 2)) 0 (item (.vrmax true .bf16 4 .w16 2)) :=
  ⟨.tail _ (.head _), by decide, is_alone _⟩

theorem test_holds_VectorLocalAccessesStart :
    Alone (alone (.vstl true 6 .w16 2)) 0 (item (.vstl true 6 .w16 2)) ∧ Alone (alone (.vldls true 7 6 .w8 2)) 0 (item (.vldls true 7 6 .w8 2)) ∧
      VWidth.w16.bits = 16 ∧ iBits .w8 = 8 := ⟨is_alone _, is_alone _, rfl, rfl⟩

/-- A result in flight with an exception, once with its trap enabled. -/
theorem test_holds_VectorResultsLand :
    let r : SeqRes := { id := 9, slot := 3, pc := 0, lands := 0, flags := 1, scalar := some (5, 7, false) }
    let s := vec (fun x => { x with inflight := [r] }) id
    (s.facet 0).inflight = [r] ∧ r.lands ≤ (s.facet 0).cyc ∧ r.fills = [] ∧ r.drains = [] ∧ r.req = none ∧ (s.slot 0 3).job = .task 1 0 0 false ∧
      (s.facet 0).wNow = [] ∧ r.traps &&& r.flags.extractLsb' 0 3 = 0 ∧ ({ r with traps := 7 } : SeqRes).traps &&& r.flags.extractLsb' 0 3 ≠ 0 := by
  decide +kernel

theorem test_holds_LaneGrants :
    Ready onTask { core := false, handler := false, reads := [6], writes := [5] } ∧ (onTask.facet 0).seqQ = [] ∧ (onTask.facet 0).unmet = 0 ∧
      ∀ g, g ≠ 0 → onTask.facet g = ({} : Facet) := by
  refine ⟨by unfold Ready; decide +kernel, rfl, rfl, fun g h => ?_⟩
  simp [State.facet, onTask, kget, kfind, Ne.symm h]

theorem test_holds_VectorLengths : Ready onTask { core := false, handler := false, reads := [6], writes := [5] } := by unfold Ready; decide +kernel

/-- A VLOOP may enter; and a body of which two more instructions are to come. -/
theorem test_holds_VectorLoops :
    (Ready onTask { core := false, handler := false, reads := [6] } ∧ onTask.seqUsed 0 + 15 + 1 ≤ 16 ∧ (onTask.slot 0 3).loop = 0) ∧
      (let s := vec (fun x => { x with seqQ := [{ body := [item (.vmv false 4 .w32 2)], slot := 3, count := 3, filling := true }] }) fun x => { x with loopLeft := 2 }
       (s.slot 0 3).loopLeft = 1 + 1 ∧ s.fpHeld (.slot 0 3) = false ∧
         (s.facet 0).seqQ = [{ body := [item (.vmv false 4 .w32 2)], slot := 3, count := 3, filling := true }] ∧
         Granted s 0 3 (.vfadd .f32 false 4 3 2) = true ∧
         VecReady (s.setSlot 0 3 { s.slot 0 3 with loopLeft := 0 }) 0 3 (.vfadd .f32 false 4 3 2)) :=
  ⟨by unfold Ready; decide +kernel, by decide +kernel, by decide +kernel, rfl, by decide +kernel, rfl, ⟨1, 0, 0, false, rfl, rfl⟩,
    by unfold Ready; decide +kernel⟩

/-- A descriptor of one element in each count at 0 of local store; a VBIND and a VUNBIND in the sequencer; streams that are bound. -/
def stream : Stream := { slot := 3, drain := true, base := 64, esz := .w32, n := [1, 1, 1, 1], s := [0, 0, 0, 0] }
def described : State := vec (fun x => { x with ls := [(2, { data := 0x10001 }), (3, { data := 0x10001 })] }) id

theorem test_holds_StreamBindings :
    (Ready described { core := false, handler := false, reads := [6] } ∧ described.seqUsed 0 < 16 ∧ (described.facet 0).sb = [] ∧
      (described.slot 0 3).loopLeft = 0 ∧ (described.slot 0 3).holdsRange 0 32 = true ∧
      0 ∉ ((List.range 4).map fun i => ofBytes ((described.facet 0).lsBytes (8 + 2 * i) 2)) ∧ ofBytes ((described.facet 0).lsBytes 16 16) = 0) ∧
      Ready described { core := false, handler := false } ∧
      (let v := { item (.vbind true 2 6) with desc := some stream }
       let s := vec (fun x => { x with seqQ := [{ body := [v] }] }) id
       (s.facet 0).seqQ = [{ body := [v] }] ∧ (s.facet 0).inflight = [] ∧ (s.facet 0).seqFree ≤ (s.facet 0).cyc ∧
         kfind (2 : BitVec 2).toNat (s.facet 0).streams = none) ∧
      (let s := vec (fun x => { x with seqQ := [{ body := [item (.vunbind 2)] }], streams := [(2, stream)] }) id
       (s.facet 0).seqQ = [{ body := [item (.vunbind 2)] }] ∧ kfind (2 : BitVec 2).toNat (s.facet 0).streams = some stream ∧
         ((s.facet 0).streams.map Prod.fst).Nodup ∧ ∀ e ∈ (s.facet 0).streams, e.1 < 4) ∧
      Ready described { core := false, handler := false, writes := [5] } := by
  unfold Ready; decide +kernel

theorem test_holds_StreamTransfers :
    (let st := { stream with buf := [(0, 7, false)], owed := [(9, 1, 0)] }
     let s := vec (fun x => { x with streams := [(2, st)] }) id
     kfind 2 (s.facet 0).streams = some st ∧ s.streamMoves 0 2 st = true ∧ (s.facet 0).parked = []) ∧
      (let st := { stream with drain := false }
       let s := vec (fun x => { x with seqQ := [{ body := [item (.vmv false 30 .w32 4)] }], streams := [(2, st)] }) id
       kfind 2 (s.facet 0).streams = some st ∧ s.streamMoves 0 2 st = true ∧ (s.facet 0).parked = []) := by
  decide +kernel

/-- VPMRG of a slot that its mask names, alone. -/
theorem test_holds_MergesGather :
    let s := vec id fun x => { x with th := x.th.wx 7 1 false }
    (s.slot 0 3).job = .task 1 0 0 false ∧ (s.facet 0).streams = [] ∧ (s.facet 0).seqQ = [] ∧ (s.facet 0).inflight = [] ∧ s.merges = [] ∧
      Ready s { core := false, handler := false, reads := [7] } ∧ (s.slot 0 3).mcb.toNat ≤ 0 ∧ ((s.slot 0 3).th.rx 7).getLsbD 0 = true ∧
      (s.slot 0 3).vl.toNat ≤ (s.facet 0).grant := by
  unfold Ready; decide +kernel

/-- A merge of slot 3 of facets 0 and 1. -/
theorem test_holds_MergesComplete :
    let p : Contrib := { f := 0, n := 3, vl := 4, m := {}, s := {}, d := 4 }
    let q : Contrib := { p with f := 1, m := { bits := 0x3F800000 } }
    let m : Merge := { ctx := 1, seq := 0, mcb := 0, mask := 3, k := 0, parts := [p, q] }
    let y : Facet := { grant := 8, slots := [(3, { job := .task 1 0 1 false, vl := 4, park := some { kind := .vpmrg } })] }
    let s := { onTask with due := [.mergeComplete 7], merges := [(7, m)], facets := [(0, y), (1, y)] }
    .mergeComplete 7 ∈ s.due ∧ kfind 7 s.merges = some m ∧ m.parts = [p, q] ∧ m.members = [p.f, q.f] ∧ p.vl ≤ (s.facet p.f).grant ∧ q.vl ≤ (s.facet q.f).grant ∧
      (s.slot p.f p.n).job = .task 1 0 1 false ∧ (s.slot q.f q.n).job = .task 1 0 1 false ∧ rndTraps (s.slot p.f p.n).th.rnd = 0 ∧
      rndTraps (s.slot q.f q.n).th.rnd = 0 := by
  decide +kernel

/-! Matrix queues. -/

/-- The slot with 64 KiB of local store. -/
def wideSlot (g : Facet → Facet) : State :=
  { onTask with facets := [(0, g { grant := 8, slots := [(3, { job := .task 1 0 0 false, lsize := 65536 })] })] }

theorem mx_ready (pre : Bool) (reads : List (BitVec 5)) (q : Bool)
    (hr : Ready (wideSlot id) { core := false, handler := false, prefixed := pre, reads := reads }) : MxReady (wideSlot id) 0 3 pre reads q :=
  ⟨rfl, ⟨1, 0, 0, false, rfl, rfl⟩, rfl, hr, by cases q <;> decide +kernel, by decide +kernel⟩

/-- A descriptor of vectors that are 64-byte aligned, or packed with pitch 0. -/
theorem test_holds_MultiplicationsEnter :
    (Instr.mxmul false 7 6 true 2 .e4m3).wf = true ∧ MxReady (wideSlot id) 0 3 true [6, 7] true ∧ blockAligned 0 .e4m3 (vectorBytes MFmt.e4m3.cls) ∧
      dScale 0 % 64 = 0 ∧ blockHeld ((wideSlot id).slot 0 3) 0 (vectorBytes MFmt.e4m3.cls) ∧
      ((wideSlot id).slot 0 3).holdsRange (dScale 0) 256 = true ∧ ((wideSlot id).slot 0 3).holdsRange (dScale 0) 4 = true :=
  ⟨by decide, mx_ready _ _ _ (by unfold Ready; decide +kernel), ⟨by decide +kernel, .inl (by decide +kernel)⟩, by decide +kernel,
    (by decide +kernel : ∀ i < 64, ((wideSlot id).slot 0 3).holdsRange (dData 0 + i * dPitch 0 (vectorBytes MFmt.e4m3.cls)) (vectorBytes MFmt.e4m3.cls) = true),
    by decide +kernel⟩

theorem test_holds_ImageTransfersEnter :
    (Instr.mxst true 6 true 2 .e4m3).wf = true ∧ MxReady (wideSlot id) 0 3 true [6] true ∧ MxReady (wideSlot id) 0 3 false [6] false ∧
      blockAligned 0 .e4m3 (8 * (mFmt .e4m3).width) ∧ dScale 0 % 64 = 0 ∧ blockHeld ((wideSlot id).slot 0 3) 0 (8 * (mFmt .e4m3).width) ∧
      ((wideSlot id).slot 0 3).holdsRange (dScale 0) 256 = true :=
  ⟨by decide, mx_ready _ _ _ (by unfold Ready; decide +kernel), mx_ready _ _ _ (by unfold Ready; decide +kernel),
    ⟨by decide +kernel, .inl (by decide +kernel)⟩, by decide +kernel,
    (by decide +kernel : ∀ i < 64, ((wideSlot id).slot 0 3).holdsRange (dData 0 + i * dPitch 0 (8 * (mFmt .e4m3).width)) (8 * (mFmt .e4m3).width) = true),
    by decide +kernel⟩

/-- An entry of a matrix queue of the slot. -/
def mx (i : Instr) (st : MxStage) : MxEntry := { id := 9, slot := 3, ctx := 1, seq := 0, ins := i, pc := 0, stage := st }

theorem test_holds_OtherEntriesEnter :
    MxReady (wideSlot id) 0 3 false [] false ∧ (∃ c, Instr.mxzero false 2 = .mxzero false c) ∧
      (let s := wideSlot fun x => { x with mq0 := { entries := List.replicate 16 (mx (.mxzero false 2) .queued) } }
       s.turn = .slot 0 3 ∧ Ready s { core := false, handler := false } ∧ 16 ≤ ((s.facet 0).mq false).entries.length) :=
  ⟨mx_ready _ _ _ (by unfold Ready; decide +kernel), ⟨2, rfl⟩, rfl, by unfold Ready; decide +kernel, by decide +kernel⟩

theorem test_holds_MatrixFences :
    Ready (wideSlot id) { core := false, handler := false } ∧ ((wideSlot id).slot 0 3).park = none ∧ ((wideSlot id).facet 0).mq0.entries = [] ∧
      (wideSlot id).copies = [] ∧ (wideSlot id).flights = [] := by
  unfold Ready; decide +kernel

/-- Queue 0 waits for an engine, of which none is bound. -/
def bindingFree : State := wideSlot fun x => { x with mq0 := { entries := [mx (.mxzero false 2) .queued], waiting := some 5 } }

theorem only_facet (x : Facet) (s : State) (h : s.facets = [(0, x)]) (g : Nat) (hg : g ≠ 0) : s.facet g = {} := by
  simp [State.facet, h, kget, kfind, Ne.symm hg]

theorem test_holds_QueuesAreBound :
    ((bindingFree.facet 0).mq false).waiting = some 5 ∧ 0 < 4 ∧
      (∀ g r u, prismOf g = prismOf 0 → ((bindingFree.facet g).mq r).waiting = some u → 5 < u ∨ 5 = u ∧ (0 < g ∨ 0 = g ∧ (false = false ∨ r = true))) ∧
      ∀ g r b, prismOf g = prismOf 0 → ((bindingFree.facet g).mq r).bind = some b → b.engine ≠ 0 := by
  refine ⟨rfl, by decide, fun g r u _ h => ?_, fun g r b _ h => ?_⟩
  · rcases Nat.eq_zero_or_pos g with rfl | hg
    · cases r
      · exact .inr ⟨Option.some.inj h, .inr ⟨rfl, .inl rfl⟩⟩
      · exact absurd h (by simp [bindingFree, wideSlot, State.facet, kget, kfind, Facet.mq])
    · exact absurd h (by rw [only_facet _ bindingFree rfl g (by omega)]; cases r <;> simp [Facet.mq])
  · rcases Nat.eq_zero_or_pos g with rfl | hg
    · exact absurd h (by cases r <;> simp [bindingFree, wideSlot, State.facet, kget, kfind, Facet.mq])
    · exact absurd h (by rw [only_facet _ bindingFree rfl g (by omega)]; cases r <;> simp [Facet.mq])

/-- Queue 0 is bound to engine 1 for context 1 and holds some entries, 200 cycles after their begin. -/
def bound (l : List MxEntry) : State :=
  wideSlot fun x => { x with cyc := 200, mq0 := { entries := l, bind := some { engine := 1, ctx := 1 } } }

theorem test_holds_ReadsBegin :
    let e := mx (.mxld 6 false 2 .f32) .queued
    let s := bound [{ mx (.mxzero false 2) .computing with id := 8 }, e]
    ((s.facet 0).mq false).entries = [{ mx (.mxzero false 2) .computing with id := 8 }] ++ e :: [] ∧ (mxKind e.ins).1 ≠ .rel ∧
      ((s.facet 0).mq false).bind = some { engine := 1, ctx := 1 } ∧ (s.facet 0).sb = [] ∧ (∀ y ∈ ((s.facet 0).mq true).entries, y.stage = .queued) ∧
      e.enq + 4 ≤ (s.facet 0).cyc ∧ ((s.facet 0).mq false).boundAt + 4 ≤ (s.facet 0).cyc := by
  decide +kernel

theorem test_holds_ComputeBegins :
    let e := mx (.mxld 6 false 2 .f32) .reading
    let s := bound [e]
    ((s.facet 0).mq false).entries = [e] ∧ e.readAt + readCycles e.ins e.fa e.fb ≤ (s.facet 0).cyc ∧ isChained e.ins = false := by
  decide +kernel

theorem mx_head (i : Instr) : MxHead (bound [mx i .computing]) 0 false (mx i .computing) [] { engine := 1, ctx := 1 } :=
  ⟨rfl, rfl, rfl, (by decide : 0 + 128 ≤ 200), rfl, ⟨0, 0, false, rfl⟩, rfl⟩

theorem test_holds_MatrixProducts :
    MxHead (bound [mx (.mxmul true 7 6 false 2 .f32) .computing]) 0 false (mx (.mxmul true 7 6 false 2 .f32) .computing) [] { engine := 1, ctx := 1 } ∧
      mSameClass (mx (.mxmul true 7 6 false 2 .f32) .computing).fa (mx (.mxmul true 7 6 false 2 .f32) .computing).fb = true :=
  ⟨mx_head _, by decide⟩

theorem test_holds_AccumulatorOperations :
    MxHead (bound [mx (.mxtr 1 false 2) .computing]) 0 false (mx (.mxtr 1 false 2) .computing) [] { engine := 1, ctx := 1 } := mx_head _

theorem test_holds_ImageStores :
    MxHead (bound [mx (.mxst false 6 false 2 .f32) .computing]) 0 false (mx (.mxst false 6 false 2 .f32) .computing) [] { engine := 1, ctx := 1 } ∧
      blockAligned 0 .f32 (8 * (mFmt .f32).width) := ⟨mx_head _, by decide +kernel, .inl (by decide +kernel)⟩

theorem test_holds_ReleasesEndBindings :
    let s := bound [mx (.mxrel false) .queued, mx (.mxzero false 2) .queued]
    ((s.facet 0).mq false).entries = mx (.mxrel false) .queued :: [mx (.mxzero false 2) .queued] ∧ (s.slot 0 3).owner = some (1, 0) ∧
      (s.facet 0).parked = [] := by decide +kernel

theorem test_holds_RowScales : twiceLargest .e4m3 ≠ 0 := by decide
end

section
/-! The machine at reset: no part of it is listed yet, so every core, facet, slot and prism reads as the default of its
structure (R12), and the values of registers follow from those defaults. -/

namespace Sys2Proof.Machine

/-! The parts of the reset machine. -/

@[simp] theorem State.core_reset (k : Nat) : State.reset.core k = {} := rfl
@[simp] theorem State.prism_reset (p : Nat) : State.reset.prism p = {} := rfl
@[simp] theorem State.facet_reset (f : Nat) : State.reset.facet f = {} := rfl
@[simp] theorem State.slot_reset (f n : Nat) : State.reset.slot f n = {} := rfl

@[simp] theorem State.thread_reset (a : Agent) : State.reset.thread a = {} := by
  cases a with
  | core k => rw [State.thread_core, State.core_reset]
  | slot f n => rw [State.thread_slot, State.slot_reset]
  | peer tid => rfl

/-- At reset all slots read alike, so that one slot stands for each. -/
theorem State.slotCsr_reset (f j n : Nat) : State.reset.slotCsr f j n = State.reset.slotCsr 0 0 n := by
  simp only [State.slotCsr, State.slot_reset, State.facet_reset, State.prism_reset]

/-! The registers of a thread that has run nothing. -/

@[simp] theorem Thread.rx_default (r : BitVec 5) : ({} : Thread).rx r = 0 := by
  simp [Thread.rx, Vector.get]

@[simp] theorem Thread.tx_default (r : BitVec 5) : ({} : Thread).tx r = false := by
  simp [Thread.tx]

/-- Of p0 to p7 only bit 0 is set, and that is what p0 reads in any case. -/
@[simp] theorem Thread.rp_default (q : BitVec 3) : ({} : Thread).rp q = (q == 0) := by
  revert q
  decide

/-! The control registers at reset (R192, R346). -/

/-- Left out are sfrply and spre (0x80C, 0x80E), which act on a write and keep no field (R346). -/
theorem Core.csr_default : ∀ n ∈ [0x000, 0x001, 0x00A, 0x00D, 0x00E, 0x800, 0x801, 0x802, 0x803, 0x804, 0x805, 0x806, 0x807, 0x808, 0x809,
    0x80A, 0x80B, 0x80D], (({} : Core).csr n).map Prod.fst = some 0 := by
  decide

theorem State.slotCsr_reset_zero : ∀ n < 0x011, (State.reset.slotCsr 0 0 n).map Prod.fst = some 0 := by
  decide

/-- Settles O15: a core and a slot that nothing has written read the defaults of their fields. -/
theorem resetLeavesZeroFields : Obligations.ResetLeavesZeroFields := by
  refine ⟨fun k => ?_, fun f j n hn => ?_⟩
  · rw [State.core_reset]
    exact ⟨rfl, Core.csr_default⟩
  · rw [State.slotCsr_reset]
    exact State.slotCsr_reset_zero n (Nat.lt_succ_of_le hn)

/-- Settles O16: every agent's thread at reset is the one that has run nothing. -/
theorem resetRegistersAsChosen : Obligations.ResetRegistersAsChosen := by
  intro a r q
  rw [State.thread_reset]
  exact ⟨Thread.rx_default r, Thread.tx_default r, Thread.rp_default q⟩

end Sys2Proof.Machine
end
